-- ==== Sys2Proof/Word.lean ====
section
/-! DEFINITION. The word types of the model: a byte, and a string of bytes as it stands in a frame,
a hoist or the SRAM (R8: bit 0 is the least significant bit of every byte). -/

namespace Sys2Proof

/-- One byte (R8). -/
abbrev Byte := BitVec 8

/-- Bytes in the order they are sent or stored, first at the lowest offset. -/
abbrev Bytes := List Byte

end Sys2Proof
end

