-- ==== Sys2Proof/Operand.lean ====
section
/-! DEFINITION. What a command's operand can be, beside numbers and bytes: messages of external standards, decoded. -/

namespace Sys2Proof

/-- How a message's authentication came out: no tag carried, tag passed, tag failed. -/
inductive Auth where
  | absent | pass | fail
  deriving DecidableEq, Repr

/-- The timed markers that the two ends of a hop exchange twice, once started from each end (R79): for each exchange the time from the
marker's departure to the return of its answer, and the responder's turnaround on its own clock, in 2⁻¹⁶ ns. -/
structure HopMarks where
  there1 : Nat
  turn1  : Nat
  there2 : Nat
  turn2  : Nat
  deriving DecidableEq, Repr

/-- A message of IEEE 1588 as it reaches an engine (R62): times in 2⁻¹⁶ ns of the domain's timescale. -/
inductive PtpMsg where
  /-- Sync: sequence number, logMessageInterval, two-step flag, origin timestamp, correction field. -/
  | sync (seq : Nat) (logInt : Int) (twoStep : Bool) (origin : Nat) (corr : Int)
  /-- Follow_Up: sequence number, precise origin timestamp, correction field. -/
  | followUp (seq : Nat) (origin : Nat) (corr : Int)
  /-- Announce: logMessageInterval; priority1, clockClass, accuracy, variance, priority2, grandmaster identity, stepsRemoved;
  currentUtcOffset, leap61, leap59, its validity; the two inaccuracies of the C37.238 TLV. -/
  | announce (logInt : Int) (prio1 cls accuracy variance prio2 gmId steps : Nat) (utc : Nat) (leap61 leap59 utcValid : Bool)
      (tinacc : Option (Nat × Nat))
  /-- Pdelay_Req of the link partner. -/
  | pdelayReq (seq : Nat)
  /-- Pdelay_Resp: the request's own sending time, and the responder's turnaround with corrections. -/
  | pdelayResp (t1 : Nat) (turnaround : Nat)
  deriving DecidableEq, Repr

/-- A PTP engine, 0 or 1, and a Meridian instant at which a message of it is due (R65). -/
structure EngineAt where
  engine : Nat
  t      : Nat
  deriving DecidableEq, Repr

/-- How the self-test of a cell came out (R187): whether every test passed, and the taps that the first calibration of the delay line found
(R225). -/
structure SelftestReport where
  pass : Bool
  taps : Nat
  deriving DecidableEq, Repr

/-- The level at an input and the Meridian instant since which it stands (R235). -/
structure HeldLevel where
  level : Bool
  since : Nat
  deriving DecidableEq, Repr

/-- A voltage in mV and the Meridian instant since which it stands (R281). -/
structure HeldVoltage where
  mv    : Nat
  since : Nat
  deriving DecidableEq, Repr

/-- A gate supply, 0 VGP, 1 VGN, 2 VDDF, its voltage in mV and the uptime since which it stands (R279). -/
structure SupplyReading where
  supply : Nat
  mv     : Int
  since  : Nat
  deriving DecidableEq, Repr

/-- The descriptor of a wait whose timeout expires, and whether its condition becomes true later in the timeout's cycle (R309). -/
structure WaitDue where
  d   : Nat
  met : Bool
  deriving DecidableEq, Repr

/-- The timestamp of a change at an input of a feedback interface or latch and how long the new levels are held, in 10 ns (R400, R401). -/
structure InputMark where
  t    : Nat
  held : Nat
  deriving DecidableEq, Repr

/-- A level before and after a change (R613). -/
structure LevelChange where
  was : Nat
  now : Nat
  deriving DecidableEq, Repr

/-- What else writes in the cycle of a host write into SRAM: the signal slots that a graph write reaches (R427), and from which offset how
many bytes a DMA write reaches (R628). -/
structure StoreTies where
  slots : List Nat
  dma   : Nat × Nat
  deriving DecidableEq, Repr

/-- The bits that a write clears in an event register, and the bits raised in the same cycle (R629). -/
structure EventClear where
  mask   : Nat
  raised : Nat
  deriving DecidableEq, Repr

/-- A place in a BAR of the host: the BAR, the page and the offset in it (R619). -/
structure BarPlace where
  bar  : Nat
  page : Nat
  ofs  : Nat
  deriving DecidableEq, Repr

/-- An SPI frame: whether it came whole (R633), and whether the PCI Express access that waits reaches the same register in its cycle
(R634). -/
structure SpiFrame where
  whole : Bool
  tie   : Bool
  deriving DecidableEq, Repr

/-- What the integrating converter on a cell's capacitor gave in the stride that ends (R199, R435): of CNI channel 0 the mean of each 10 ns,
in 2⁻⁸ codes, the last one newest, and the side of the range that the window and the end window left (0 none, 1 above, 2 below). -/
structure CapInput where
  cni     : List Int
  cniSide : Nat
  endSide : Nat
  deriving DecidableEq, Repr

/-- What a fast converter's channel gave in a stride or in a conversion of a scan (R436 to R438): the sample words, the last one newest, bit
14 set on one over range; and whether a graph write reaches the slot of SIG (bit 0) or SIG_END (bit 1) in the Signal store cycle of the
result (R427). -/
structure CnfSamples where
  ch    : Nat
  words : List Nat
  clash : Nat
  deriving DecidableEq, Repr

/-- An ASDU of IEC 61850-9-2 (R443): svID, smpCnt, confRev, smpSynch, and per channel the INT32 pattern and its quality. -/
structure SvAsdu where
  svId     : List (BitVec 8)
  smpCnt   : Nat
  confRev  : Nat
  smpSynch : Nat
  chans    : List (Nat × Nat)
  deriving DecidableEq, Repr

/-- What the estimator of R452 has formed for a phasor channel at an instant: magnitude before SCALE, angle in radians, frequency in Hz and
ROCOF in Hz/s as binary32 patterns; and whether a fast-converter sample in the window was over range (R454). -/
structure Phasor where
  mag   : Nat
  ang   : Nat
  freq  : Nat
  rocof : Nat
  out   : Bool
  deriving DecidableEq, Repr

/-- The authentication TLV of a PTP message (R576): none, or its keyID, the bytes it covers and its integrity value. -/
inductive PtpAuth where
  | absent
  | tlv (keyId : Nat) (data tag : List (BitVec 8))
  deriving DecidableEq, Repr

/-- A frame received at an Ethernet port (R669): one that fails its FCS or is too long; a PTP message, with the VLAN
identifier of its tag and its domain; a frame of
sampled values, with its destination, APPID and ASDUs; or any other, from the destination address to the end of its data. -/
inductive EthFrame where
  | badFcs
  | tooLong
  | ptp (vid : Option Nat) (domain : Nat) (auth : PtpAuth) (msg : PtpMsg)
  | sv (vid : Option Nat) (mac appid : Nat) (asdus : List SvAsdu)
  | raw (data : List (BitVec 8))
  deriving DecidableEq, Repr

end Sys2Proof
end

