-- ==== Sys2Proof/Syntax.lean ====
section
/-! DEFINITION. The commands of the GV-4800: one constructor for each row of the table of operations and events
(spec/opcode_table.json). An operand carries what comes from outside the device: the value written, the bytes received,
the level of a pin, the result of a measurement. A time is in units of 2⁻¹⁶ ns of the Meridian. -/

namespace Sys2Proof

/-- The commands: one constructor for each row of the table of operations and events, those
with operands before those without. -/
inductive Instr where
  /-- POWER_ON_RESET (R598). -/
  | powerOnReset (vddaoLost : Bool)
  /-- POR_RELEASE (R598). -/
  | porRelease (role : Nat) (unit : Nat) (lgcy : Nat) (locksel : Nat) (bootsrc : Nat) (vddio3v3 : Nat) (entropyOk : Bool) (unwrapOk : Bool)
  /-- SYS_RESET (R598). -/
  | sysReset (key : Nat)
  /-- REF_MONITOR_WINDOW (R581). -/
  | refMonitorWindow (edges : Nat)
  /-- SERDES_UNLOCK (R593). -/
  | serdesUnlock (quad : Nat)
  /-- HUB_BOOT (R638). -/
  | hubBoot (slotA : Bytes) (slotB : Bytes)
  /-- STRIDE_BOUNDARY (R33). -/
  | strideBoundary (cnf : List CnfSamples)
  /-- CELL_TABLE_CUTOFF (R35). -/
  | cellTableCutoff (retraining : Nat)
  /-- HOIST_BUILD_DONE (R33). -/
  | hoistBuildDone (bad : Bool)
  /-- HOIST_TRAILER_RECEIVED (R121). -/
  | hoistTrailerReceived (port : Nat) (t : Nat) (data : Bytes)
  /-- HOIST_EXPIRE (R121). -/
  | hoistExpire (ring : Nat)
  /-- HUB_HEADER_CHECK (R504). -/
  | hubHeaderCheck (port : Nat) (t : Nat) (head : Bytes)
  /-- HOIST_PASS (R106). -/
  | hoistPass (side : Nat) (t : Nat) (data : Bytes)
  /-- CELL_BOUNDARY (R41). -/
  | cellBoundary (cni : List Int) (cniOvr : Bool) (cniBelow : Bool) (endSide : Nat) (junction : Int) (cnf : List CnfSamples)
  /-- SELFTEST_DONE (R187). -/
  | selftestDone (report : SelftestReport)
  /-- CNI_MONITOR_MEAN (R435). -/
  | cniMonitorMean (mean : Nat) (sub : Option Nat)
  /-- OT_WARN (R205). -/
  | otWarn (temp : Int)
  /-- OT_TRIP (R205). -/
  | otTrip (temp : Int)
  /-- DELAY_LINE_CAL (R224). -/
  | delayLineCal (taps : Nat)
  /-- TRIP_ACTIVE (R235). -/
  | tripActive (n : Nat) (input : HeldLevel)
  /-- TRIP_CLEAR (R239). -/
  | tripClear (mask : Nat)
  /-- EDG_MAP_WRITE (R244). -/
  | edgMapWrite (ovr : Bool) (value : Nat)
  /-- TEV_FIRE (R251). -/
  | tevFire (e : Nat)
  /-- GATE_PHASE_END (R257). -/
  | gatePhaseEnd (chan : Nat) (mv : Int)
  /-- MILLER_TMO (R259). -/
  | millerTmo (chan : Nat)
  /-- REFRESH_BURST (R264). -/
  | refreshBurst (m : Nat)
  /-- DECK_FRAME (R267). -/
  | deckFrame (m : Nat) (bits : List Bool)
  /-- DECK_START_TIMEOUT (R269). -/
  | deckStartTimeout (m : Nat)
  /-- GATE_SUPPLY_LOW (R280). -/
  | gateSupplyLow (reading : SupplyReading)
  /-- GATE_SUPPLY_OK (R279). -/
  | gateSupplyOk (reading : SupplyReading)
  /-- GATE_EN_WRITE (R280). -/
  | gateEnWrite (value : Nat)
  /-- DESATURATION (R281). -/
  | desaturation (n : Nat) (reading : HeldVoltage)
  /-- BLOCK_LOCK_LOSS (R93). -/
  | blockLockLoss (port : Nat)
  /-- RETRAIN_OK (R129). -/
  | retrainOk (port : Nat) (neighbour : Nat)
  /-- HOP_DOWN (R128). -/
  | hopDown (port : Nat)
  /-- RING_BRINGUP (R118). -/
  | ringBringup (ring : Nat) (trained : Bool) (n : Nat) (marks : List HopMarks) (fwd : Nat × Nat) (rev : Nat × Nat)
  /-- RING_TAKE_DOWN (R118). -/
  | ringTakeDown (ring : Nat)
  /-- SPLIT_BROADCAST (R675). -/
  | splitBroadcast (ring : Nat)
  /-- TRUNK_BRINGUP (R137). -/
  | trunkBringup (hops : List HopMarks) (records : Nat) (branches : List Nat)
  /-- TRUNK_HOIST_RECEIVED (R136). -/
  | trunkHoistReceived (port : Nat) (t : Nat) (data : Bytes)
  /-- PEN_REQUEST_LAUNCH (R115). -/
  | penRequestLaunch (port : Nat) (typ : Nat) (target : Nat) (payload : Bytes)
  /-- PEN_TMO (R116). -/
  | penTmo (ring : Nat) (target : Nat) (txn : Nat)
  /-- HUB_CRED (R567). -/
  | hubCred (ring : Nat)
  /-- CELL_CRED (R567). -/
  | cellCred (ring : Nat)
  /-- KEY_WRAP (R567). -/
  | keyWrap (ring : Nat) (cell : Nat)
  /-- KEY_ACK (R567). -/
  | keyAck (ring : Nat)
  /-- LAT_ADJ (R132). -/
  | latAdj (ring : Nat) (cell : Nat) (marks : HopMarks)
  /-- HOP_RELEASE (R674). -/
  | hopRelease (ring : Nat) (hop : Nat)
  /-- LINK_BYPASS (R131). -/
  | linkBypass (ring : Nat) (cell : Nat)
  /-- SYNC_TIMEOUT (R65). -/
  | syncTimeout (due : EngineAt)
  /-- ANNOUNCE_TIMEOUT (R65). -/
  | announceTimeout (due : EngineAt)
  /-- PPS_IN_EDGE (R71). -/
  | ppsInEdge (t : Nat)
  /-- TOD_ARM (R73). -/
  | todArm (value : Nat)
  /-- ETH_FRAME_RX (R669). -/
  | ethFrameRx (port : Nat) (t : Nat) (frame : EthFrame)
  /-- ETH_TX (R670). -/
  | ethTx (port : Nat)
  /-- ETH_LINK_CHANGE (R671). -/
  | ethLinkChange (port : Nat) (up : Bool) (anDone : Bool) (remoteFault : Bool) (txLat : Nat) (rxLat : Nat)
  /-- CTR_ENABLE (R38). -/
  | ctrEnable (on : Bool)
  /-- CTG_ENABLE (R147). -/
  | ctgEnable (group : Nat) (on : Bool)
  /-- OP_DISPATCH (R302). -/
  | opDispatch (t : Nat)
  /-- LEG_END (R304). -/
  | legEnd (d : Nat)
  /-- WAIT_MET (R308). -/
  | waitMet (d : Nat)
  /-- WAIT_TMO (R308). -/
  | waitTmo (due : WaitDue)
  /-- OP_COMPLETE (R291). -/
  | opComplete (d : Nat)
  /-- CANCEL (R311). -/
  | cancel (idx : Nat)
  /-- RUN (R324). -/
  | run (on : Bool)
  /-- XCOPY (R354). -/
  | xcopy (d : Nat)
  /-- WSUM (R334). -/
  | wsum (d : Nat)
  /-- MUL (R334). -/
  | mul (d : Nat)
  /-- PI (R340). -/
  | pi (d : Nat)
  /-- PI_RS (R341). -/
  | piRs (d : Nat)
  /-- RAMP (R342). -/
  | ramp (d : Nat)
  /-- LPF1 (R343). -/
  | lpf1 (d : Nat)
  /-- BIQ2 (R344). -/
  | biq2 (d : Nat)
  /-- CLARKE (R345). -/
  | clarke (d : Nat)
  /-- ICLARKE (R345). -/
  | iclarke (d : Nat)
  /-- PARK (R346). -/
  | park (d : Nat)
  /-- IPARK (R346). -/
  | ipark (d : Nat)
  /-- SEQ (R347). -/
  | seq (d : Nat)
  /-- PLL (R348). -/
  | pll (d : Nat)
  /-- LIM (R336). -/
  | lim (d : Nat)
  /-- RLIM (R337). -/
  | rlim (d : Nat)
  /-- LUT (R338). -/
  | lut (d : Nat)
  /-- CCSC (R350). -/
  | ccsc (d : Nat)
  /-- MIN (R335). -/
  | min (d : Nat)
  /-- MAX (R335). -/
  | max (d : Nat)
  /-- MED (R335). -/
  | med (d : Nat)
  /-- GEAR (R339). -/
  | gear (d : Nat)
  /-- CMP (R352). -/
  | cmp (d : Nat)
  /-- STOPREQ (R353). -/
  | stopreq (d : Nat)
  /-- COEF_WR (R361). -/
  | coefWr (d : Nat)
  /-- COEF_DATA_WRITE (R358). -/
  | coefDataWrite (value : Nat) (collides : Bool)
  /-- PUSH (R378). -/
  | push (axis : Nat)
  /-- PUSH_RESUME (R379). -/
  | pushResume (axis : Nat)
  /-- REPLACE (R378). -/
  | replace (axis : Nat)
  /-- STOP (R378). -/
  | stop (axis : Nat)
  /-- FLUSH (R378). -/
  | flush (axis : Nat)
  /-- GEAR_IN (R387). -/
  | gearIn (axis : Nat)
  /-- GEAR_OUT (R390). -/
  | gearOut (axis : Nat)
  /-- FBL_CLR (R394). -/
  | fblClr (axis : Nat)
  /-- ENCODER_EDGE (R401). -/
  | encoderEdge (f : Nat) (a : Bool) (b : Bool) (at_ : InputMark)
  /-- HALL_CHANGE (R402). -/
  | hallChange (f : Nat) (u : Bool) (v : Bool) (w : Bool) (at_ : InputMark)
  /-- HALL_INVALID (R402). -/
  | hallInvalid (f : Nat)
  /-- INDEX (R403). -/
  | index (f : Nat) (at_ : InputMark)
  /-- LINE_FAULT (R399). -/
  | lineFault (f : Nat) (input : Nat) (low : Bool)
  /-- SSI_READ_START (R406). -/
  | ssiReadStart (f : Nat)
  /-- SSI_READ_DONE (R408). -/
  | ssiReadDone (f : Nat) (resp : Nat) (ack : Nat) (back : Nat) (t : Nat)
  /-- FBK_VALID (R422). -/
  | fbkValid (f : Nat)
  /-- DATUM_ARM (R410). -/
  | datumArm (axis : Nat) (value : Nat)
  /-- DATUM_SET (R410). -/
  | datumSet (axis : Nat)
  /-- LATCH (R413). -/
  | latch (n : Nat) (rising : Bool) (at_ : InputMark)
  /-- SW_LATCH (R413). -/
  | swLatch (axis : Nat)
  /-- LATCH_POP (R415). -/
  | latchPop (axis : Nat)
  /-- CMP_ARM (R417). -/
  | cmpArm (axis : Nat) (c : Nat) (value : Nat)
  /-- START_EVENT (R430). -/
  | startEvent (k : Nat) (t : Nat)
  /-- CONVERTER_START (R429). -/
  | converterStart (sel : Nat)
  /-- CNI_WINDOW_CLOSE (R431). -/
  | cniWindowClose (ch : Nat) (code : Nat) (side : Nat) (t : Nat) (collides : Bool)
  /-- SCAN_DONE (R438). -/
  | scanDone (res : List CnfSamples)
  /-- CAL_STEP (R439). -/
  | calStep (ok : Bool) (ofs : Nat) (gain : Nat) (skew : Nat)
  /-- FROZEN (R441). -/
  | frozen (ch : Nat)
  /-- SLICE_FROZEN (R442). -/
  | sliceFrozen (ch : Nat) (slice : Nat)
  /-- SV_LOST (R449). -/
  | svLost (stream : Nat)
  /-- PMU_REPORT (R455). -/
  | pmuReport (est : List Phasor) (ago : Nat) (late : Bool)
  /-- PMU_INT_RECORD (R457). -/
  | pmuIntRecord (est : List Phasor)
  /-- SEGMENT_FREE (R464). -/
  | segmentFree (mask : Nat)
  /-- LEVEL_TRIGGER (R466). -/
  | levelTrigger (ch : Nat) (words : List Nat) (t : Nat) (sample : Nat)
  /-- SLOPE_TRIGGER (R467). -/
  | slopeTrigger (ch : Nat) (words : List Nat) (t : Nat) (sample : Nat)
  /-- PATTERN_TRIGGER (R468). -/
  | patternTrigger (inputs : Nat) (t : Nat) (sample : Nat)
  /-- GROUP_WRITTEN (R470). -/
  | groupWritten (t : Nat) (raw : List (List Nat)) (frozen : Bool) (fifo : Nat)
  /-- SVY_RD_DATA (R476). -/
  | svyRdData (words : Nat)
  /-- FRONT (R477). -/
  | front (det : Nat) (a : List Nat) (b : List Nat) (t : Nat) (quiet : Nat)
  /-- STRIDE_FRAME (R490). -/
  | strideFrame (lane : Nat) (t : Nat) (data : Bytes)
  /-- RING_DIG (R493). -/
  | ringDig (lane : Nat) (data : Bytes)
  /-- LATE_FRAME (R493). -/
  | lateFrame (lane : Nat) (data : Bytes)
  /-- MIRROR_FRAME (R487). -/
  | mirrorFrame (lane : Nat) (data : Bytes)
  /-- STATE_FRAME (R515). -/
  | stateFrame (lane : Nat) (data : Bytes)
  /-- CLR_ENABLE (R502). -/
  | clrEnable (on : Bool)
  /-- SAFETY_CYCLE (R520). -/
  | safetyCycle (len : Nat) (overrun : Bool) (selfBad : Bool) (changes : List (Nat × Nat × Bool)) (moves : List Int) (high : Nat) (low : Nat) (dark : Nat)
  /-- SUP_FAULT (R521). -/
  | supFault (bad : Bool)
  /-- CONN_LOST (R546). -/
  | connLost (conn : Nat)
  /-- NET_LOST (R545). -/
  | netLost (conn : Nat) (net : Nat)
  /-- CLAIM_CMD (R556). -/
  | claimCmd (len : Nat)
  /-- ATTEST (R559). -/
  | attest (len : Nat)
  /-- ENDORSE (R554). -/
  | endorse (len : Nat)
  /-- DBG_CHALLENGE (R578). -/
  | dbgChallenge (len : Nat)
  /-- DBG_RESPONSE (R578). -/
  | dbgResponse (len : Nat)
  /-- KEY_LOAD (R575). -/
  | keyLoad (len : Nat)
  /-- KEY_ERASE (R575). -/
  | keyErase (len : Nat)
  /-- ROLL_FWD (R562). -/
  | rollFwd (len : Nat)
  /-- REKEY_NOW (R571). -/
  | rekeyNow (ring : Nat)
  /-- REKEY_START (R571). -/
  | rekeyStart (ring : Nat)
  /-- KEY_EXPIRED (R572). -/
  | keyExpired (ring : Nat)
  /-- SUSPECT_CLR (R574). -/
  | suspectClr (cell : Nat)
  /-- PRIORITY_REQUEST (R605). -/
  | priorityRequest (island : Nat)
  /-- ISLAND_RELEASE (R607). -/
  | islandRelease (island : Nat)
  /-- BUDGET_WRITE (R608). -/
  | budgetWrite (value : Nat)
  /-- CLK_OUT_WRITE (R585). -/
  | clkOutWrite (out : Nat) (value : Nat)
  /-- SUP_SAMPLE (R600). -/
  | supSample (mv : List Nat) (gate : List Int)
  /-- DORMANT_REQUEST (R610). -/
  | dormantRequest (key : Nat)
  /-- WAKE_EVENT (R613). -/
  | wakeEvent (comparator : Bool) (change : LevelChange)
  /-- PCIE_LINK_CHANGE (R648). -/
  | pcieLinkChange (up : Bool) (speed : Nat) (width : Nat) (msix : Bool)
  /-- BAR2_WRITE (R622). -/
  | bar2Write (ofs : Nat) (data : Bytes) (ties : StoreTies)
  /-- SCRUB_PASS (R25). -/
  | scrubPass (singles : Nat) (doubles : List Nat)
  /-- HOST_RING_PI_WRITE (R624). -/
  | hostRingPiWrite (ring : Nat) (value : Nat)
  /-- RING_WRITE_RESUME (R28). -/
  | ringWriteResume (ring : Nat)
  /-- DMA_HOST_TO_SRAM (R626). -/
  | dmaHostToSram (engine : Nat) (data : Bytes) (collides : List Nat)
  /-- DMA_SRAM_TO_HOST (R626). -/
  | dmaSramToHost (engine : Nat) (taken : Nat)
  /-- DMA_NO_TRANSFER (R626). -/
  | dmaNoTransfer (engine : Nat)
  /-- DMA_COMPLETE (R626). -/
  | dmaComplete (engine : Nat)
  /-- EVT_PEND_WRITE (R629). -/
  | evtPendWrite (page : Nat) (bits : EventClear)
  /-- EVT_RAW_WRITE (R629). -/
  | evtRawWrite (page : Nat) (bits : EventClear)
  /-- EVT_FORCE (R629). -/
  | evtForce (page : Nat) (mask : Nat)
  /-- SPI_WRITE (R633). -/
  | spiWrite (addr : Nat) (data : Nat) (frame : SpiFrame)
  /-- SPI_READ (R633). -/
  | spiRead (addr : Nat) (frame : SpiFrame)
  /-- QSPI_START (R648). -/
  | qspiStart (value : Nat)
  /-- QSPI_DONE (R648). -/
  | qspiDone (data : Bytes)
  /-- PAGE_LOCK (R642). -/
  | pageLock (page : Nat)
  /-- PAGE_UNLOCK (R642). -/
  | pageUnlock (page : Nat)
  /-- SOFT_RESET (R643). -/
  | softReset (page : Nat)
  /-- SOFT_RESET_DONE (R643). -/
  | softResetDone (page : Nat)
  /-- FREEZE (R644). -/
  | freeze (page : Nat) (on : Bool)
  /-- RC_FIELD_READ (R11). -/
  | rcFieldRead (at_ : BarPlace) (size : Nat)
  /-- GPIO_EDGE (R648). -/
  | gpioEdge (inputs : Nat)
  /-- TEMP_HIGH (R648). -/
  | tempHigh (t : Int)
  /-- REGISTER_WRITE (R11). -/
  | registerWrite (bar : Nat) (page : Nat) (ofs : Nat) (value : Nat) (size : Nat)
  /-- SERDES_LOCK (R593). -/
  | serdesLock (quad : Nat)
  /-- PLOT_BIST (R647). -/
  | plotBist (mask : Nat)
  /-- FROZEN_END (R441). -/
  | frozenEnd (ch : Nat)
  /-- ELECTRICAL_COMPARE_FIRE (R416). -/
  | electricalCompareFire (axis : Nat) (t : Nat)
  /-- PLL_LOCK (R589). -/
  | pllLock
  /-- PLL_UNLOCK (R591). -/
  | pllUnlock
  /-- MSYN_LOCK (R592). -/
  | msynLock
  /-- MSYN_UNLOCK (R592). -/
  | msynUnlock
  /-- BOOT_DONE (R638). -/
  | bootDone
  /-- BOOT_GO (R639). -/
  | bootGo
  /-- CHART_START (R299). -/
  | chartStart
  /-- SORT_STAGE_START (R153). -/
  | sortStageStart
  /-- SORT_STAGE_DONE (R158). -/
  | sortStageDone
  /-- CHART_DEADLINE (R315). -/
  | chartDeadline
  /-- EDGE_STAGE_START (R39). -/
  | edgeStageStart
  /-- EDGE_STAGE_DONE (R174). -/
  | edgeStageDone
  /-- FLAG_DEADLINE (R123). -/
  | flagDeadline
  /-- ORPHAN_TIMEOUT (R207). -/
  | orphanTimeout
  /-- BPT_PULSE (R194). -/
  | bptPulse
  /-- BOOT_WINDOW_EXPIRY (R191). -/
  | bootWindowExpiry
  /-- IMAGE_VERIFY_DONE (R188). -/
  | imageVerifyDone
  /-- BOOT_RETRY (R188). -/
  | bootRetry
  /-- OV2 (R204). -/
  | ov2
  /-- EDGE_ACTION (R222). -/
  | edgeAction
  /-- LC_PERIOD_BOUNDARY (R245). -/
  | lcPeriodBoundary
  /-- COMMIT (R250). -/
  | commit
  /-- ACCOUNT_UPDATE (R271). -/
  | accountUpdate
  /-- FORCED_REFILL (R272). -/
  | forcedRefill
  /-- GEN_LOW (R285). -/
  | genLow
  /-- GEN_CLEAR (R286). -/
  | genClear
  /-- EMPTY (R113). -/
  | empty
  /-- REG_RD (R212). -/
  | regRd
  /-- REG_WR (R212). -/
  | regWr
  /-- REG_RSP (R114). -/
  | regRsp
  /-- BOOT_DATA (R143). -/
  | bootData
  /-- BOOT_END (R188). -/
  | bootEnd
  /-- ENUM (R118). -/
  | enum
  /-- DIGEST (R513). -/
  | digest
  /-- BOOT_STREAM_START (R143). -/
  | bootStreamStart
  /-- BOOT_STREAM_STOP (R143). -/
  | bootStreamStop
  /-- REANCHOR (R55). -/
  | reanchor
  /-- SWITCH_REQ (R67). -/
  | switchReq
  /-- STEP_APPLY (R59). -/
  | stepApply
  /-- PPS_MISSING (R72). -/
  | ppsMissing
  /-- PPS_OUT_PULSE (R74). -/
  | ppsOutPulse
  /-- HOLDOVER_UPDATE (R76). -/
  | holdoverUpdate
  /-- SNAPSHOT_READ (R89). -/
  | snapshotRead
  /-- TIMING_APPLY (R185). -/
  | timingApply
  /-- STAGE (R319). -/
  | stage
  /-- STAGE_CHECK_DONE (R319). -/
  | stageCheckDone
  /-- SWAP (R321). -/
  | swap
  /-- SWAP_CANCEL (R323). -/
  | swapCancel
  /-- COEF_WRITE_RESUME (R360). -/
  | coefWriteResume
  /-- CFL_CLEAR (R357). -/
  | cflClear
  /-- SCAN_START (R438). -/
  | scanStart
  /-- SVY_ARM (R464). -/
  | svyArm
  /-- DISARM (R475). -/
  | disarm
  /-- FORCE (R469). -/
  | force
  /-- LOG_RATE_DOWN (R471). -/
  | logRateDown
  /-- PEER_RESEND (R481). -/
  | peerResend
  /-- NO_MATCH (R483). -/
  | noMatch
  /-- FRONT_POP (R479). -/
  | frontPop
  /-- MIRROR_APPLY (R487). -/
  | mirrorApply
  /-- MIRROR_WRITE_RESUME (R487). -/
  | mirrorWriteResume
  /-- ALONE_TIMEOUT (R502). -/
  | aloneTimeout
  /-- HANDOVER (R506). -/
  | handover
  /-- DRILL (R506). -/
  | drill
  /-- PREF_RETURN (R507). -/
  | prefReturn
  /-- FAULT_CLR (R502). -/
  | faultClr
  /-- RESYNC_TRANSFER (R515). -/
  | resyncTransfer
  /-- RESYNC_DONE (R517). -/
  | resyncDone
  /-- DEGR_TIMEOUT (R541). -/
  | degrTimeout
  /-- FAULT_ACK (R523). -/
  | faultAck
  /-- SAF_RESET (R534). -/
  | safReset
  /-- CMD_DONE (R554). -/
  | cmdDone
  /-- ENTROPY_FAIL (R550). -/
  | entropyFail
  /-- ARBITER_CYCLE (R605). -/
  | arbiterCycle
  /-- HELD_ACCESS_RESUME (R606). -/
  | heldAccessResume
  /-- PWREN_LOW (R611). -/
  | pwrenLow
  /-- PCIE_RESET (R623). -/
  | pcieReset
  /-- SPI_STATUS (R633). -/
  | spiStatus
  /-- REG_PARITY (R509). -/
  | regParity
  /-- KEY_AGREE_OPERATION_DONE (R567). -/
  | keyAgreeOperationDone
  /-- ENTROPY_OK (R550). -/
  | entropyOk
  deriving DecidableEq, Repr

end Sys2Proof
end

