-- ==== Sys2Proof/Machine/Bits.lean ====
section
/-! DEFINITION. Bit fields, sign, byte order and saturation over naturals: the helpers every block uses
(R8 bit numbering, R9 little-endian fields, R10 big-endian Ethernet fields). -/

namespace Sys2Proof.Machine

/-- The `w` bits of `x` from bit `lo` (R8). -/
def bitsOf (x lo w : Nat) : Nat := x / 2 ^ lo % 2 ^ w

/-- Bit `i` of `x`. -/
def bitOf (x i : Nat) : Bool := x / 2 ^ i % 2 == 1

/-- `x` with the `w` bits from `lo` replaced by `v`. -/
def putBits (x lo w v : Nat) : Nat :=
  x / 2 ^ (lo + w) * 2 ^ (lo + w) + v % 2 ^ w * 2 ^ lo + x % 2 ^ lo

/-- `x` with bit `i` set or cleared. -/
def putBit (x i : Nat) (b : Bool) : Nat := putBits x i 1 (if b then 1 else 0)

/-- One bit as a number. -/
def ofBool (b : Bool) : Nat := if b then 1 else 0

/-- A `w`-bit two's-complement number read as an integer. -/
def sext (w x : Nat) : Int :=
  if x % 2 ^ w < 2 ^ (w - 1) then (x % 2 ^ w : Nat) else (x % 2 ^ w : Nat) - (2 ^ w : Nat)

/-- An integer stored in `w` bits, two's complement, wrapping. -/
def wrapTo (w : Nat) (i : Int) : Nat := (i % (2 ^ w : Nat)).toNat

/-- An integer saturated to the signed range of `w` bits. -/
def satInt (w : Nat) (i : Int) : Int :=
  if i ≥ (2 ^ (w - 1) : Nat) then (2 ^ (w - 1) : Nat) - 1
  else if i < -(2 ^ (w - 1) : Nat) then -(2 ^ (w - 1) : Nat) else i

/-- A natural saturated to `w` bits. -/
def satNat (w n : Nat) : Nat := min n (2 ^ w - 1)

/-- A natural clamped between two bounds. -/
def clampNat (lo hi n : Nat) : Nat := max lo (min hi n)

/-- The quotient rounded up. -/
def ceilDiv (a b : Nat) : Nat := (a + b - 1) / b

/-- The nearest integer to `a / b`, ties to even, for `b` above 0. -/
def divNearestEven (a : Int) (b : Nat) : Int :=
  let q := a / (b : Int)
  let r := a % (b : Int)
  if 2 * r > b ∨ (2 * r = b ∧ q % 2 = 1) then q + 1 else q

/-- The low `n` bytes of `v`, least significant first (R9). -/
def leBytes : Nat → Nat → Bytes
  | 0, _ => []
  | n + 1, v => BitVec.ofNat 8 v :: leBytes n (v / 256)

/-- The number that bytes spell, least significant first (R9). -/
def ofLe : Bytes → Nat
  | [] => 0
  | b :: bs => b.toNat + 256 * ofLe bs

/-- The low `n` bytes of `v`, most significant first (R10). -/
def beBytes (n v : Nat) : Bytes := (leBytes n v).reverse

/-- The number that bytes spell, most significant first (R10). -/
def ofBe (bs : Bytes) : Nat := ofLe bs.reverse

/-- `n` bytes of a string from offset `o`; bytes beyond its end read 0. -/
def sliceBytes (bs : Bytes) (o n : Nat) : Bytes :=
  (List.range n).map fun i => bs.getD (o + i) 0

/-- A little-endian field of `n` bytes at offset `o`. -/
def leAt (bs : Bytes) (o n : Nat) : Nat := ofLe (sliceBytes bs o n)

/-- A big-endian field of `n` bytes at offset `o`. -/
def beAt (bs : Bytes) (o n : Nat) : Nat := ofBe (sliceBytes bs o n)

/-- A string with the bytes from offset `o` replaced by `new`. -/
def overlay (bs : Bytes) (o : Nat) (new : Bytes) : Bytes :=
  bs.take o ++ new ++ bs.drop (o + new.length)

/-- The bits set in `x` below `n`, lowest first. -/
def bitList (x n : Nat) : List Nat := (List.range n).filter fun i => bitOf x i

/-- The number of bits set in `x` below `n`. -/
def popCount (x n : Nat) : Nat := (bitList x n).length

/-- The mask whose set bits are the members of the list. -/
def maskOf (is : List Nat) : Nat := is.foldl (fun m i => putBit m i true) 0

/-- Position `i` of a list replaced; a position beyond its end changes nothing. -/
def setAt {α : Type} (l : List α) (i : Nat) (a : α) : List α := l.set i a

/-- Position `i` of a list changed by `f`. -/
def modAt {α : Type} (l : List α) (i : Nat) (f : α → α) : List α := l.modify i f

/-- Sequence number `a` is newer than `b`, modulo 2³². -/
def seqNewer (a b : Nat) : Bool :=
  let d := (a + 2 ^ 32 - b % 2 ^ 32) % 2 ^ 32
  decide (1 ≤ d ∧ d < 2 ^ 31)

/-- The integer square root, rounded down, by `n` halving steps of the bit position. -/
def isqrtAux (x : Nat) : Nat → Nat → Nat
  | 0, r => r
  | n + 1, r => isqrtAux x n (if (r + 2 ^ n) * (r + 2 ^ n) ≤ x then r + 2 ^ n else r)

/-- The integer square root of `x`, rounded down. -/
def isqrt (x : Nat) : Nat := isqrtAux x (Nat.log2 x / 2 + 1) 0

end Sys2Proof.Machine
end

