-- ==== Sys2Proof/Machine/Num.lean ====
section
/-! DEFINITION. IEEE 754 binary32 and binary64 numbers (R325 to R328): a value is held exactly as a sign, a
natural significand and a power of two, each operation is computed exactly and rounded once, to nearest, ties to even. -/

namespace Sys2Proof.Machine

/-- A floating-point value: not a number, an infinity, or plus or minus `m` times two to the `e`. -/
inductive Num where
  | nan
  | inf (neg : Bool)
  | fin (neg : Bool) (m : Nat) (e : Int)
  deriving DecidableEq, Repr

/-- The precision of a format, the exponent of its least significant subnormal bit and the exponent its values stay below. -/
structure NumFmt where
  p    : Nat
  emin : Int
  top  : Int
  deriving DecidableEq, Repr

/-- binary32. -/
def fmt32 : NumFmt := ⟨24, -149, 128⟩

/-- binary64. -/
def fmt64 : NumFmt := ⟨53, -1074, 1024⟩

/-- The number of bits of a natural. -/
def bitLen (n : Nat) : Nat := if n = 0 then 0 else Nat.log2 n + 1

/-- `m` over two to the `k`, rounded to nearest, ties to even. -/
def roundShift (m k : Nat) : Nat :=
  if k = 0 then m
  else
    let q := m / 2 ^ k
    let r := m % 2 ^ k
    if r > 2 ^ (k - 1) ∨ (r = 2 ^ (k - 1) ∧ q % 2 = 1) then q + 1 else q

/-- The value of a format nearest to plus or minus `m` times two to the `e`, ties to even; beyond the format's range, an infinity. -/
def roundFin (f : NumFmt) (neg : Bool) (m : Nat) (e : Int) : Num :=
  if m = 0 then .fin neg 0 0
  else
    let e' := max (e + (bitLen m : Int) - f.p) f.emin
    if e' ≤ e then
      if (bitLen m : Int) + e > f.top then .inf neg else .fin neg m e
    else
      let m' := roundShift m (e' - e).toNat
      if (bitLen m' : Int) + e' > f.top then .inf neg else .fin neg m' e'

/-- A value rounded to a format. -/
def Num.round (f : NumFmt) : Num → Num
  | .nan => .nan
  | .inf s => .inf s
  | .fin s m e => roundFin f s m e

/-- A value with a result below the least normal number replaced by a zero of its sign. -/
def Num.flush (f : NumFmt) : Num → Num
  | .fin s m e => if (bitLen m : Int) + e < f.emin + f.p then .fin s 0 0 else .fin s m e
  | x => x

/-- The value that a bit pattern of a format with `w` exponent bits names. -/
def numOfBits (f : NumFmt) (w : Nat) (b : Nat) : Num :=
  let frac := bitsOf b 0 (f.p - 1)
  let ex := bitsOf b (f.p - 1) w
  let neg := bitOf b (f.p - 1 + w)
  if ex = 2 ^ w - 1 then (if frac = 0 then .inf neg else .nan)
  else if ex = 0 then .fin neg frac f.emin
  else .fin neg (2 ^ (f.p - 1) + frac) (f.emin + ex - 1)

/-- The bit pattern of a value in a format with `w` exponent bits, rounded to it first; a NaN is the quiet NaN with no payload. -/
def bitsOfNum (f : NumFmt) (w : Nat) (x : Num) : Nat :=
  let sg := fun (s : Bool) => (if s then 2 ^ (f.p - 1 + w) else 0)
  match x.round f with
  | .nan => (2 ^ w - 1) * 2 ^ (f.p - 1) + 2 ^ (f.p - 2)
  | .inf s => sg s + (2 ^ w - 1) * 2 ^ (f.p - 1)
  | .fin s m e =>
    if m = 0 then sg s
    else
      let e' := max (e + (bitLen m : Int) - f.p) f.emin
      let m' := if e' ≤ e then m * 2 ^ (e - e').toNat else m / 2 ^ (e' - e).toNat
      if m' < 2 ^ (f.p - 1) then sg s + m'
      else sg s + ((e' - f.emin).toNat + 1) * 2 ^ (f.p - 1) + (m' - 2 ^ (f.p - 1))

/-- The value of a binary32 pattern. -/
def num32 (b : Nat) : Num := numOfBits fmt32 8 b

/-- The value of a binary64 pattern. -/
def num64 (b : Nat) : Num := numOfBits fmt64 11 b

/-- The binary32 pattern nearest to a value. -/
def bits32 (x : Num) : Nat := bitsOfNum fmt32 8 x

/-- The binary64 pattern nearest to a value. -/
def bits64 (x : Num) : Nat := bitsOfNum fmt64 11 x

/-- The quiet NaN of binary32. -/
def nan32 : Nat := 0x7FC00000

/-- An integer as an exact value. -/
def numInt (i : Int) : Num := .fin (decide (i < 0)) i.natAbs 0

/-- A natural as an exact value. -/
def numNat (n : Nat) : Num := .fin false n 0

/-- Zero. -/
def Num.zero : Num := .fin false 0 0

/-- One. -/
def Num.one : Num := .fin false 1 0

/-- The value is neither a NaN nor an infinity. -/
def Num.isFinite : Num → Bool
  | .fin _ _ _ => true
  | _ => false

/-- The value is a NaN. -/
def Num.isNan : Num → Bool
  | .nan => true
  | _ => false

/-- The value with its sign changed. -/
def Num.neg : Num → Num
  | .nan => .nan
  | .inf s => .inf (!s)
  | .fin s m e => .fin (!s) m e

/-- The absolute value. -/
def Num.abs : Num → Num
  | .nan => .nan
  | .inf _ => .inf false
  | .fin _ m e => .fin false m e

/-- The signed significand of a finite value at the exponent `e0`, which is at most its own. -/
def sigAt (s : Bool) (m : Nat) (e e0 : Int) : Int :=
  (if s then -1 else 1) * ((m * 2 ^ (e - e0).toNat : Nat) : Int)

/-- The exact sum. -/
def Num.addX (a b : Num) : Num :=
  match a, b with
  | .nan, _ => .nan
  | _, .nan => .nan
  | .inf s, .inf t => if s = t then .inf s else .nan
  | .inf s, _ => .inf s
  | _, .inf t => .inf t
  | .fin s m e, .fin t n g =>
    let e0 := min e g
    let v := sigAt s m e e0 + sigAt t n g e0
    if v = 0 then .fin (s && t) 0 0 else .fin (decide (v < 0)) v.natAbs e0

/-- The exact difference. -/
def Num.subX (a b : Num) : Num := a.addX b.neg

/-- The exact product. -/
def Num.mulX (a b : Num) : Num :=
  match a, b with
  | .nan, _ => .nan
  | _, .nan => .nan
  | .inf s, .inf t => .inf (s != t)
  | .inf s, .fin t n _ => if n = 0 then .nan else .inf (s != t)
  | .fin s m _, .inf t => if m = 0 then .nan else .inf (s != t)
  | .fin s m e, .fin t n g => .fin (s != t) (m * n) (e + g)

/-- The quotient with enough bits, and a sticky bit, that one rounding to binary64 or binary32 is correct. -/
def Num.divX (a b : Num) : Num :=
  match a, b with
  | .nan, _ => .nan
  | _, .nan => .nan
  | .inf _, .inf _ => .nan
  | .inf s, .fin t _ _ => .inf (s != t)
  | .fin s _ _, .inf t => .fin (s != t) 0 0
  | .fin s m e, .fin t n g =>
    if n = 0 then (if m = 0 then .nan else .inf (s != t))
    else
      let k := 60 + bitLen n
      let q := m * 2 ^ k / n
      let r := m * 2 ^ k % n
      .fin (s != t) (2 * q + (if r = 0 then 0 else 1)) (e - g - k - 1)

/-- The square root with enough bits, and a sticky bit, that one rounding is correct; of a negative number, a NaN. -/
def Num.sqrtX : Num → Num
  | .nan => .nan
  | .inf s => if s then .nan else .inf false
  | .fin s m e =>
    if m = 0 then .fin s 0 0
    else if s then .nan
    else
      let k : Nat := 128 + (if e % 2 = 0 then 0 else 1)
      let q := isqrt (m * 2 ^ k)
      .fin false (2 * q + (if q * q = m * 2 ^ k then 0 else 1)) ((e - k) / 2 - 1)

/-- The order of two values as a signed difference of integers at a common exponent; false with a NaN. -/
def Num.lt (a b : Num) : Bool :=
  match a, b with
  | .nan, _ => false
  | _, .nan => false
  | .inf s, .inf t => s && !t
  | .inf s, _ => s
  | _, .inf t => !t
  | .fin s m e, .fin t n g => decide (sigAt s m e (min e g) < sigAt t n g (min e g))

/-- At most. -/
def Num.le (a b : Num) : Bool := !a.isNan && !b.isNan && !b.lt a

/-- Equal as numbers; a NaN equals nothing. -/
def Num.eqv (a b : Num) : Bool := a.le b && b.le a

/-- The value is a zero of either sign. -/
def Num.isZero : Num → Bool
  | .fin _ m _ => m == 0
  | _ => false

/-- The greater of two values. -/
def Num.max (a b : Num) : Num := if a.lt b then b else a

/-- The lesser of two values. -/
def Num.min (a b : Num) : Num := if b.lt a then b else a

/-- Limited between two bounds. -/
def Num.clamp (lo hi x : Num) : Num := (x.max lo).min hi

/-- The sum rounded to binary64. -/
def Num.add (a b : Num) : Num := (a.addX b).round fmt64

/-- The difference rounded to binary64. -/
def Num.sub (a b : Num) : Num := (a.subX b).round fmt64

/-- The product rounded to binary64. -/
def Num.mul (a b : Num) : Num := (a.mulX b).round fmt64

/-- The quotient rounded to binary64. -/
def Num.div (a b : Num) : Num := (a.divX b).round fmt64

/-- The square root rounded to binary64. -/
def Num.sqrt (a : Num) : Num := a.sqrtX.round fmt64

/-- The greatest integer at most a finite value; 0 for the others. -/
def Num.floor : Num → Int
  | .fin s m e => if 0 ≤ e then sigAt s m e 0 else (if s then -1 else 1) * (m : Int) / (2 ^ (-e).toNat : Nat)
  | _ => 0

/-- The least integer at least a finite value. -/
def Num.ceil (x : Num) : Int := -(x.neg.floor)

/-- The integer part of a finite value, toward zero. -/
def Num.trunc : Num → Int
  | .fin s m e => if s then -(Num.fin false m e).floor else (Num.fin false m e).floor
  | _ => 0

/-- The nearest integer to a finite value, ties to even. -/
def Num.nearest : Num → Int
  | .fin s m e =>
    let v : Nat := if 0 ≤ e then m * 2 ^ e.toNat else roundShift m (-e).toNat
    if s then -(v : Int) else v
  | _ => 0

/-- The exact value of a rational `a / b` as a binary64 number. -/
def numRat (a : Int) (b : Nat) : Num := (numInt a).div (numNat b)

/-- A value scaled by a power of two, exactly. -/
def Num.scale2 (k : Int) : Num → Num
  | .fin s m e => .fin s m (e + k)
  | x => x

end Sys2Proof.Machine
end

