-- ==== Sys2Proof/Config.lean ====
section
/-! DEFINITION. What the spec leaves open: values that a standard outside the spec, or an implementation, fixes.
Each is a constant with no body, so that nothing can be proved of its value (assumption log). -/

namespace Sys2Proof

/-- The frequency estimate of a PTP servo, 2⁻⁸ ppb, from its last offset estimates (R62; the servo is not in the spec). DESIGN CHOICE, safe: a free
value (assumption 12). -/
opaque Config.ptpFreq : List Int → Int

/-- The frequency estimate of PPS, 2⁻⁸ ppb, from its last offsets, newest first (R56; the spec gives it no law). DESIGN CHOICE, safe: a free value
(assumption 12). -/
opaque Config.ppsFreq : List Int → Int

/-- The estimate that a hub has of the other hub's frequency, 2⁻⁸ ppb, from the offsets of its last exchanges with the holder, newest first (R86,
R56). DESIGN CHOICE, safe: a free value (assumption 12). -/
opaque Config.twinFreq : List Int → Int

/-- The magnitude of the hub's phase term, 2⁻⁸ ppb, for an offset in 2⁻¹⁶ ns, before the limit of R56. DESIGN CHOICE, safe: a free value (assumption
12). -/
opaque Config.phaseTerm : Int → Nat

/-- A fresh random byte string of the security island, by the model's count of free values (R550). DESIGN CHOICE, safe: a free value (assumption 25).
-/
opaque Config.random : Nat → Bytes

/-- AES-256-GMAC: key, nonce and data give 16 bytes (R563). DESIGN CHOICE, safe: a free value (assumption 25). -/
opaque Config.gmac : Bytes → Bytes → Bytes → Bytes

/-- AES-256-GCM: key, IV, additional data and plaintext give the ciphertext with its tag behind it. DESIGN CHOICE, safe: a free value (assumption
25). -/
opaque Config.gcmSeal : Bytes → Bytes → Bytes → Bytes → Bytes

/-- AES-256-GCM: key, IV, additional data and ciphertext with its tag give the plaintext when the tag verifies. DESIGN CHOICE, safe: a free value
(assumption 25). -/
opaque Config.gcmOpen : Bytes → Bytes → Bytes → Bytes → Option Bytes

/-- A key wrapped with AES-256-GCM under the key derived from the PUF (R551, R556); the key and the IV are the device's own. DESIGN CHOICE, safe: a
free value (assumption 25). -/
opaque Config.pufWrap : Bytes → Bytes

/-- A key under the PUF key unwrapped, where that succeeds (R551). DESIGN CHOICE, safe: a free value (assumption 25). -/
opaque Config.pufOpen : Bytes → Option Bytes

/-- SHA-384 (R552). DESIGN CHOICE, safe: a free value (assumption 25). -/
opaque Config.sha384 : Bytes → Bytes

/-- HKDF-SHA-384: input key, salt, info and length (R556, R567). DESIGN CHOICE, safe: a free value (assumption 25). -/
opaque Config.hkdf : Bytes → Bytes → Bytes → Nat → Bytes

/-- The P-384 public key of a private key, uncompressed, and the compressed form of a public key. DESIGN CHOICE, safe: a free value (assumption 25).
-/
opaque Config.publicKey : Bytes → Bytes

/-- The compressed form of a P-384 public key. DESIGN CHOICE, safe: a free value (assumption 25). -/
opaque Config.compress : Bytes → Bytes

/-- The uncompressed form of a compressed P-384 public key. DESIGN CHOICE, safe: a free value (assumption 25). -/
opaque Config.expand : Bytes → Bytes

/-- The ECDH of a private and a public P-384 key, in either form of the latter. DESIGN CHOICE, safe: a free value (assumption 25). -/
opaque Config.ecdh : Bytes → Bytes → Bytes

/-- The ECDSA P-384 signature r ‖ s of a private key over a message. DESIGN CHOICE, safe: a free value (assumption 25). -/
opaque Config.sign : Bytes → Bytes → Bytes

/-- An ECDSA P-384 signature verifies: public key in either form, message, signature. DESIGN CHOICE, safe: a free value (assumption 25). -/
opaque Config.verify : Bytes → Bytes → Bytes → Bool

/-- The 24-bit code that a generation-1 hoist's 16-bit V_MEAN or V_END stands for, and the reverse: the spec gives the
fields' widths and no scaling (Table 3-15). DESIGN CHOICE, safe: a free value (assumption 141). -/
opaque Config.legacyCode : Nat → Nat

/-- The 16-bit V_MEAN or V_END of a generation-1 hoist for a 24-bit code. DESIGN CHOICE, safe: a free value (assumption 141). -/
opaque Config.legacyVolt : Nat → Nat

/-- What a generation-1 uplink, which has no BS_GF0 and BS_GF1, reads as there. DESIGN CHOICE, safe: a free value (assumption 141). -/
opaque Config.legacyBs : Nat

/-- The trunk records of a lead: branch, arm group, the signals of the two reference points and of the arm current. The spec
says that the lead's Chart writes them (R44) and names no register that assigns the signals. DESIGN CHOICE, safe: a free value (assumption 140). -/
opaque Config.trunkRecords : List (Nat × Nat × Nat × Nat × Nat)

/-- A 16-bit field of a PMU data frame whose value lies outside the field's format: the spec states none. DESIGN CHOICE, safe: a free value
(assumption 71). -/
opaque Config.pmuInt : Nat → Nat

/-- Fields of the IPv4 headers that the device sends and the spec gives no value: 0 type of service, 1 identification, 2 flags and fragment
offset, 3 time to live. DESIGN CHOICE, safe: a free value (assumption 71). -/
opaque Config.ipFill : Nat → Nat

/-- The twin key that the pair agrees at an entry to JOINING: it rests on the ephemeral keys of both hubs (R567, R569). DESIGN CHOICE, safe: a free
value (assumption 73). -/
opaque Config.twinKey : Nat → Bytes

/-- Bytes of the carried part that the axis, Traverse and group state take (R515, R516): the spec states no size. DESIGN CHOICE, safe: a free value
(assumption 77). -/
opaque Config.carriedFixed : Nat

/-- V_avg, V_max and V_min of a group without an available cell, as binary32 bits: the spec states no mean or extreme of no cells (R158). DESIGN
CHOICE, safe: a free value (assumption 119). -/
opaque Config.noCellFigure : Nat → Nat

/-- TRI_RES.DT of a time difference that 32 bits of 0.5 ns do not hold: the spec states none. DESIGN CHOICE, safe: a free value (assumption 81). -/
opaque Config.triDt : Int → Nat

/-- The integrity value of a PTP message under a key and an algorithm, 1 AES-256-GMAC-128 or 2 HMAC-SHA-256-128, over the bytes it
covers: IEEE 1588-2019 Annex P gives the input and the nonce (R576). DESIGN CHOICE, safe: a free value (assumption 86). -/
opaque Config.ptpMac : Nat → Bytes → Bytes → Bytes

/-- The untagged Pdelay_Resp frame, one-step or two-step, of a port, engine and sequence number, for a request received and an answer sent at
the Meridian instants given: IEEE 1588 gives its bytes (R62). DESIGN CHOICE, safe: a free value (assumption 86). -/
opaque Config.pdelayResp : Bool → Nat → Nat → Nat → Int → Int → Bytes

/-- The untagged Pdelay_Resp_Follow_Up frame of a port, engine and sequence number, for an answer sent at the Meridian instant given (R62). DESIGN
CHOICE, safe: a free value (assumption 86). -/
opaque Config.pdelayFollow : Nat → Nat → Nat → Int → Bytes

/-- A byte of an SRAM word that holds a double-bit error, by the count of free values and its offset: the spec marks the word invalid and
states no value (R24). DESIGN CHOICE, safe: a free value (assumption 153). -/
opaque Config.badByte : Nat → Nat → BitVec 8

/-- The state of a port's Clause 49 scrambler, 58 bits, when the start block of a hoist enters it: port and launch instant. It rests on every
bit sent before (R90). DESIGN CHOICE, safe: a free value (assumption 156). -/
opaque Config.lineSeed : Nat → Nat → Nat

/-- The bytes of the start block (0) and of the end block (1) of a hoist beside its type and its start code (R92). DESIGN CHOICE, safe: a free value
(assumption 156). -/
opaque Config.delimFill : Nat → Bytes

/-- The 10-bit symbols of a generation-1 hoist on the line, by port and launch instant: the spec names the 8b/10b code and neither its delimiters
nor the disparity that it starts with (R90). DESIGN CHOICE, safe: a free value (assumption 156). -/
opaque Config.code8b10b : Nat → Nat → Bytes → List Nat

/-- The 32 bytes of an entry of a port ring: kind, its two numbers, status and data. The spec gives the entries no layout (R27). DESIGN CHOICE, safe:
a free value (assumption 139). -/
opaque Config.prtEntry : Nat → Nat → Nat → Nat → Bytes → Bytes

/-- The mode that the lead writes into a downlink trunk record, by branch, arm group and SEQ: the spec does not say where the lead takes it from
(Table 3-13). DESIGN CHOICE, safe: a free value (assumption 140). -/
opaque Config.trunkMode : Nat → Nat → Nat → Nat

/-- What a downlink trunk record carries for a signal that is not usable, by branch, arm group, SEQ and value (R44). DESIGN CHOICE, safe: a free value
(assumption 140). -/
opaque Config.trunkNoPoint : Nat → Nat → Nat → Nat → Nat

/-- The number of the hub port that launches the hoists of a direction on a cell's ring, by unit and direction: no pennant carries it (R117).
DESIGN CHOICE, safe: a free value (assumption 157). -/
opaque Config.hubPort : Nat → Nat → Nat

end Sys2Proof
end

