-- ==== Sys2Proof/Machine/RegField.lean ====
section
/-! DEFINITION. What a register field is (R11, Table 0-4): where it stands, its type and its reset value. -/

namespace Sys2Proof.Machine

/-- The field types of Table 0-4. -/
inductive FieldTy where
  | rw | ro | wo | w1c | w1s | rc | rwl
  deriving DecidableEq, Repr

/-- A field of a register, or of an array of registers: the first page of its block, the offset of its word in the page,
its lowest bit and width, its type and reset value, and for an array the count and the byte stride. -/
structure RegField where
  page   : Nat
  ofs    : Nat
  lo     : Nat
  width  : Nat
  ty     : FieldTy
  reset  : Nat
  cnt    : Nat
  stride : Nat
  deriving DecidableEq, Repr

/-- The key of field `f` of position `idx` of page instance `pg`: page, offset and low bit in one number. -/
def RegField.key (f : RegField) (pg idx : Nat) : Nat :=
  (f.page + pg) * 131072 + (f.ofs + f.stride * idx) * 32 + f.lo

end Sys2Proof.Machine
end

