-- ==== Sys2Proof/Machine/RegTab.lean ====
section
/-! DEFINITION. The register tables of the spec, one field a definition: block namespace, then register and field
name as the table spells them; page, offset, low bit, width, type (Table 0-4), reset value, count and stride of an array
of registers. Reset values that depend on the strap, the role or the position in the array are in `resetOverride`. -/

namespace Sys2Proof.Machine

namespace PG

/-- Header VERSION (+0x000, 7:0) -/
def VERSION : RegField := ⟨0x00, 0x000, 0, 8, .ro, 1, 256, 0⟩
/-- Header INSTANCE (+0x000, 15:8) -/
def INSTANCE : RegField := ⟨0x00, 0x000, 8, 8, .ro, 0, 256, 0⟩
/-- Header BLOCK (+0x000, 31:16) -/
def BLOCK : RegField := ⟨0x00, 0x000, 16, 16, .ro, 0, 256, 0⟩
/-- Header EVT_N (+0x004, 7:0) -/
def EVT_N : RegField := ⟨0x00, 0x004, 0, 8, .ro, 0, 256, 0⟩
/-- Header LOCKABLE (+0x004, 8) -/
def LOCKABLE : RegField := ⟨0x00, 0x004, 8, 1, .ro, 0, 256, 0⟩
/-- Header CELL (+0x004, 9) -/
def CELL : RegField := ⟨0x00, 0x004, 9, 1, .ro, 0, 256, 0⟩
/-- Header ENABLE (+0x008, 0) -/
def ENABLE : RegField := ⟨0x00, 0x008, 0, 1, .rw, 0, 256, 0⟩
/-- Header SOFT_RESET (+0x008, 1) -/
def SOFT_RESET : RegField := ⟨0x00, 0x008, 1, 1, .wo, 0, 256, 0⟩
/-- Header FREEZE (+0x008, 2) -/
def FREEZE : RegField := ⟨0x00, 0x008, 2, 1, .rw, 0, 256, 0⟩
/-- Header COMPAT (+0x008, 4) -/
def COMPAT : RegField := ⟨0x00, 0x008, 4, 1, .ro, 0, 256, 0⟩
/-- Header ENABLED (+0x00C, 0) -/
def ENABLED : RegField := ⟨0x00, 0x00C, 0, 1, .ro, 0, 256, 0⟩
/-- Header ACTIVE (+0x00C, 1) -/
def ACTIVE : RegField := ⟨0x00, 0x00C, 1, 1, .ro, 0, 256, 0⟩
/-- Header LOCKED (+0x00C, 2) -/
def LOCKED : RegField := ⟨0x00, 0x00C, 2, 1, .ro, 0, 256, 0⟩
/-- Header BUSY (+0x00C, 3) -/
def BUSY : RegField := ⟨0x00, 0x00C, 3, 1, .ro, 0, 256, 0⟩
/-- Header EVT_RAW (+0x010, 31:0) -/
def EVT_RAW : RegField := ⟨0x00, 0x010, 0, 32, .w1c, 0, 256, 0⟩
/-- Header EVT_EN (+0x014, 31:0) -/
def EVT_EN : RegField := ⟨0x00, 0x014, 0, 32, .rw, 0, 256, 0⟩
/-- Header EVT_PEND (+0x018, 31:0) -/
def EVT_PEND : RegField := ⟨0x00, 0x018, 0, 32, .w1c, 0, 256, 0⟩
/-- Header EVT_FORCE (+0x01C, 31:0) -/
def EVT_FORCE : RegField := ⟨0x00, 0x01C, 0, 32, .w1s, 0, 256, 0⟩
/-- Header LOCK_KEY (+0x020, 15:0) -/
def LOCK_KEY : RegField := ⟨0x00, 0x020, 0, 16, .wo, 0, 256, 0⟩
/-- Header ERR_OFFSET (+0x024, 11:0) -/
def ERR_OFFSET : RegField := ⟨0x00, 0x024, 0, 12, .rc, 0, 256, 0⟩
/-- Header ERR_CODE (+0x024, 15:12) -/
def ERR_CODE : RegField := ⟨0x00, 0x024, 12, 4, .rc, 0, 256, 0⟩
/-- Header ERR_COUNT (+0x024, 23:16) -/
def ERR_COUNT : RegField := ⟨0x00, 0x024, 16, 8, .rc, 0, 256, 0⟩

/-- Fields of PG, part 1. -/
def fields1 : List RegField :=
  [VERSION, INSTANCE, BLOCK, EVT_N, LOCKABLE, CELL, ENABLE, SOFT_RESET, FREEZE, COMPAT, ENABLED, ACTIVE, LOCKED, BUSY, EVT_RAW, EVT_EN, EVT_PEND, EVT_FORCE, LOCK_KEY, ERR_OFFSET, ERR_CODE, ERR_COUNT]
/-- The fields of PG in the order of its tables. -/
def fields : List RegField := fields1

end PG

namespace SYS

/-- DEV PART (+0x040, 15:0): Part number -/
def DEV_PART : RegField := ⟨0x00, 0x040, 0, 16, .ro, 0x4800, 1, 0⟩
/-- DEV STEP (+0x040, 23:16): Stepping -/
def DEV_STEP : RegField := ⟨0x00, 0x040, 16, 8, .ro, 0xB0, 1, 0⟩
/-- STRAP ROLE (+0x044, 1:0): R635 -/
def STRAP_ROLE : RegField := ⟨0x00, 0x044, 0, 2, .ro, 0, 1, 0⟩
/-- STRAP UNIT (+0x044, 2) -/
def STRAP_UNIT : RegField := ⟨0x00, 0x044, 2, 1, .ro, 0, 1, 0⟩
/-- STRAP LGCY (+0x044, 3) -/
def STRAP_LGCY : RegField := ⟨0x00, 0x044, 3, 1, .ro, 0, 1, 0⟩
/-- STRAP LOCKSEL (+0x044, 4) -/
def STRAP_LOCKSEL : RegField := ⟨0x00, 0x044, 4, 1, .ro, 0, 1, 0⟩
/-- STRAP BOOTSRC (+0x044, 6:5) -/
def STRAP_BOOTSRC : RegField := ⟨0x00, 0x044, 5, 2, .ro, 0, 1, 0⟩
/-- BOOT STATE (+0x048, 2:0): 0b000 ROM, 0b001 loading, 0b010 checking, 0b011 applying, 0b100 running, 0b101 failed, 0b110 waiting for host -/
def BOOT_STATE : RegField := ⟨0x00, 0x048, 0, 3, .ro, 0, 1, 0⟩
/-- BOOT SRC (+0x048, 4:3): 0b00 slot A, 0b01 slot B, 0b10 host -/
def BOOT_SRC : RegField := ⟨0x00, 0x048, 3, 2, .ro, 0, 1, 0⟩
/-- BOOT RES_A (+0x048, 15:8): Table 16-3 status of slot A -/
def BOOT_RES_A : RegField := ⟨0x00, 0x048, 8, 8, .ro, 0, 1, 0⟩
/-- BOOT RES_B (+0x048, 23:16): Slot B -/
def BOOT_RES_B : RegField := ⟨0x00, 0x048, 16, 8, .ro, 0, 1, 0⟩
/-- BOOT RES_HOST (+0x048, 31:24): Host image -/
def BOOT_RES_HOST : RegField := ⟨0x00, 0x048, 24, 8, .ro, 0, 1, 0⟩
/-- BOOT2 REC_ERR (+0x04C, 15:0): R637, saturating -/
def BOOT2_REC_ERR : RegField := ⟨0x00, 0x04C, 0, 16, .rc, 0, 1, 0⟩
/-- BOOT2 SVN (+0x04C, 23:16): SVN of the running image -/
def BOOT2_SVN : RegField := ⟨0x00, 0x04C, 16, 8, .ro, 0, 1, 0⟩
/-- RESET KEY (+0x050, 31:0): 0x0000_5253: reset as RST_N low (R598) -/
def RESET_KEY : RegField := ⟨0x00, 0x050, 0, 32, .wo, 0, 1, 0⟩
/-- SRAM_ERR ADDR (+0x054, 23:3): 64-bit word of the last SRAM_DED (R24) -/
def SRAM_ERR_ADDR : RegField := ⟨0x00, 0x054, 3, 21, .ro, 0, 1, 0⟩
/-- CNT SRAM_SEC (+0x058, 15:0): R23, saturating -/
def CNT_SRAM_SEC : RegField := ⟨0x00, 0x058, 0, 16, .rc, 0, 1, 0⟩
/-- CNT SRAM_DED (+0x058, 23:16): R24, saturating -/
def CNT_SRAM_DED : RegField := ⟨0x00, 0x058, 16, 8, .rc, 0, 1, 0⟩
/-- CNT REG_PARITY (+0x058, 31:24): Saturating -/
def CNT_REG_PARITY : RegField := ⟨0x00, 0x058, 24, 8, .rc, 0, 1, 0⟩
/-- DIAG PLOT_BIST (+0x05C, 15:0): Plotters that failed a self-test pass -/
def DIAG_PLOT_BIST : RegField := ⟨0x00, 0x05C, 0, 16, .w1c, 0, 1, 0⟩
/-- DIAG BUILD_ERR (+0x05C, 23:16): Table 14-5, saturating -/
def DIAG_BUILD_ERR : RegField := ⟨0x00, 0x05C, 16, 8, .rc, 0, 1, 0⟩

/-- Fields of SYS, part 1. -/
def fields1 : List RegField :=
  [DEV_PART, DEV_STEP, STRAP_ROLE, STRAP_UNIT, STRAP_LGCY, STRAP_LOCKSEL, STRAP_BOOTSRC, BOOT_STATE, BOOT_SRC, BOOT_RES_A, BOOT_RES_B, BOOT_RES_HOST, BOOT2_REC_ERR, BOOT2_SVN, RESET_KEY, SRAM_ERR_ADDR, CNT_SRAM_SEC, CNT_SRAM_DED, CNT_REG_PARITY, DIAG_PLOT_BIST, DIAG_BUILD_ERR]
/-- The fields of SYS in the order of its tables. -/
def fields : List RegField := fields1

end SYS

namespace PWR

/-- DORMANT KEY (+0x044, 15:0): 0x00D0 requests the dormant state (R610) -/
def DORMANT_KEY : RegField := ⟨0x01, 0x044, 0, 16, .wo, 0, 1, 0⟩
/-- STAT WAKE_CAUSE (+0x048, 1:0): 0b00 cold, 0b01 WAKE pin, 0b10 wake comparator, 0b11 RST_N while VDDAO held -/
def STAT_WAKE_CAUSE : RegField := ⟨0x01, 0x048, 0, 2, .ro, 0, 1, 0⟩
/-- STAT BUDGET_OVER (+0x048, 2): R608 -/
def STAT_BUDGET_OVER : RegField := ⟨0x01, 0x048, 2, 1, .ro, 0, 1, 0⟩
/-- STAT GRANTED (+0x048, 31:16): Floors and grants in force, 10 mA units -/
def STAT_GRANTED : RegField := ⟨0x01, 0x048, 16, 16, .ro, 0, 1, 0⟩
/-- BUDGET BUDGET (+0x04C, 15:0): 10 mA units; reset 10.00 A and 400 mA (R603, R609) -/
def BUDGET : RegField := ⟨0x01, 0x04C, 0, 16, .rwl, 0x3E8, 1, 0⟩
/-- BUDGET FLOORS (+0x04C, 31:16): Floors reserved, 10 mA units -/
def BUDGET_FLOORS : RegField := ⟨0x01, 0x04C, 16, 16, .ro, 0, 1, 0⟩
/-- IDLE IDLE (+0x050, 15:0): Release delay, 10 ns units; reset 10 µs; 0 stored as 1 (R607) -/
def IDLE : RegField := ⟨0x01, 0x050, 0, 16, .rw, 0x3E8, 1, 0⟩
/-- WAKE WAKE_EN (+0x054, 0): R613 -/
def WAKE_WAKE_EN : RegField := ⟨0x01, 0x054, 0, 1, .rw, 1, 1, 0⟩
/-- WAKE WAKE_POL (+0x054, 1): 0 rising, 1 falling -/
def WAKE_WAKE_POL : RegField := ⟨0x01, 0x054, 1, 1, .rw, 0, 1, 0⟩
/-- WAKE CMP_EN (+0x054, 2): R613 -/
def WAKE_CMP_EN : RegField := ⟨0x01, 0x054, 2, 1, .rw, 0, 1, 0⟩
/-- WAKE CMP_EDGE (+0x054, 3): 0 rising, 1 falling -/
def WAKE_CMP_EDGE : RegField := ⟨0x01, 0x054, 3, 1, .rw, 0, 1, 0⟩
/-- WAKE CMP_THR (+0x054, 7:4): Threshold 0.10 V × (value + 1) -/
def WAKE_CMP_THR : RegField := ⟨0x01, 0x054, 4, 4, .rw, 0, 1, 0⟩
/-- CNT BUDGET_WAIT (+0x058, 15:0): R605, saturating -/
def CNT_BUDGET_WAIT : RegField := ⟨0x01, 0x058, 0, 16, .rc, 0, 1, 0⟩
/-- CNT FLOOR_REFUSED (+0x058, 23:16): R604, saturating -/
def CNT_FLOOR_REFUSED : RegField := ⟨0x01, 0x058, 16, 8, .rc, 0, 1, 0⟩
/-- ISL STATE (+0x080, 1:0): 0b00 OFF, 0b01 RETAIN, 0b10 ACTIVE, 0b11 waiting for a grant -/
def ISL_STATE : RegField := ⟨0x01, 0x080, 0, 2, .ro, 0, 34, 4⟩
/-- ISL FLOOR (+0x080, 2): Floor reserved -/
def ISL_FLOOR : RegField := ⟨0x01, 0x080, 2, 1, .ro, 0, 34, 4⟩
/-- ISL PRIO (+0x080, 3): Request is priority (R605) -/
def ISL_PRIO : RegField := ⟨0x01, 0x080, 3, 1, .ro, 0, 34, 4⟩
/-- ISL DEMAND (+0x080, 15:4): Present demand, 10 mA units; 0 for islands 0 and 2 -/
def ISL_DEMAND : RegField := ⟨0x01, 0x080, 4, 12, .ro, 0, 34, 4⟩
/-- SCRATCH DATA (+0x200, 31:0): Retained scratch (R615) -/
def SCRATCH_DATA : RegField := ⟨0x01, 0x200, 0, 32, .rw, 0, 64, 4⟩

/-- Fields of PWR, part 1. -/
def fields1 : List RegField :=
  [DORMANT_KEY, STAT_WAKE_CAUSE, STAT_BUDGET_OVER, STAT_GRANTED, BUDGET, BUDGET_FLOORS, IDLE, WAKE_WAKE_EN, WAKE_WAKE_POL, WAKE_CMP_EN, WAKE_CMP_EDGE, WAKE_CMP_THR, CNT_BUDGET_WAIT, CNT_FLOOR_REFUSED, ISL_STATE, ISL_FLOOR, ISL_PRIO, ISL_DEMAND, SCRATCH_DATA]
/-- The fields of PWR in the order of its tables. -/
def fields : List RegField := fields1

end PWR

namespace CLK

/-- CTL LOCKSEL (+0x040, 0): R589, R590 -/
def CTL_LOCKSEL : RegField := ⟨0x02, 0x040, 0, 1, .ro, 0, 1, 0⟩
/-- STAT PLL_LOCK (+0x044, 0): Main PLL locked -/
def STAT_PLL_LOCK : RegField := ⟨0x02, 0x044, 0, 1, .ro, 0, 1, 0⟩
/-- STAT REF_OK (+0x044, 1): R581 -/
def STAT_REF_OK : RegField := ⟨0x02, 0x044, 1, 1, .ro, 0, 1, 0⟩
/-- STAT MSYN_LOCK (+0x044, 2): R592 -/
def STAT_MSYN_LOCK : RegField := ⟨0x02, 0x044, 2, 1, .ro, 0, 1, 0⟩
/-- STAT SERDES_LOCK (+0x044, 15:4): One bit per quad, BQ0 to BQ11 (R593) -/
def STAT_SERDES_LOCK : RegField := ⟨0x02, 0x044, 4, 12, .ro, 0, 1, 0⟩
/-- STAT ETH_LOCK (+0x044, 16): Ethernet SerDes PLL -/
def STAT_ETH_LOCK : RegField := ⟨0x02, 0x044, 16, 1, .ro, 0, 1, 0⟩
/-- LOCK_T LOCK_US (+0x048, 15:0): Start to first lock of the main PLL, µs -/
def LOCK_T_LOCK_US : RegField := ⟨0x02, 0x048, 0, 16, .ro, 0, 1, 0⟩
/-- CNT UNLOCKS (+0x04C, 7:0): PLL_UNLOCK, saturating -/
def CNT_UNLOCKS : RegField := ⟨0x02, 0x04C, 0, 8, .rc, 0, 1, 0⟩
/-- CNT REF_LOSSES (+0x04C, 15:8): REF_LOST, saturating -/
def CNT_REF_LOSSES : RegField := ⟨0x02, 0x04C, 8, 8, .rc, 0, 1, 0⟩
/-- CNT MSYN_UNLOCKS (+0x04C, 23:16): MSYN_UNLOCK, saturating -/
def CNT_MSYN_UNLOCKS : RegField := ⟨0x02, 0x04C, 16, 8, .rc, 0, 1, 0⟩
/-- CNT SERDES_UNLOCKS (+0x04C, 31:24): SERDES_UNLOCK, saturating -/
def CNT_SERDES_UNLOCKS : RegField := ⟨0x02, 0x04C, 24, 8, .rc, 0, 1, 0⟩
/-- OUT DIV (+0x060, 7:0): VCO divisor; values below the reset value stored as the reset value (R583, R585) -/
def OUT_DIV : RegField := ⟨0x02, 0x060, 0, 8, .rw, 0, 8, 4⟩
/-- OUT DELAY (+0x060, 13:8): 0.25 ns units, 0 to 63: 0 to 15.75 ns (R584) -/
def OUT_DELAY : RegField := ⟨0x02, 0x060, 8, 6, .rw, 0, 8, 4⟩
/-- OUT EN (+0x060, 16): Output enabled (R585) -/
def OUT_EN : RegField := ⟨0x02, 0x060, 16, 1, .rw, 1, 8, 4⟩
/-- OUT SSC_EN (+0x060, 17): R586, R587 -/
def OUT_SSC_EN : RegField := ⟨0x02, 0x060, 17, 1, .rw, 0, 8, 4⟩
/-- OUT SSC_CENTRE (+0x060, 18): 0 down spread, 1 centre spread -/
def OUT_SSC_CENTRE : RegField := ⟨0x02, 0x060, 18, 1, .rw, 0, 8, 4⟩
/-- OUT SSC_DEPTH (+0x060, 21:19): d = 0.25 % × (value + 1) -/
def OUT_SSC_DEPTH : RegField := ⟨0x02, 0x060, 19, 3, .rw, 0, 8, 4⟩

/-- Fields of CLK, part 1. -/
def fields1 : List RegField :=
  [CTL_LOCKSEL, STAT_PLL_LOCK, STAT_REF_OK, STAT_MSYN_LOCK, STAT_SERDES_LOCK, STAT_ETH_LOCK, LOCK_T_LOCK_US, CNT_UNLOCKS, CNT_REF_LOSSES, CNT_MSYN_UNLOCKS, CNT_SERDES_UNLOCKS, OUT_DIV, OUT_DELAY, OUT_EN, OUT_SSC_EN, OUT_SSC_CENTRE, OUT_SSC_DEPTH]
/-- The fields of CLK in the order of its tables. -/
def fields : List RegField := fields1

end CLK

namespace SUP

/-- WIN LO (+0x048, 15:0) -/
def WIN_LO : RegField := ⟨0x03, 0x048, 0, 16, .rwl, 0x2F8, 4, 4⟩
/-- WIN HI (+0x048, 31:16) -/
def WIN_HI : RegField := ⟨0x03, 0x048, 16, 16, .rwl, 0x348, 4, 4⟩
/-- STAT VDD_OK (+0x044, 0): In window (R600) -/
def STAT_VDD_OK : RegField := ⟨0x03, 0x044, 0, 1, .ro, 0, 1, 0⟩
/-- STAT VDDS_OK (+0x044, 1): As VDD_OK -/
def STAT_VDDS_OK : RegField := ⟨0x03, 0x044, 1, 1, .ro, 0, 1, 0⟩
/-- STAT VDDA_OK (+0x044, 2): As VDD_OK -/
def STAT_VDDA_OK : RegField := ⟨0x03, 0x044, 2, 1, .ro, 0, 1, 0⟩
/-- STAT VDDAO_OK (+0x044, 3): As VDD_OK -/
def STAT_VDDAO_OK : RegField := ⟨0x03, 0x044, 3, 1, .ro, 0, 1, 0⟩
/-- STAT VDDIO_OK (+0x044, 15:8): Per bank -/
def STAT_VDDIO_OK : RegField := ⟨0x03, 0x044, 8, 8, .ro, 0, 1, 0⟩
/-- STAT VDDIO_3V3 (+0x044, 23:16): Per bank: 1 for 3.3 V detected -/
def STAT_VDDIO_3V3 : RegField := ⟨0x03, 0x044, 16, 8, .ro, 0, 1, 0⟩
/-- MEAS0 VDD (+0x058, 15:0): mV, updated every 1 µs -/
def MEAS0_VDD : RegField := ⟨0x03, 0x058, 0, 16, .ro, 0, 1, 0⟩
/-- MEAS0 VDDS (+0x058, 31:16): mV -/
def MEAS0_VDDS : RegField := ⟨0x03, 0x058, 16, 16, .ro, 0, 1, 0⟩
/-- MEAS1 VDDA (+0x05C, 15:0): mV -/
def MEAS1_VDDA : RegField := ⟨0x03, 0x05C, 0, 16, .ro, 0, 1, 0⟩
/-- MEAS1 VDDAO (+0x05C, 31:16): mV -/
def MEAS1_VDDAO : RegField := ⟨0x03, 0x05C, 16, 16, .ro, 0, 1, 0⟩
/-- FILT FILT (+0x060, 7:0): µs; reset 10 µs; 0 stored as 1 (R600) -/
def FILT : RegField := ⟨0x03, 0x060, 0, 8, .rw, 0xA, 1, 0⟩
/-- CNT WARNS (+0x064, 15:0): SUP_WARN, saturating -/
def CNT_WARNS : RegField := ⟨0x03, 0x064, 0, 16, .rc, 0, 1, 0⟩

/-- Fields of SUP, part 1. -/
def fields1 : List RegField :=
  [WIN_LO, WIN_HI, STAT_VDD_OK, STAT_VDDS_OK, STAT_VDDA_OK, STAT_VDDAO_OK, STAT_VDDIO_OK, STAT_VDDIO_3V3, MEAS0_VDD, MEAS0_VDDS, MEAS1_VDDA, MEAS1_VDDAO, FILT, CNT_WARNS]
/-- The fields of SUP in the order of its tables. -/
def fields : List RegField := fields1

end SUP

namespace MER

/-- UPTIME UP_LO (+0x058, 31:0) -/
def UPTIME_UP_LO : RegField := ⟨0x08, 0x058, 0, 32, .ro, 0, 1, 0⟩
/-- UPTIME UP_HI (+0x05C, 31:0) -/
def UPTIME_UP_HI : RegField := ⟨0x08, 0x05C, 0, 32, .ro, 0, 1, 0⟩
/-- PPS_TOD TOD_LO (+0x080, 31:0) -/
def PPS_TOD_TOD_LO : RegField := ⟨0x08, 0x080, 0, 32, .rw, 0, 1, 0⟩
/-- PPS_TOD TOD_HI (+0x084, 15:0) -/
def PPS_TOD_TOD_HI : RegField := ⟨0x08, 0x084, 0, 16, .rw, 0, 1, 0⟩
/-- LAT_W LAT (+0x090, 31:0) -/
def LAT_W_LAT : RegField := ⟨0x08, 0x090, 0, 32, .rw, 0, 1, 0⟩
/-- LAT_E LAT (+0x094, 31:0) -/
def LAT_E_LAT : RegField := ⟨0x08, 0x094, 0, 32, .rw, 0, 1, 0⟩
/-- CTL PREF (+0x040, 0): Domain chosen first when several sources qualify in the same update, and first after a loss of PPS (R63): … -/
def CTL_PREF : RegField := ⟨0x08, 0x040, 0, 1, .rw, 0, 1, 0⟩
/-- CTL PPS_FALLBACK (+0x040, 1): 1: PPS is eligible in addition to the sources of ANCHOR_SRC (R63) -/
def CTL_PPS_FALLBACK : RegField := ⟨0x08, 0x040, 1, 1, .rw, 0, 1, 0⟩
/-- CTL ANCHOR_SRC (+0x040, 3:2): Eligible sources, for anchoring, switching and leaving HOLDOVER (R63): 0b00 PTPA and PTPB, 0b01 PTPA only, … -/
def CTL_ANCHOR_SRC : RegField := ⟨0x08, 0x040, 2, 2, .rw, 0, 1, 0⟩
/-- CTL SWITCH_REQ (+0x040, 4): 1: switch to the other domain (R67) -/
def CTL_SWITCH_REQ : RegField := ⟨0x08, 0x040, 4, 1, .wo, 0, 1, 0⟩
/-- CTL REANCHOR (+0x040, 5): 1: step to the active source (R55) -/
def CTL_REANCHOR : RegField := ⟨0x08, 0x040, 5, 1, .wo, 0, 1, 0⟩
/-- STAT STATE (+0x044, 1:0): 0b00 UNANCHORED, 0b01 LOCKED, 0b10 HOLDOVER; in a cell as R672 states -/
def STAT_STATE : RegField := ⟨0x08, 0x044, 0, 2, .ro, 0, 1, 0⟩
/-- STAT SRC (+0x044, 3:2): Active source: 0b00 PTPA, 0b01 PTPB, 0b10 PPS, 0b11 none -/
def STAT_SRC : RegField := ⟨0x08, 0x044, 2, 2, .ro, 3, 1, 0⟩
/-- STAT OFFSET_LARGE (+0x044, 4): R58 -/
def STAT_OFFSET_LARGE : RegField := ⟨0x08, 0x044, 4, 1, .ro, 0, 1, 0⟩
/-- STAT STEP_PENDING (+0x044, 5): A step awaits its boundary (R59) -/
def STAT_STEP_PENDING : RegField := ⟨0x08, 0x044, 5, 1, .ro, 0, 1, 0⟩
/-- STAT HO_EXCEEDED (+0x044, 6): R77 -/
def STAT_HO_EXCEEDED : RegField := ⟨0x08, 0x044, 6, 1, .ro, 0, 1, 0⟩
/-- STAT TIME_OK (+0x044, 7): Cell only (R83); reads 1 in the hub -/
def STAT_TIME_OK : RegField := ⟨0x08, 0x044, 7, 1, .ro, 0, 1, 0⟩
/-- STAT EPOCH (+0x044, 15:8): Step count, modulo 256 (R61) -/
def STAT_EPOCH : RegField := ⟨0x08, 0x044, 8, 8, .ro, 0, 1, 0⟩
/-- TIME_S_LO S_LO (+0x048, 31:0): Seconds [31:0]; reading latches the snapshot (R89) -/
def TIME_S_LO : RegField := ⟨0x08, 0x048, 0, 32, .ro, 0, 1, 0⟩
/-- TIME_S_HI S_HI (+0x04C, 15:0): Seconds [47:32]; bits 31:16 reserved -/
def TIME_S_HI : RegField := ⟨0x08, 0x04C, 0, 16, .ro, 0, 1, 0⟩
/-- TIME_NS NS (+0x050, 31:0): Nanoseconds -/
def TIME_NS : RegField := ⟨0x08, 0x050, 0, 32, .ro, 0, 1, 0⟩
/-- TIME_FRAC FRAC (+0x054, 15:0): Fraction, 2⁻¹⁶ ns; bits 31:16 reserved -/
def TIME_FRAC : RegField := ⟨0x08, 0x054, 0, 16, .ro, 0, 1, 0⟩
/-- STEP_THR THR_NS (+0x060, 31:0): Step threshold in ns; reset 1 000 ns -/
def STEP_THR_THR_NS : RegField := ⟨0x08, 0x060, 0, 32, .rwl, 0x3E8, 1, 0⟩
/-- SLEW SLEW_PPM (+0x064, 7:0): Phase-term limit, 1 to 200 ppm; 0 and values above 200 are stored as 200 -/
def SLEW_SLEW_PPM : RegField := ⟨0x08, 0x064, 0, 8, .rwl, 0xC8, 1, 0⟩
/-- OFFSET OFFSET (+0x068, 31:0): Signed offset, source minus Meridian, in ns, saturating; cell: last e of R82 -/
def OFFSET : RegField := ⟨0x08, 0x068, 0, 32, .ro, 0, 1, 0⟩
/-- RATE RATE (+0x06C, 31:0): Signed total rate correction, in 2⁻⁸ ppb -/
def RATE : RegField := ⟨0x08, 0x06C, 0, 32, .ro, 0, 1, 0⟩
/-- HO_EST EST_NS (+0x070, 31:0): E(t) in ns; 0 outside HOLDOVER -/
def HO_EST_EST_NS : RegField := ⟨0x08, 0x070, 0, 32, .ro, 0, 1, 0⟩
/-- HO_PAR RATE_UNC (+0x074, 15:0): r in 0.1 ppb; reset 10 ppb -/
def HO_PAR_RATE_UNC : RegField := ⟨0x08, 0x074, 0, 16, .rw, 0x64, 1, 0⟩
/-- HO_PAR AGE (+0x074, 31:16): a in 0.001 ppb/s; reset 0.01 ppb/s -/
def HO_PAR_AGE : RegField := ⟨0x08, 0x074, 16, 16, .rw, 0xA, 1, 0⟩
/-- HO_LIMIT LIMIT_NS (+0x078, 31:0): Holdover limit in ns; reset 1 000 ns -/
def HO_LIMIT_LIMIT_NS : RegField := ⟨0x08, 0x078, 0, 32, .rw, 0x3E8, 1, 0⟩
/-- PPS_CTL IN_EN (+0x07C, 0): Enable PPS_IN -/
def PPS_CTL_IN_EN : RegField := ⟨0x08, 0x07C, 0, 1, .rw, 0, 1, 0⟩
/-- PPS_CTL OUT_EN (+0x07C, 1): Enable PPS_OUT -/
def PPS_CTL_OUT_EN : RegField := ⟨0x08, 0x07C, 1, 1, .rw, 0, 1, 0⟩
/-- PPS_CTL OUT_W (+0x07C, 9:2): PPS_OUT width in µs, 1 to 255; 0 stored as 1 -/
def PPS_CTL_OUT_W : RegField := ⟨0x08, 0x07C, 2, 8, .rw, 0xA, 1, 0⟩
/-- PPS_CTL CABLE_DLY (+0x07C, 31:10): PPS_IN cable delay in 0.25 ns -/
def PPS_CTL_CABLE_DLY : RegField := ⟨0x08, 0x07C, 10, 22, .rw, 0, 1, 0⟩
/-- UTC UTC_OFFSET (+0x088, 15:0): currentUtcOffset from the active domain, in s -/
def UTC_UTC_OFFSET : RegField := ⟨0x08, 0x088, 0, 16, .ro, 0, 1, 0⟩
/-- UTC LEAP61 (+0x088, 16): From the active domain -/
def UTC_LEAP61 : RegField := ⟨0x08, 0x088, 16, 1, .ro, 0, 1, 0⟩
/-- UTC LEAP59 (+0x088, 17): From the active domain -/
def UTC_LEAP59 : RegField := ⟨0x08, 0x088, 17, 1, .ro, 0, 1, 0⟩
/-- UTC VALID (+0x088, 18): currentUtcOffsetValid -/
def UTC_VALID : RegField := ⟨0x08, 0x088, 18, 1, .ro, 0, 1, 0⟩

/-- Fields of MER, part 1. -/
def fields1 : List RegField :=
  [UPTIME_UP_LO, UPTIME_UP_HI, PPS_TOD_TOD_LO, PPS_TOD_TOD_HI, LAT_W_LAT, LAT_E_LAT, CTL_PREF, CTL_PPS_FALLBACK, CTL_ANCHOR_SRC, CTL_SWITCH_REQ, CTL_REANCHOR, STAT_STATE, STAT_SRC, STAT_OFFSET_LARGE, STAT_STEP_PENDING, STAT_HO_EXCEEDED, STAT_TIME_OK, STAT_EPOCH, TIME_S_LO, TIME_S_HI, TIME_NS, TIME_FRAC, STEP_THR_THR_NS, SLEW_SLEW_PPM, OFFSET, RATE, HO_EST_EST_NS, HO_PAR_RATE_UNC, HO_PAR_AGE, HO_LIMIT_LIMIT_NS, PPS_CTL_IN_EN, PPS_CTL_OUT_EN, PPS_CTL_OUT_W, PPS_CTL_CABLE_DLY, UTC_UTC_OFFSET, UTC_LEAP61, UTC_LEAP59, UTC_VALID]
/-- The fields of MER in the order of its tables. -/
def fields : List RegField := fields1

end MER

namespace PTP

/-- GM_ID_LO GM_ID (+0x048, 31:0) -/
def GM_ID_LO_GM_ID : RegField := ⟨0x09, 0x048, 0, 32, .ro, 0, 1, 0⟩
/-- GM_ID_HI GM_ID (+0x04C, 31:0) -/
def GM_ID_HI_GM_ID : RegField := ⟨0x09, 0x04C, 0, 32, .ro, 0, 1, 0⟩
/-- CFG PORT (+0x040, 1:0): Ethernet port, ETH0 to ETH3 -/
def CFG_PORT : RegField := ⟨0x09, 0x040, 0, 2, .rwl, 0, 1, 0⟩
/-- CFG TWO_STEP_RESP (+0x040, 2): 1: two-step Pdelay_Resp -/
def CFG_TWO_STEP_RESP : RegField := ⟨0x09, 0x040, 2, 1, .rwl, 0, 1, 0⟩
/-- CFG AUTH_REQ (+0x040, 3): 1: accept only authenticated messages -/
def CFG_AUTH_REQ : RegField := ⟨0x09, 0x040, 3, 1, .rwl, 0, 1, 0⟩
/-- CFG VLAN_EN (+0x040, 4): 1: expect and send VLAN-tagged frames -/
def CFG_VLAN_EN : RegField := ⟨0x09, 0x040, 4, 1, .rwl, 0, 1, 0⟩
/-- CFG VLAN_PCP (+0x040, 7:5): Priority of sent frames -/
def CFG_VLAN_PCP : RegField := ⟨0x09, 0x040, 5, 3, .rwl, 4, 1, 0⟩
/-- CFG DOMAIN (+0x040, 15:8): domainNumber -/
def CFG_DOMAIN : RegField := ⟨0x09, 0x040, 8, 8, .rwl, 0, 1, 0⟩
/-- CFG VID (+0x040, 27:16): VLAN identifier -/
def CFG_VID : RegField := ⟨0x09, 0x040, 16, 12, .rwl, 0, 1, 0⟩
/-- STAT PORT_STATE (+0x044, 2:0): 0b000 INITIALIZING, 0b001 LISTENING, 0b010 UNCALIBRATED, 0b011 SLAVE, 0b100 FAULTY, 0b101 DISABLED -/
def STAT_PORT_STATE : RegField := ⟨0x09, 0x044, 0, 3, .ro, 0, 1, 0⟩
/-- STAT QUALIFIED (+0x044, 3): R64 -/
def STAT_QUALIFIED : RegField := ⟨0x09, 0x044, 3, 1, .ro, 0, 1, 0⟩
/-- STAT ACTIVE (+0x044, 4): This domain drives the Meridian -/
def STAT_ACTIVE : RegField := ⟨0x09, 0x044, 4, 1, .ro, 0, 1, 0⟩
/-- STAT GM_CLASS (+0x044, 15:8): Grandmaster clockClass -/
def STAT_GM_CLASS : RegField := ⟨0x09, 0x044, 8, 8, .ro, 0xFF, 1, 0⟩
/-- OFFSET OFFSET (+0x050, 31:0): Signed, domain minus Meridian, ns, saturating -/
def OFFSET : RegField := ⟨0x09, 0x050, 0, 32, .ro, 0, 1, 0⟩
/-- FREQ FREQ (+0x054, 31:0): Signed frequency estimate, 2⁻⁸ ppb -/
def FREQ : RegField := ⟨0x09, 0x054, 0, 32, .ro, 0, 1, 0⟩
/-- PDELAY PDELAY (+0x058, 31:0): Mean link delay, 2⁻¹⁶ ns -/
def PDELAY : RegField := ⟨0x09, 0x058, 0, 32, .ro, 0, 1, 0⟩
/-- QUAL SPREAD (+0x060, 11:0): Qualification spread in ns; reset 100 ns -/
def QUAL_SPREAD : RegField := ⟨0x09, 0x060, 0, 12, .rw, 0x64, 1, 0⟩
/-- QUAL CLASS_MAX (+0x060, 19:12): Highest acceptable clockClass; reset 135 -/
def QUAL_CLASS_MAX : RegField := ⟨0x09, 0x060, 12, 8, .rw, 0x87, 1, 0⟩
/-- QUAL AUTH_MAX (+0x060, 23:20): Consecutive authentication failures before loss; 0 stored as 1 -/
def QUAL_AUTH_MAX : RegField := ⟨0x09, 0x060, 20, 4, .rw, 3, 1, 0⟩
/-- LAT RX_CORR (+0x064, 15:0): Signed external receive delay, 2⁻⁸ ns -/
def LAT_RX_CORR : RegField := ⟨0x09, 0x064, 0, 16, .rwl, 0, 1, 0⟩
/-- LAT TX_CORR (+0x064, 31:16): Signed external transmit delay, 2⁻⁸ ns -/
def LAT_TX_CORR : RegField := ⟨0x09, 0x064, 16, 16, .rwl, 0, 1, 0⟩
/-- TINACC GM_TINACC (+0x068, 15:0): grandmasterTimeInaccuracy, ns, saturating -/
def TINACC_GM_TINACC : RegField := ⟨0x09, 0x068, 0, 16, .ro, 0xFFFF, 1, 0⟩
/-- TINACC NET_TINACC (+0x068, 31:16): networkTimeInaccuracy, ns, saturating -/
def TINACC_NET_TINACC : RegField := ⟨0x09, 0x068, 16, 16, .ro, 0xFFFF, 1, 0⟩
/-- CNT SYNC_MISS (+0x06C, 7:0): Missing Sync messages, saturating -/
def CNT_SYNC_MISS : RegField := ⟨0x09, 0x06C, 0, 8, .rc, 0, 1, 0⟩
/-- CNT ANN_TMO (+0x06C, 15:8): Announce receipt timeouts, saturating -/
def CNT_ANN_TMO : RegField := ⟨0x09, 0x06C, 8, 8, .rc, 0, 1, 0⟩
/-- CNT AUTH_FAIL (+0x06C, 23:16): Authentication failures, saturating -/
def CNT_AUTH_FAIL : RegField := ⟨0x09, 0x06C, 16, 8, .rc, 0, 1, 0⟩
/-- CNT LOSSES (+0x06C, 31:24): Domain losses (R65), saturating -/
def CNT_LOSSES : RegField := ⟨0x09, 0x06C, 24, 8, .rc, 0, 1, 0⟩

/-- Fields of PTP, part 1. -/
def fields1 : List RegField :=
  [GM_ID_LO_GM_ID, GM_ID_HI_GM_ID, CFG_PORT, CFG_TWO_STEP_RESP, CFG_AUTH_REQ, CFG_VLAN_EN, CFG_VLAN_PCP, CFG_DOMAIN, CFG_VID, STAT_PORT_STATE, STAT_QUALIFIED, STAT_ACTIVE, STAT_GM_CLASS, OFFSET, FREQ, PDELAY, QUAL_SPREAD, QUAL_CLASS_MAX, QUAL_AUTH_MAX, LAT_RX_CORR, LAT_TX_CORR, TINACC_GM_TINACC, TINACC_NET_TINACC, CNT_SYNC_MISS, CNT_ANN_TMO, CNT_AUTH_FAIL, CNT_LOSSES]
/-- The fields of PTP in the order of its tables. -/
def fields : List RegField := fields1

end PTP

namespace BNT

/-- PORT_CTL EN (+0x040, 0): Enable the port -/
def PORT_CTL_EN : RegField := ⟨0x10, 0x040, 0, 1, .rw, 0, 1, 0⟩
/-- PORT_CTL LEGACY (+0x040, 1): Generation-1 framing (R139) -/
def PORT_CTL_LEGACY : RegField := ⟨0x10, 0x040, 1, 1, .rw, 0, 1, 0⟩
/-- PORT_CTL USE (+0x040, 3:2): 0b00 ring end, 0b01 chain end, 0b10 trunk downstream, 0b11 trunk upstream -/
def PORT_CTL_USE : RegField := ⟨0x10, 0x040, 2, 2, .rwl, 0, 1, 0⟩
/-- PORT_CTL WRAP_EN (+0x040, 4): Cell: allow wrapping (R126) -/
def PORT_CTL_WRAP_EN : RegField := ⟨0x10, 0x040, 4, 1, .rw, 1, 1, 0⟩
/-- PORT_CTL LOOPBACK (+0x040, 5): Near-end serial loopback for test -/
def PORT_CTL_LOOPBACK : RegField := ⟨0x10, 0x040, 5, 1, .rw, 0, 1, 0⟩
/-- PORT_STAT BLOCK_LOCK (+0x044, 0): Block lock held -/
def PORT_STAT_BLOCK_LOCK : RegField := ⟨0x10, 0x044, 0, 1, .ro, 0, 1, 0⟩
/-- PORT_STAT RETRAINING (+0x044, 1): R128 -/
def PORT_STAT_RETRAINING : RegField := ⟨0x10, 0x044, 1, 1, .ro, 0, 1, 0⟩
/-- PORT_STAT HOP_DOWN (+0x044, 2): R128 -/
def PORT_STAT_HOP_DOWN : RegField := ⟨0x10, 0x044, 2, 1, .ro, 0, 1, 0⟩
/-- PORT_STAT WRAPPED (+0x044, 3): Cell: this side wraps -/
def PORT_STAT_WRAPPED : RegField := ⟨0x10, 0x044, 3, 1, .ro, 0, 1, 0⟩
/-- PORT_STAT UNRELEASED (+0x044, 4): R129 -/
def PORT_STAT_UNRELEASED : RegField := ⟨0x10, 0x044, 4, 1, .ro, 0, 1, 0⟩
/-- PORT_STAT LEGACY (+0x044, 5): Generation-1 active -/
def PORT_STAT_LEGACY : RegField := ⟨0x10, 0x044, 5, 1, .ro, 0, 1, 0⟩
/-- PORT_STAT RETRAIN_CNT (+0x044, 15:8): Strides spent in the current retrain, saturating -/
def PORT_STAT_RETRAIN_CNT : RegField := ⟨0x10, 0x044, 8, 8, .ro, 0, 1, 0⟩
/-- PORT_STAT NEIGHBOUR_ID (+0x044, 31:16): Neighbour identity [15:0] from training -/
def PORT_STAT_NEIGHBOUR_ID : RegField := ⟨0x10, 0x044, 16, 16, .ro, 0, 1, 0⟩
/-- SERDES TX_SWING (+0x048, 3:0): 400 mV + 40 mV × value, differential peak to peak -/
def SERDES_TX_SWING : RegField := ⟨0x10, 0x048, 0, 4, .rw, 8, 1, 0⟩
/-- SERDES TX_DEEMPH (+0x048, 7:4): 0.5 dB × value -/
def SERDES_TX_DEEMPH : RegField := ⟨0x10, 0x048, 4, 4, .rw, 4, 1, 0⟩
/-- SERDES RX_CTLE (+0x048, 11:8): Equaliser peaking step -/
def SERDES_RX_CTLE : RegField := ⟨0x10, 0x048, 8, 4, .rw, 6, 1, 0⟩
/-- SERDES RX_POL_INV (+0x048, 12): Invert receive polarity -/
def SERDES_RX_POL_INV : RegField := ⟨0x10, 0x048, 12, 1, .rw, 0, 1, 0⟩
/-- SERDES TX_POL_INV (+0x048, 13): Invert transmit polarity -/
def SERDES_TX_POL_INV : RegField := ⟨0x10, 0x048, 13, 1, .rw, 0, 1, 0⟩
/-- LAUNCH_OFS OFS (+0x04C, 6:0): Fixed launch offset after the boundary, 0.25 ns units (R78) -/
def LAUNCH_OFS : RegField := ⟨0x10, 0x04C, 0, 7, .ro, 0, 1, 0⟩
/-- RETRAIN BUDGET (+0x050, 7:0): Retrain budget in strides; 0 stored as 1 -/
def RETRAIN_BUDGET : RegField := ⟨0x10, 0x050, 0, 8, .rw, 0x40, 1, 0⟩
/-- CNT_ERR CRC_ERR (+0x054, 15:0): R109, saturating -/
def CNT_ERR_CRC_ERR : RegField := ⟨0x10, 0x054, 0, 16, .rc, 0, 1, 0⟩
/-- CNT_ERR HDR_ERR (+0x054, 31:16): R106, saturating -/
def CNT_ERR_HDR_ERR : RegField := ⟨0x10, 0x054, 16, 16, .rc, 0, 1, 0⟩
/-- CNT_LINK TAG_FAIL (+0x058, 15:0): R108, R673; in the hub, uplink and pennant tag failures -/
def CNT_LINK_TAG_FAIL : RegField := ⟨0x10, 0x058, 0, 16, .rc, 0, 1, 0⟩
/-- CNT_LINK LOCK_LOSS (+0x058, 23:16): Loss-of-lock events, saturating -/
def CNT_LINK_LOCK_LOSS : RegField := ⟨0x10, 0x058, 16, 8, .rc, 0, 1, 0⟩
/-- CNT_LINK LATE_RETURN (+0x058, 31:24): R122, saturating -/
def CNT_LINK_LATE_RETURN : RegField := ⟨0x10, 0x058, 24, 8, .rc, 0, 1, 0⟩

/-- Fields of BNT, part 1. -/
def fields1 : List RegField :=
  [PORT_CTL_EN, PORT_CTL_LEGACY, PORT_CTL_USE, PORT_CTL_WRAP_EN, PORT_CTL_LOOPBACK, PORT_STAT_BLOCK_LOCK, PORT_STAT_RETRAINING, PORT_STAT_HOP_DOWN, PORT_STAT_WRAPPED, PORT_STAT_UNRELEASED, PORT_STAT_LEGACY, PORT_STAT_RETRAIN_CNT, PORT_STAT_NEIGHBOUR_ID, SERDES_TX_SWING, SERDES_TX_DEEMPH, SERDES_RX_CTLE, SERDES_RX_POL_INV, SERDES_TX_POL_INV, LAUNCH_OFS, RETRAIN_BUDGET, CNT_ERR_CRC_ERR, CNT_ERR_HDR_ERR, CNT_LINK_TAG_FAIL, CNT_LINK_LOCK_LOSS, CNT_LINK_LATE_RETURN]
/-- The fields of BNT in the order of its tables. -/
def fields : List RegField := fields1

end BNT

namespace BNC

/-- BOOT_ADDR ADDR (+0x068, 31:0) -/
def BOOT_ADDR : RegField := ⟨0x40, 0x068, 0, 32, .rw, 0, 1, 0⟩
/-- BOOT_LEN LEN (+0x06C, 31:0) -/
def BOOT_LEN : RegField := ⟨0x40, 0x06C, 0, 32, .rw, 0, 1, 0⟩
/-- BOOT_MASK LO (+0x070, 31:0) -/
def BOOT_MASK_LO : RegField := ⟨0x40, 0x070, 0, 32, .rw, 0, 1, 0⟩
/-- BOOT_MASK HI (+0x074, 15:0) -/
def BOOT_MASK_HI : RegField := ⟨0x40, 0x074, 0, 16, .rw, 0, 1, 0⟩
/-- BOOT_CTL START (+0x078, 0) -/
def BOOT_CTL_START : RegField := ⟨0x40, 0x078, 0, 1, .wo, 0, 1, 0⟩
/-- BOOT_CTL STOP (+0x078, 1) -/
def BOOT_CTL_STOP : RegField := ⟨0x40, 0x078, 1, 1, .wo, 0, 1, 0⟩
/-- BOOT_CTL ACTIVE (+0x078, 2) -/
def BOOT_CTL_ACTIVE : RegField := ⟨0x40, 0x078, 2, 1, .ro, 0, 1, 0⟩
/-- CTL RUN (+0x040, 0): Launch hoists on every ring in service -/
def CTL_RUN : RegField := ⟨0x40, 0x040, 0, 1, .rw, 0, 1, 0⟩
/-- CTL SILENT_N (+0x040, 15:8): R130; 0 stored as 1 -/
def CTL_SILENT_N : RegField := ⟨0x40, 0x040, 8, 8, .rw, 4, 1, 0⟩
/-- CTL PEN_TMO (+0x040, 23:16): R116, strides; 0 stored as 1 -/
def CTL_PEN_TMO : RegField := ⟨0x40, 0x040, 16, 8, .rw, 0x40, 1, 0⟩
/-- STAT IN_SERVICE (+0x044, 7:0): Rings in service -/
def STAT_IN_SERVICE : RegField := ⟨0x40, 0x044, 0, 8, .ro, 0, 1, 0⟩
/-- STAT WRAPPED (+0x044, 15:8): Rings with at least one wrap -/
def STAT_WRAPPED : RegField := ⟨0x40, 0x044, 8, 8, .ro, 0, 1, 0⟩
/-- TRUNK BRANCH_ID (+0x060, 7:0): This branch's identity; 0 in the lead -/
def TRUNK_BRANCH_ID : RegField := ⟨0x40, 0x060, 0, 8, .rwl, 0, 1, 0⟩
/-- TRUNK UP_PORT (+0x060, 13:8): Branch: port toward the lead -/
def TRUNK_UP_PORT : RegField := ⟨0x40, 0x060, 8, 6, .rwl, 0, 1, 0⟩
/-- TRUNK DEPTH (+0x060, 23:16): Depth below the lead -/
def TRUNK_DEPTH : RegField := ⟨0x40, 0x060, 16, 8, .ro, 0, 1, 0⟩
/-- PEN PEN_WAIT (+0x064, 15:0): R115, saturating -/
def PEN_PEN_WAIT : RegField := ⟨0x40, 0x064, 0, 16, .rc, 0, 1, 0⟩
/-- PEN PEN_TMO_CNT (+0x064, 31:16): R116, saturating -/
def PEN_PEN_TMO_CNT : RegField := ⟨0x40, 0x064, 16, 16, .rc, 0, 1, 0⟩
/-- CELL INDEX (+0x080, 8:0): Index from enumeration -/
def CELL_INDEX : RegField := ⟨0x40, 0x080, 0, 9, .ro, 0, 1, 0⟩
/-- CELL N (+0x080, 24:16): Ring cell count -/
def CELL_N : RegField := ⟨0x40, 0x080, 16, 9, .ro, 0, 1, 0⟩
/-- CELL PRIMARY (+0x080, 25): Primary direction in force: 0 eastbound, 1 westbound (R675) -/
def CELL_PRIMARY : RegField := ⟨0x40, 0x080, 25, 1, .ro, 0, 1, 0⟩
/-- CELL DIR_ALT (+0x080, 26): Last flag obeyed from the alternate direction -/
def CELL_DIR_ALT : RegField := ⟨0x40, 0x080, 26, 1, .ro, 0, 1, 0⟩
/-- SPLIT SPLIT (+0x084, 8:0): Primary split written by the hub (R675); 0 selects ⌈N/2⌉ -/
def SPLIT : RegField := ⟨0x40, 0x084, 0, 9, .rw, 0, 1, 0⟩
/-- RING_TBL WEST_PORT (+0x100, 5:0): West end port -/
def RING_TBL_WEST_PORT : RegField := ⟨0x40, 0x100, 0, 6, .rwl, 0, 48, 16⟩
/-- RING_TBL WEST_REMOTE (+0x100, 6): West end on the other hub -/
def RING_TBL_WEST_REMOTE : RegField := ⟨0x40, 0x100, 6, 1, .rwl, 0, 48, 16⟩
/-- RING_TBL EAST_PORT (+0x100, 13:8): East end port -/
def RING_TBL_EAST_PORT : RegField := ⟨0x40, 0x100, 8, 6, .rwl, 0, 48, 16⟩
/-- RING_TBL EAST_REMOTE (+0x100, 14): East end on the other hub -/
def RING_TBL_EAST_REMOTE : RegField := ⟨0x40, 0x100, 14, 1, .rwl, 0, 48, 16⟩
/-- RING_TBL TOPO (+0x100, 17:16): 0b00 off, 0b01 ring, 0b10 dual-ended, 0b11 chain -/
def RING_TBL_TOPO : RegField := ⟨0x40, 0x100, 16, 2, .rwl, 0, 48, 16⟩
/-- RING_TBL DOWN (+0x100, 30): 1: take the ring out of service -/
def RING_TBL_DOWN : RegField := ⟨0x40, 0x100, 30, 1, .wo, 0, 48, 16⟩
/-- RING_TBL UP (+0x100, 31): 1: start bring-up (R118) -/
def RING_TBL_UP : RegField := ⟨0x40, 0x100, 31, 1, .wo, 0, 48, 16⟩
/-- RING_TBL CELL_BASE (+0x104, 12:0): Cell table entry of cell 1 -/
def RING_TBL_CELL_BASE : RegField := ⟨0x40, 0x104, 0, 13, .rwl, 0, 48, 16⟩
/-- RING_TBL N (+0x104, 24:16): Enumerated cell count -/
def RING_TBL_N : RegField := ⟨0x40, 0x104, 16, 9, .ro, 0, 48, 16⟩
/-- RING_TBL STATE (+0x108, 2:0): 0b000 down, 0b001 training, 0b010 enumerated, 0b011 surveyed, 0b100 keyed, 0b101 in service, 0b110 in … -/
def RING_TBL_STATE : RegField := ⟨0x40, 0x108, 0, 3, .ro, 0, 48, 16⟩
/-- RING_TBL RING_BUDGET (+0x108, 3): R120 failed -/
def RING_TBL_RING_BUDGET : RegField := ⟨0x40, 0x108, 3, 1, .ro, 0, 48, 16⟩
/-- RING_TBL UA (+0x108, 15:8): Uplink age of R40 -/
def RING_TBL_UA : RegField := ⟨0x40, 0x108, 8, 8, .ro, 0, 48, 16⟩
/-- RING_TBL PRIMARY_SPLIT (+0x10C, 15:0): Cells with index at or below this value are primary eastbound; 0 selects ⌈N/2⌉; carried to the cells under … -/
def RING_TBL_PRIMARY_SPLIT : RegField := ⟨0x40, 0x10C, 0, 16, .rwl, 0, 48, 16⟩

/-- Fields of BNC, part 1. -/
def fields1 : List RegField :=
  [BOOT_ADDR, BOOT_LEN, BOOT_MASK_LO, BOOT_MASK_HI, BOOT_CTL_START, BOOT_CTL_STOP, BOOT_CTL_ACTIVE, CTL_RUN, CTL_SILENT_N, CTL_PEN_TMO, STAT_IN_SERVICE, STAT_WRAPPED, TRUNK_BRANCH_ID, TRUNK_UP_PORT, TRUNK_DEPTH, PEN_PEN_WAIT, PEN_PEN_TMO_CNT, CELL_INDEX, CELL_N, CELL_PRIMARY, CELL_DIR_ALT, SPLIT, RING_TBL_WEST_PORT, RING_TBL_WEST_REMOTE, RING_TBL_EAST_PORT, RING_TBL_EAST_REMOTE, RING_TBL_TOPO, RING_TBL_DOWN, RING_TBL_UP, RING_TBL_CELL_BASE, RING_TBL_N, RING_TBL_STATE, RING_TBL_RING_BUDGET, RING_TBL_UA, RING_TBL_PRIMARY_SPLIT]
/-- The fields of BNC in the order of its tables. -/
def fields : List RegField := fields1

end BNC

namespace TWN

/-- CTL LANE_EN (+0x040, 1:0): TWA, TWB -/
def CTL_LANE_EN : RegField := ⟨0x41, 0x040, 0, 2, .rw, 3, 1, 0⟩
/-- CTL MIRROR_EN (+0x040, 2): R487 -/
def CTL_MIRROR_EN : RegField := ⟨0x41, 0x040, 2, 1, .rw, 0, 1, 0⟩
/-- CTL LOSS_N (+0x040, 15:8): R492; 0 stored as 1 -/
def CTL_LOSS_N : RegField := ⟨0x41, 0x040, 8, 8, .rw, 3, 1, 0⟩
/-- STAT LANE_LOCK (+0x044, 1:0): Block lock per lane -/
def STAT_LANE_LOCK : RegField := ⟨0x41, 0x044, 0, 2, .ro, 0, 1, 0⟩
/-- STAT UP (+0x044, 2): Valid STRIDE frames arriving -/
def STAT_UP : RegField := ⟨0x41, 0x044, 2, 1, .ro, 0, 1, 0⟩
/-- STAT TWIN_LOST (+0x044, 3): R492 -/
def STAT_TWIN_LOST : RegField := ⟨0x41, 0x044, 3, 1, .ro, 0, 1, 0⟩
/-- STAT BUDGET_FAIL (+0x044, 4): R491 -/
def STAT_BUDGET_FAIL : RegField := ⟨0x41, 0x044, 4, 1, .ro, 0, 1, 0⟩
/-- DELAY DELAY (+0x048, 15:0): One-way delay, 0.25 ns units (R490) -/
def DELAY : RegField := ⟨0x41, 0x048, 0, 16, .ro, 0, 1, 0⟩
/-- XS_N N (+0x054, 6:0): Exchange entries, 0 to 64; above 64 stored as 64 -/
def XS_N : RegField := ⟨0x41, 0x054, 0, 7, .rwl, 0, 1, 0⟩
/-- RSYNC CARRIED (+0x058, 15:0): Carried part, bytes, saturating (R516) -/
def RSYNC_CARRIED : RegField := ⟨0x41, 0x058, 0, 16, .ro, 0, 1, 0⟩
/-- RSYNC CAPACITY (+0x058, 31:16): Bytes, saturating (R516) -/
def RSYNC_CAPACITY : RegField := ⟨0x41, 0x058, 16, 16, .ro, 0, 1, 0⟩
/-- CNT FRAME_ERR_A (+0x05C, 15:0): TWA frames failing CRC or TAG, saturating -/
def CNT_FRAME_ERR_A : RegField := ⟨0x41, 0x05C, 0, 16, .rc, 0, 1, 0⟩
/-- CNT FRAME_ERR_B (+0x05C, 31:16): TWB, saturating -/
def CNT_FRAME_ERR_B : RegField := ⟨0x41, 0x05C, 16, 16, .rc, 0, 1, 0⟩
/-- CNT2 SOLO (+0x060, 15:0): R494, saturating -/
def CNT2_SOLO : RegField := ⟨0x41, 0x060, 0, 16, .rc, 0, 1, 0⟩
/-- CNT2 RING_ABSENT (+0x060, 31:16): R494, saturating -/
def CNT2_RING_ABSENT : RegField := ⟨0x41, 0x060, 16, 16, .rc, 0, 1, 0⟩
/-- CNT3 MIRROR_WAIT (+0x064, 7:0): R487, saturating -/
def CNT3_MIRROR_WAIT : RegField := ⟨0x41, 0x064, 0, 8, .rc, 0, 1, 0⟩
/-- CNT3 MIRROR_LOCAL (+0x064, 15:8): R487, saturating -/
def CNT3_MIRROR_LOCAL : RegField := ⟨0x41, 0x064, 8, 8, .rc, 0, 1, 0⟩
/-- CNT3 RESYNC_REF (+0x064, 23:16): R516, saturating -/
def CNT3_RESYNC_REF : RegField := ⟨0x41, 0x064, 16, 8, .rc, 0, 1, 0⟩
/-- XS SRC (+0x100, 15:0): Source signal (R495) -/
def XS_SRC : RegField := ⟨0x41, 0x100, 0, 16, .rwl, 0xFFFF, 64, 8⟩
/-- XS DST_A (+0x104, 15:0): Destination of hub A's value -/
def XS_DST_A : RegField := ⟨0x41, 0x104, 0, 16, .rwl, 0xFFFF, 64, 8⟩
/-- XS DST_B (+0x104, 31:16): Destination of hub B's value -/
def XS_DST_B : RegField := ⟨0x41, 0x104, 16, 16, .rwl, 0xFFFF, 64, 8⟩
/-- SERDES_A TX_SWING (+0x04C, 3:0): 400 mV + 40 mV × value, differential peak to peak -/
def SERDES_A_TX_SWING : RegField := ⟨0x41, 0x04C, 0, 4, .rw, 8, 1, 0⟩
/-- SERDES_A TX_DEEMPH (+0x04C, 7:4): 0.5 dB × value -/
def SERDES_A_TX_DEEMPH : RegField := ⟨0x41, 0x04C, 4, 4, .rw, 4, 1, 0⟩
/-- SERDES_A RX_CTLE (+0x04C, 11:8): Equaliser peaking step -/
def SERDES_A_RX_CTLE : RegField := ⟨0x41, 0x04C, 8, 4, .rw, 6, 1, 0⟩
/-- SERDES_A RX_POL_INV (+0x04C, 12): Invert receive polarity -/
def SERDES_A_RX_POL_INV : RegField := ⟨0x41, 0x04C, 12, 1, .rw, 0, 1, 0⟩
/-- SERDES_A TX_POL_INV (+0x04C, 13): Invert transmit polarity -/
def SERDES_A_TX_POL_INV : RegField := ⟨0x41, 0x04C, 13, 1, .rw, 0, 1, 0⟩
/-- SERDES_B TX_SWING (+0x050, 3:0): 400 mV + 40 mV × value, differential peak to peak -/
def SERDES_B_TX_SWING : RegField := ⟨0x41, 0x050, 0, 4, .rw, 8, 1, 0⟩
/-- SERDES_B TX_DEEMPH (+0x050, 7:4): 0.5 dB × value -/
def SERDES_B_TX_DEEMPH : RegField := ⟨0x41, 0x050, 4, 4, .rw, 4, 1, 0⟩
/-- SERDES_B RX_CTLE (+0x050, 11:8): Equaliser peaking step -/
def SERDES_B_RX_CTLE : RegField := ⟨0x41, 0x050, 8, 4, .rw, 6, 1, 0⟩
/-- SERDES_B RX_POL_INV (+0x050, 12): Invert receive polarity -/
def SERDES_B_RX_POL_INV : RegField := ⟨0x41, 0x050, 12, 1, .rw, 0, 1, 0⟩
/-- SERDES_B TX_POL_INV (+0x050, 13): Invert transmit polarity -/
def SERDES_B_TX_POL_INV : RegField := ⟨0x41, 0x050, 13, 1, .rw, 0, 1, 0⟩

/-- Fields of TWN, part 1. -/
def fields1 : List RegField :=
  [CTL_LANE_EN, CTL_MIRROR_EN, CTL_LOSS_N, STAT_LANE_LOCK, STAT_UP, STAT_TWIN_LOST, STAT_BUDGET_FAIL, DELAY, XS_N, RSYNC_CARRIED, RSYNC_CAPACITY, CNT_FRAME_ERR_A, CNT_FRAME_ERR_B, CNT2_SOLO, CNT2_RING_ABSENT, CNT3_MIRROR_WAIT, CNT3_MIRROR_LOCAL, CNT3_RESYNC_REF, XS_SRC, XS_DST_A, XS_DST_B, SERDES_A_TX_SWING, SERDES_A_TX_DEEMPH, SERDES_A_RX_CTLE, SERDES_A_RX_POL_INV, SERDES_A_TX_POL_INV, SERDES_B_TX_SWING, SERDES_B_TX_DEEMPH, SERDES_B_RX_CTLE, SERDES_B_RX_POL_INV, SERDES_B_TX_POL_INV]
/-- The fields of TWN in the order of its tables. -/
def fields : List RegField := fields1

end TWN

namespace CTR

/-- CTL STOP_ALL (+0x040, 0): Stop source for every group (R177) -/
def CTL_STOP_ALL : RegField := ⟨0x48, 0x040, 0, 1, .rw, 0, 1, 0⟩
/-- CTL APPLY (+0x040, 1): 1: apply CTR_TIMING (R185) -/
def CTL_APPLY : RegField := ⟨0x48, 0x040, 1, 1, .wo, 0, 1, 0⟩
/-- TIMING STRIDE (+0x044, 14:0): T in 10 ns units, 200 to 20 000; reset 10 µs -/
def TIMING_STRIDE : RegField := ⟨0x48, 0x044, 0, 15, .rwl, 0x3E8, 1, 0⟩
/-- TIMING LA (+0x044, 17:16): Look-ahead, 1 to 3 -/
def TIMING_LA : RegField := ⟨0x48, 0x044, 16, 2, .rwl, 1, 1, 0⟩
/-- TIMING DEADLINE (+0x044, 30:24): Chart deadline share D in %, 1 to 100; reset 60 % -/
def TIMING_DEADLINE : RegField := ⟨0x48, 0x044, 24, 7, .rwl, 0x3C, 1, 0⟩
/-- STAT ACTIVE (+0x048, 0): Engine running -/
def STAT_ACTIVE : RegField := ⟨0x48, 0x048, 0, 1, .ro, 0, 1, 0⟩
/-- STAT BUDGET_REFUSED (+0x048, 1): Last evaluation failed (R38, R185) -/
def STAT_BUDGET_REFUSED : RegField := ⟨0x48, 0x048, 1, 1, .ro, 0, 1, 0⟩
/-- STAT TIMING_PENDING (+0x048, 2): APPLY written; waiting for the boundary -/
def STAT_TIMING_PENDING : RegField := ⟨0x48, 0x048, 2, 1, .ro, 0, 1, 0⟩
/-- STAT N_TOTAL (+0x048, 17:4): Cells in all enabled groups -/
def STAT_N_TOTAL : RegField := ⟨0x48, 0x048, 4, 14, .ro, 0, 1, 0⟩
/-- STAT T_SORT (+0x048, 26:18): t_sort in 10 ns units -/
def STAT_T_SORT : RegField := ⟨0x48, 0x048, 18, 9, .ro, 0, 1, 0⟩
/-- GROUPS ENABLED (+0x04C, 11:0): Groups enabled -/
def GROUPS_ENABLED : RegField := ⟨0x48, 0x04C, 0, 12, .ro, 0, 1, 0⟩
/-- GROUPS STOPPED (+0x04C, 27:16): Groups in a stop mode -/
def GROUPS_STOPPED : RegField := ⟨0x48, 0x04C, 16, 12, .ro, 0, 1, 0⟩
/-- STAGE SORT_DONE (+0x050, 15:0): Last sort stage completion, 10 ns units after the boundary -/
def STAGE_SORT_DONE : RegField := ⟨0x48, 0x050, 0, 16, .ro, 0, 1, 0⟩
/-- STAGE FLAGS_DONE (+0x050, 31:16): Last flag completion, 10 ns units after the boundary -/
def STAGE_FLAGS_DONE : RegField := ⟨0x48, 0x050, 16, 16, .ro, 0, 1, 0⟩

/-- Fields of CTR, part 1. -/
def fields1 : List RegField :=
  [CTL_STOP_ALL, CTL_APPLY, TIMING_STRIDE, TIMING_LA, TIMING_DEADLINE, STAT_ACTIVE, STAT_BUDGET_REFUSED, STAT_TIMING_PENDING, STAT_N_TOTAL, STAT_T_SORT, GROUPS_ENABLED, GROUPS_STOPPED, STAGE_SORT_DONE, STAGE_FLAGS_DONE]
/-- The fields of CTR in the order of its tables. -/
def fields : List RegField := fields1

end CTR

namespace CTG

/-- CTL FB (+0x040, 0): 0 half-bridge, 1 full-bridge (R148, R149) -/
def CTL_FB : RegField := ⟨0x49, 0x040, 0, 1, .rwl, 0, 1, 0⟩
/-- CTL SRC (+0x040, 1): 0 local Chart, 1 trunk (R182) -/
def CTL_SRC : RegField := ⟨0x49, 0x040, 1, 1, .rwl, 0, 1, 0⟩
/-- CTL KEY_BASE (+0x040, 2): 0 V_MEAN, 1 V_END (R153) -/
def CTL_KEY_BASE : RegField := ⟨0x49, 0x040, 2, 1, .rw, 0, 1, 0⟩
/-- CTL AUTO_BYPASS (+0x040, 3): R161 -/
def CTL_AUTO_BYPASS : RegField := ⟨0x49, 0x040, 3, 1, .rw, 0, 1, 0⟩
/-- CTL VS_COMP (+0x040, 4): R173 -/
def CTL_VS_COMP : RegField := ⟨0x49, 0x040, 4, 1, .rw, 1, 1, 0⟩
/-- CTL STOP (+0x040, 5): Stop source (R177) -/
def CTL_STOP : RegField := ⟨0x49, 0x040, 5, 1, .rw, 1, 1, 0⟩
/-- CTL STOP_MODE (+0x040, 7:6): 0b01 BLOCK, 0b10 SHORT, 0b11 ZERO; 0b00 is stored as 0b01 -/
def CTL_STOP_MODE : RegField := ⟨0x49, 0x040, 6, 2, .rw, 1, 1, 0⟩
/-- CELLS BASE (+0x044, 12:0): First Cell table entry (R146) -/
def CELLS_BASE : RegField := ⟨0x49, 0x044, 0, 13, .rwl, 0, 1, 0⟩
/-- CELLS COUNT (+0x044, 26:16): Cells, 1 to 1 024; 0 or a value above 1 024 keeps the group disabled (R147) -/
def CELLS_COUNT : RegField := ⟨0x49, 0x044, 16, 11, .rwl, 0, 1, 0⟩
/-- SIG_REF VREF_A (+0x048, 15:0): Signal of point H+LA; 0xFFFF for none, which is never written -/
def SIG_REF_VREF_A : RegField := ⟨0x49, 0x048, 0, 16, .rw, 0xFFFF, 1, 0⟩
/-- SIG_REF VREF_B (+0x048, 31:16): Signal of point H+LA+1 -/
def SIG_REF_VREF_B : RegField := ⟨0x49, 0x048, 16, 16, .rw, 0xFFFF, 1, 0⟩
/-- SIG_I IARM (+0x04C, 15:0): Arm-current signal (R152); 0xFFFF gives I = 0 -/
def SIG_I_IARM : RegField := ⟨0x49, 0x04C, 0, 16, .rw, 0xFFFF, 1, 0⟩
/-- VSCALE VSCALE (+0x050, 31:0): Volts per code LSB, binary32; reset 0.001 V -/
def VSCALE : RegField := ⟨0x49, 0x050, 0, 32, .rw, 0x3A83126F, 1, 0⟩
/-- CNOM CNOM (+0x054, 31:0): Default capacitance, binary32; reset 0.01 F; a write that is not a positive finite number is discarded and … -/
def CNOM : RegField := ⟨0x49, 0x054, 0, 32, .rw, 0x3C23D70A, 1, 0⟩
/-- KEY_LSB KEY_LSB (+0x058, 31:0): VKEY step, binary32; reset 0.01 V; a write that is not a positive finite number is discarded and recorded … -/
def KEY_LSB : RegField := ⟨0x49, 0x058, 0, 32, .rw, 0x3C23D70A, 1, 0⟩
/-- IDEAD IDEAD (+0x05C, 31:0): Current deadband, binary32; reset 20 A -/
def IDEAD : RegField := ⟨0x49, 0x05C, 0, 32, .rw, 0x41A00000, 1, 0⟩
/-- BAND BAND_MAX (+0x060, 15:0): 0.1 V units; reset 40.0 V -/
def BAND_BAND_MAX : RegField := ⟨0x49, 0x060, 0, 16, .rw, 0x190, 1, 0⟩
/-- BAND BAND_MIN (+0x060, 31:16): 0.1 V units; reset 10.0 V -/
def BAND_BAND_MIN : RegField := ⟨0x49, 0x060, 16, 16, .rw, 0x64, 1, 0⟩
/-- SPREAD SPREAD_LO (+0x064, 15:0): 0.1 V units; reset 40.0 V -/
def SPREAD_SPREAD_LO : RegField := ⟨0x49, 0x064, 0, 16, .rw, 0x190, 1, 0⟩
/-- SPREAD SPREAD_HI (+0x064, 31:16): 0.1 V units; reset 120.0 V -/
def SPREAD_SPREAD_HI : RegField := ⟨0x49, 0x064, 16, 16, .rw, 0x4B0, 1, 0⟩
/-- DWELL MIN_ON (+0x068, 15:0): 10 ns units; reset 5 µs; values below 50 are stored as 50 -/
def DWELL_MIN_ON : RegField := ⟨0x49, 0x068, 0, 16, .rw, 0x1F4, 1, 0⟩
/-- DWELL MIN_OFF (+0x068, 31:16): As MIN_ON -/
def DWELL_MIN_OFF : RegField := ⟨0x49, 0x068, 16, 16, .rw, 0x1F4, 1, 0⟩
/-- SWAP SWAP_MAX (+0x06C, 7:0): Balancing swaps per stride; 0 disables them -/
def SWAP_SWAP_MAX : RegField := ⟨0x49, 0x06C, 0, 8, .rw, 4, 1, 0⟩
/-- SWAP ROT_STEP (+0x06C, 17:8): R157 -/
def SWAP_ROT_STEP : RegField := ⟨0x49, 0x06C, 8, 10, .rw, 1, 1, 0⟩
/-- REFILL REFILL_LEN (+0x070, 14:0): Minimum bypass after a refill swap, 10 ns units; reset 2 µs -/
def REFILL_REFILL_LEN : RegField := ⟨0x49, 0x070, 0, 15, .rw, 0xC8, 1, 0⟩
/-- REFILL REFILL_EN (+0x070, 15): R172 -/
def REFILL_REFILL_EN : RegField := ⟨0x49, 0x070, 15, 1, .rw, 1, 1, 0⟩
/-- REFILL FORCED_LEN (+0x070, 30:16): Forced-refill length of the group's cells, 10 ns units; must equal the cells' t_refill -/
def REFILL_FORCED_LEN : RegField := ⟨0x49, 0x070, 16, 15, .rw, 0xC8, 1, 0⟩
/-- STAT N_AV (+0x074, 10:0): Available cells -/
def STAT_N_AV : RegField := ⟨0x49, 0x074, 0, 11, .ro, 0, 1, 0⟩
/-- STAT LEVEL (+0x074, 27:16): n at the end of the last computed applying stride, two's complement -/
def STAT_LEVEL : RegField := ⟨0x49, 0x074, 16, 12, .ro, 0, 1, 0⟩
/-- STAT REF_HELD (+0x074, 28): R39 -/
def STAT_REF_HELD : RegField := ⟨0x49, 0x074, 28, 1, .ro, 0, 1, 0⟩
/-- STAT REF_CLIP (+0x074, 29): R162 -/
def STAT_REF_CLIP : RegField := ⟨0x49, 0x074, 29, 1, .ro, 0, 1, 0⟩
/-- STAT STOP_ACTIVE (+0x074, 30): R177 -/
def STAT_STOP_ACTIVE : RegField := ⟨0x49, 0x074, 30, 1, .ro, 1, 1, 0⟩
/-- STAT CHARGING (+0x074, 31): Direction in force for polarity +1 -/
def STAT_CHARGING : RegField := ⟨0x49, 0x074, 31, 1, .ro, 0, 1, 0⟩
/-- EDGES EDGES (+0x078, 6:0): Edges in the last computed applying stride -/
def EDGES : RegField := ⟨0x49, 0x078, 0, 7, .ro, 0, 1, 0⟩
/-- EDGES STEPS (+0x078, 14:8): Steps placed -/
def EDGES_STEPS : RegField := ⟨0x49, 0x078, 8, 7, .ro, 0, 1, 0⟩
/-- EDGES SWAPS (+0x078, 22:16): Refill and balancing swaps -/
def EDGES_SWAPS : RegField := ⟨0x49, 0x078, 16, 7, .ro, 0, 1, 0⟩
/-- EDGES DEFERRED (+0x078, 30:24): Steps deferred (R169) -/
def EDGES_DEFERRED : RegField := ⟨0x49, 0x078, 24, 7, .ro, 0, 1, 0⟩
/-- V_AVG V_AVG (+0x07C, 31:0): R158, binary32 -/
def V_AVG : RegField := ⟨0x49, 0x07C, 0, 32, .ro, 0, 1, 0⟩
/-- V_MAX V_MAX (+0x080, 31:0): R158, binary32 -/
def V_MAX : RegField := ⟨0x49, 0x080, 0, 32, .ro, 0, 1, 0⟩
/-- V_MIN V_MIN (+0x084, 31:0): R158, binary32 -/
def V_MIN : RegField := ⟨0x49, 0x084, 0, 32, .ro, 0, 1, 0⟩
/-- BAND_NOW BAND (+0x088, 31:0): Band in force (R170), binary32 -/
def BAND_NOW_BAND : RegField := ⟨0x49, 0x088, 0, 32, .ro, 0, 1, 0⟩
/-- CNT EDGE_LIMIT (+0x08C, 15:0): Strides that reached 64 edges, saturating -/
def CNT_EDGE_LIMIT : RegField := ⟨0x49, 0x08C, 0, 16, .rc, 0, 1, 0⟩
/-- CNT STEP_DELAYED (+0x08C, 31:16): Steps delayed or deferred, saturating -/
def CNT_STEP_DELAYED : RegField := ⟨0x49, 0x08C, 16, 16, .rc, 0, 1, 0⟩
/-- CNT2 REFILL_SWAPS (+0x090, 15:0): R172, saturating -/
def CNT2_REFILL_SWAPS : RegField := ⟨0x49, 0x090, 0, 16, .rc, 0, 1, 0⟩
/-- CNT2 REF_HELD_CNT (+0x090, 31:16): Strides with held points, saturating -/
def CNT2_REF_HELD_CNT : RegField := ⟨0x49, 0x090, 16, 16, .rc, 0, 1, 0⟩

/-- Fields of CTG, part 1. -/
def fields1 : List RegField :=
  [CTL_FB, CTL_SRC, CTL_KEY_BASE, CTL_AUTO_BYPASS, CTL_VS_COMP, CTL_STOP, CTL_STOP_MODE, CELLS_BASE, CELLS_COUNT, SIG_REF_VREF_A, SIG_REF_VREF_B, SIG_I_IARM, VSCALE, CNOM, KEY_LSB, IDEAD, BAND_BAND_MAX, BAND_BAND_MIN, SPREAD_SPREAD_LO, SPREAD_SPREAD_HI, DWELL_MIN_ON, DWELL_MIN_OFF, SWAP_SWAP_MAX, SWAP_ROT_STEP, REFILL_REFILL_LEN, REFILL_REFILL_EN, REFILL_FORCED_LEN, STAT_N_AV, STAT_LEVEL, STAT_REF_HELD, STAT_REF_CLIP, STAT_STOP_ACTIVE, STAT_CHARGING, EDGES, EDGES_STEPS, EDGES_SWAPS, EDGES_DEFERRED, V_AVG, V_MAX, V_MIN]
/-- Fields of CTG, part 2. -/
def fields2 : List RegField :=
  [BAND_NOW_BAND, CNT_EDGE_LIMIT, CNT_STEP_DELAYED, CNT2_REFILL_SWAPS, CNT2_REF_HELD_CNT]
/-- The fields of CTG in the order of its tables. -/
def fields : List RegField := fields1 ++ fields2

end CTG

namespace EDG

/-- TRIP_CFG MASK0 (+0x05C, 3:0) -/
def TRIP_CFG_MASK0 : RegField := ⟨0x58, 0x05C, 0, 4, .rwl, 0xF, 1, 0⟩
/-- TRIP_CFG LVL0 (+0x05C, 4) -/
def TRIP_CFG_LVL0 : RegField := ⟨0x58, 0x05C, 4, 1, .rwl, 0, 1, 0⟩
/-- TRIP_CFG MASK1 (+0x05C, 11:8) -/
def TRIP_CFG_MASK1 : RegField := ⟨0x58, 0x05C, 8, 4, .rwl, 0xF, 1, 0⟩
/-- TRIP_CFG LVL1 (+0x05C, 12) -/
def TRIP_CFG_LVL1 : RegField := ⟨0x58, 0x05C, 12, 1, .rwl, 0, 1, 0⟩
/-- TRIP_CFG MASK2 (+0x05C, 19:16) -/
def TRIP_CFG_MASK2 : RegField := ⟨0x58, 0x05C, 16, 4, .rwl, 0xF, 1, 0⟩
/-- TRIP_CFG LVL2 (+0x05C, 20) -/
def TRIP_CFG_LVL2 : RegField := ⟨0x58, 0x05C, 20, 1, .rwl, 0, 1, 0⟩
/-- TRIP_CFG MASK3 (+0x05C, 27:24) -/
def TRIP_CFG_MASK3 : RegField := ⟨0x58, 0x05C, 24, 4, .rwl, 0xF, 1, 0⟩
/-- TRIP_CFG LVL3 (+0x05C, 28) -/
def TRIP_CFG_LVL3 : RegField := ⟨0x58, 0x05C, 28, 1, .rwl, 0, 1, 0⟩
/-- TRIP_FILT FILT (+0x060, 6:0) -/
def TRIP_FILT : RegField := ⟨0x58, 0x060, 0, 7, .rwl, 0xA, 1, 0⟩
/-- TRIP_FILT N (+0x060, 11:8) -/
def TRIP_FILT_N : RegField := ⟨0x58, 0x060, 8, 4, .rwl, 3, 1, 0⟩
/-- CTL FB (+0x040, 0): 0 half-bridge, 1 full-bridge (R217, R220) -/
def CTL_FB : RegField := ⟨0x58, 0x040, 0, 1, .rwl, 0, 1, 0⟩
/-- STAT CH_ON (+0x044, 3:0): Channels on, read back at the balls -/
def STAT_CH_ON : RegField := ⟨0x58, 0x044, 0, 4, .ro, 0, 1, 0⟩
/-- STAT SHOOT_REQ (+0x044, 5:4): Per leg (R231) -/
def STAT_SHOOT_REQ : RegField := ⟨0x58, 0x044, 4, 2, .ro, 0, 1, 0⟩
/-- STAT CAL_OK (+0x044, 6): A valid tap table is in use (R224) -/
def STAT_CAL_OK : RegField := ⟨0x58, 0x044, 6, 1, .ro, 0, 1, 0⟩
/-- STAT CAL_FAULT (+0x044, 7): R225 -/
def STAT_CAL_FAULT : RegField := ⟨0x58, 0x044, 7, 1, .ro, 0, 1, 0⟩
/-- STAT LC_RUN (+0x044, 8): Local carrier running -/
def STAT_LC_RUN : RegField := ⟨0x58, 0x044, 8, 1, .ro, 0, 1, 0⟩
/-- STAT COMMIT_PEND (+0x044, 9): R250 -/
def STAT_COMMIT_PEND : RegField := ⟨0x58, 0x044, 9, 1, .ro, 0, 1, 0⟩
/-- DEAD DEAD (+0x048, 10:0): t_dead in 10 ns units, 20 to 2 000; reset 2 µs; values below 20 stored as 20, above 2 000 as 2 000 -/
def DEAD : RegField := ⟨0x58, 0x048, 0, 11, .rwl, 0xC8, 1, 0⟩
/-- DWELL MIN (+0x04C, 15:0): Dwell in 10 ns units; reset 0.5 µs; must not exceed the hub's CTG_DWELL values -/
def DWELL_MIN : RegField := ⟨0x58, 0x04C, 0, 16, .rwl, 0x32, 1, 0⟩
/-- TRIM TRIM_GF0 (+0x050, 7:0): Signed, 250 ps units (R222) -/
def TRIM_TRIM_GF0 : RegField := ⟨0x58, 0x050, 0, 8, .rw, 0, 1, 0⟩
/-- TRIM TRIM_GL0 (+0x050, 15:8): As TRIM_GF0 -/
def TRIM_TRIM_GL0 : RegField := ⟨0x58, 0x050, 8, 8, .rw, 0, 1, 0⟩
/-- TRIM TRIM_GF1 (+0x050, 23:16): As TRIM_GF0 -/
def TRIM_TRIM_GF1 : RegField := ⟨0x58, 0x050, 16, 8, .rw, 0, 1, 0⟩
/-- TRIM TRIM_GL1 (+0x050, 31:24): As TRIM_GF0 -/
def TRIM_TRIM_GL1 : RegField := ⟨0x58, 0x050, 24, 8, .rw, 0, 1, 0⟩
/-- MAP SWAP0 (+0x054, 0): R241, R244 -/
def MAP_SWAP0 : RegField := ⟨0x58, 0x054, 0, 1, .rw, 0, 1, 0⟩
/-- MAP SWAP1 (+0x054, 1): R241, R244 -/
def MAP_SWAP1 : RegField := ⟨0x58, 0x054, 1, 1, .rw, 0, 1, 0⟩
/-- MAP INV (+0x054, 7:4): Per channel (R243, R244) -/
def MAP_INV : RegField := ⟨0x58, 0x054, 4, 4, .rw, 0, 1, 0⟩
/-- OVR OVR (+0x058, 7:0): 2 bits per channel, channel c at [2c+1:2c]: 0b00 follow, 0b01 force off, 0b10 force on; 0b11 stored as 0b00 -/
def OVR : RegField := ⟨0x58, 0x058, 0, 8, .rw, 0, 1, 0⟩
/-- TRIP_CLR CLR (+0x064, 3:0): Per channel (R239) -/
def TRIP_CLR : RegField := ⟨0x58, 0x064, 0, 4, .wo, 0, 1, 0⟩
/-- TRIP_STAT CNT (+0x068, 15:0): 4 bits per channel, channel c at [4c+3:4c] (R238) -/
def TRIP_STAT_CNT : RegField := ⟨0x58, 0x068, 0, 16, .ro, 0, 1, 0⟩
/-- TRIP_STAT LATCH (+0x068, 19:16): Trip-count latches -/
def TRIP_STAT_LATCH : RegField := ⟨0x58, 0x068, 16, 4, .ro, 0, 1, 0⟩
/-- TRIP_STAT SUPP_PEND (+0x068, 23:20): Pending suppressions (R237) -/
def TRIP_STAT_SUPP_PEND : RegField := ⟨0x58, 0x068, 20, 4, .ro, 0, 1, 0⟩
/-- TRIP_STAT TRIP_CLR_REFUSED (+0x068, 27:24): R239 -/
def TRIP_STAT_TRIP_CLR_REFUSED : RegField := ⟨0x58, 0x068, 24, 4, .w1c, 0, 1, 0⟩
/-- TRIP_STAT IN (+0x068, 31:28): TRIP0 to TRIP3 active after the filter -/
def TRIP_STAT_IN : RegField := ⟨0x58, 0x068, 28, 4, .ro, 0, 1, 0⟩
/-- LC_CTL RAW (+0x06C, 0): 0 state mode, 1 raw mode (R246) -/
def LC_CTL_RAW : RegField := ⟨0x58, 0x06C, 0, 1, .rw, 0, 1, 0⟩
/-- LC_CTL PAIRED (+0x06C, 1): R249, R250 -/
def LC_CTL_PAIRED : RegField := ⟨0x58, 0x06C, 1, 1, .rw, 0, 1, 0⟩
/-- LC_CTL ACT (+0x06C, 3:2): State during the effective duty -/
def LC_CTL_ACT : RegField := ⟨0x58, 0x06C, 2, 2, .rw, 1, 1, 0⟩
/-- LC_CTL IDLE (+0x06C, 5:4): State for the rest of the period -/
def LC_CTL_IDLE : RegField := ⟨0x58, 0x06C, 4, 2, .rw, 0, 1, 0⟩
/-- LC_CTL SRC (+0x06C, 15:8): Raw mode, 2 bits per channel at [2c+9:2c+8]: 0b00 off, 0b01 on, 0b10 c, 0b11 not c -/
def LC_CTL_SRC : RegField := ⟨0x58, 0x06C, 8, 8, .rw, 0, 1, 0⟩
/-- LC_PER PER (+0x070, 15:0): Period in 10 ns units, 100 to 65 535; reset 100 µs; below 100 stored as 100 -/
def LC_PER : RegField := ⟨0x58, 0x070, 0, 16, .rw, 0x2710, 1, 0⟩
/-- LC_DUTY DUTY (+0x074, 15:0): Duty in 10 ns units, clamped to PER when applied -/
def LC_DUTY : RegField := ⟨0x58, 0x074, 0, 16, .rw, 0, 1, 0⟩
/-- LC_PHASE PHASE (+0x078, 15:0): Start of the first period in 10 ns units (R245) -/
def LC_PHASE : RegField := ⟨0x58, 0x078, 0, 16, .rw, 0, 1, 0⟩
/-- COMMIT COMMIT (+0x07C, 0): 1: paired transfer (R250) -/
def COMMIT : RegField := ⟨0x58, 0x07C, 0, 1, .wo, 0, 1, 0⟩
/-- CAL TAPS (+0x080, 7:0): Taps per 2 ns cycle in the last valid calibration -/
def CAL_TAPS : RegField := ⟨0x58, 0x080, 0, 8, .ro, 0, 1, 0⟩
/-- CAL CAL_OK (+0x080, 8): As EDG_STAT -/
def CAL_CAL_OK : RegField := ⟨0x58, 0x080, 8, 1, .ro, 0, 1, 0⟩
/-- CAL CAL_FAULT (+0x080, 9): As EDG_STAT -/
def CAL_CAL_FAULT : RegField := ⟨0x58, 0x080, 9, 1, .ro, 0, 1, 0⟩
/-- CAL FAIL_CNT (+0x080, 15:10): Consecutive failed calibrations, saturating at 63 -/
def CAL_FAIL_CNT : RegField := ⟨0x58, 0x080, 10, 6, .ro, 0, 1, 0⟩
/-- CNT DWELL_DEFER (+0x084, 15:0): R232, saturating -/
def CNT_DWELL_DEFER : RegField := ⟨0x58, 0x084, 0, 16, .rc, 0, 1, 0⟩
/-- CNT EDGE_MERGED (+0x084, 31:16): R233, saturating -/
def CNT_EDGE_MERGED : RegField := ⟨0x58, 0x084, 16, 16, .rc, 0, 1, 0⟩
/-- CNT2 TRIPS (+0x088, 15:0): Trips counted under R238, all channels, saturating -/
def CNT2_TRIPS : RegField := ⟨0x58, 0x088, 0, 16, .rc, 0, 1, 0⟩
/-- CNT2 SUPPRESSED (+0x088, 31:16): Turn-ons suppressed (R237), saturating -/
def CNT2_SUPPRESSED : RegField := ⟨0x58, 0x088, 16, 16, .rc, 0, 1, 0⟩
/-- TEV TIME_LO (+0x0A0, 31:0): Fire instant [31:0], 64-bit ns (R49) -/
def TEV_TIME_LO : RegField := ⟨0x58, 0x0A0, 0, 32, .rw, 0, 4, 16⟩
/-- TEV TIME_HI (+0x0A4, 31:0): Fire instant [63:32] -/
def TEV_TIME_HI : RegField := ⟨0x58, 0x0A4, 0, 32, .rw, 0, 4, 16⟩
/-- TEV PERIOD (+0x0A8, 31:0): Repeat period in 10 ns units; 0 for one shot -/
def TEV_PERIOD : RegField := ⟨0x58, 0x0A8, 0, 32, .rw, 0, 4, 16⟩
/-- TEV ARM (+0x0AC, 0): Channel armed; cleared after a one-shot fires -/
def TEV_ARM : RegField := ⟨0x58, 0x0AC, 0, 1, .rw, 0, 4, 16⟩
/-- TEV LATE (+0x0AC, 1): R251 -/
def TEV_LATE : RegField := ⟨0x58, 0x0AC, 1, 1, .w1c, 0, 4, 16⟩

/-- Fields of EDG, part 1. -/
def fields1 : List RegField :=
  [TRIP_CFG_MASK0, TRIP_CFG_LVL0, TRIP_CFG_MASK1, TRIP_CFG_LVL1, TRIP_CFG_MASK2, TRIP_CFG_LVL2, TRIP_CFG_MASK3, TRIP_CFG_LVL3, TRIP_FILT, TRIP_FILT_N, CTL_FB, STAT_CH_ON, STAT_SHOOT_REQ, STAT_CAL_OK, STAT_CAL_FAULT, STAT_LC_RUN, STAT_COMMIT_PEND, DEAD, DWELL_MIN, TRIM_TRIM_GF0, TRIM_TRIM_GL0, TRIM_TRIM_GF1, TRIM_TRIM_GL1, MAP_SWAP0, MAP_SWAP1, MAP_INV, OVR, TRIP_CLR, TRIP_STAT_CNT, TRIP_STAT_LATCH, TRIP_STAT_SUPP_PEND, TRIP_STAT_TRIP_CLR_REFUSED, TRIP_STAT_IN, LC_CTL_RAW, LC_CTL_PAIRED, LC_CTL_ACT, LC_CTL_IDLE, LC_CTL_SRC, LC_PER, LC_DUTY]
/-- Fields of EDG, part 2. -/
def fields2 : List RegField :=
  [LC_PHASE, COMMIT, CAL_TAPS, CAL_CAL_OK, CAL_CAL_FAULT, CAL_FAIL_CNT, CNT_DWELL_DEFER, CNT_EDGE_MERGED, CNT2_TRIPS, CNT2_SUPPRESSED, TEV_TIME_LO, TEV_TIME_HI, TEV_PERIOD, TEV_ARM, TEV_LATE]
/-- The fields of EDG in the order of its tables. -/
def fields : List RegField := fields1 ++ fields2

end EDG

namespace GDR

/-- GL_ON V_PRE (+0x060, 7:0) -/
def GL_ON_V_PRE : RegField := ⟨0x59, 0x060, 0, 8, .rw, 0x1E, 2, 16⟩
/-- GL_ON V_EXIT (+0x060, 15:8) -/
def GL_ON_V_EXIT : RegField := ⟨0x59, 0x060, 8, 8, .rw, 0x3C, 2, 16⟩
/-- GL_ON I_WEAK (+0x060, 20:16) -/
def GL_ON_I_WEAK : RegField := ⟨0x59, 0x060, 16, 5, .rw, 0xA, 2, 16⟩
/-- GL_ON PRE_BY_TIME (+0x060, 24) -/
def GL_ON_PRE_BY_TIME : RegField := ⟨0x59, 0x060, 24, 1, .rw, 0, 2, 16⟩
/-- GL_ON T_PRE (+0x064, 7:0) -/
def GL_ON_T_PRE : RegField := ⟨0x59, 0x064, 0, 8, .rw, 0x32, 2, 16⟩
/-- GL_ON T_MILLER (+0x064, 23:8) -/
def GL_ON_T_MILLER : RegField := ⟨0x59, 0x064, 8, 16, .rw, 0x1F4, 2, 16⟩
/-- GL_OFF V_PRE (+0x068, 7:0) -/
def GL_OFF_V_PRE : RegField := ⟨0x59, 0x068, 0, 8, .rw, 0x37, 2, 16⟩
/-- GL_OFF V_EXIT (+0x068, 15:8) -/
def GL_OFF_V_EXIT : RegField := ⟨0x59, 0x068, 8, 8, .rw, 0x19, 2, 16⟩
/-- GL_OFF I_WEAK (+0x068, 20:16) -/
def GL_OFF_I_WEAK : RegField := ⟨0x59, 0x068, 16, 5, .rw, 0xA, 2, 16⟩
/-- GL_OFF PRE_BY_TIME (+0x068, 24) -/
def GL_OFF_PRE_BY_TIME : RegField := ⟨0x59, 0x068, 24, 1, .rw, 0, 2, 16⟩
/-- GL_OFF T_PRE (+0x06C, 7:0) -/
def GL_OFF_T_PRE : RegField := ⟨0x59, 0x06C, 0, 8, .rw, 0x32, 2, 16⟩
/-- GL_OFF T_MILLER (+0x06C, 23:8) -/
def GL_OFF_T_MILLER : RegField := ⟨0x59, 0x06C, 8, 16, .rw, 0x1F4, 2, 16⟩
/-- CTL GATE_EN (+0x040, 0): 1: release the gate channels (R189, R280) -/
def CTL_GATE_EN : RegField := ⟨0x59, 0x040, 0, 1, .rw, 0, 1, 0⟩
/-- CTL CH_EN (+0x040, 7:4): Channel enables; a channel with its bit clear is held off -/
def CTL_CH_EN : RegField := ⟨0x59, 0x040, 4, 4, .rwl, 0, 1, 0⟩
/-- CTL DECK0 (+0x040, 8): GF0 supply: 0 PUMP, 1 TRICKLE (R268) -/
def CTL_DECK0 : RegField := ⟨0x59, 0x040, 8, 1, .rwl, 0, 1, 0⟩
/-- CTL DECK1 (+0x040, 9): GF1 supply, as DECK0 -/
def CTL_DECK1 : RegField := ⟨0x59, 0x040, 9, 1, .rwl, 0, 1, 0⟩
/-- CTL SHAPED0 (+0x040, 10): GL0: 0 fixed, 1 shaped (R256, R257) -/
def CTL_SHAPED0 : RegField := ⟨0x59, 0x040, 10, 1, .rwl, 0, 1, 0⟩
/-- CTL SHAPED1 (+0x040, 11): GL1, as SHAPED0 -/
def CTL_SHAPED1 : RegField := ⟨0x59, 0x040, 11, 1, .rwl, 0, 1, 0⟩
/-- STAT GEN_LVL (+0x044, 0): GEN after its filter -/
def STAT_GEN_LVL : RegField := ⟨0x59, 0x044, 0, 1, .ro, 0, 1, 0⟩
/-- STAT ENABLED (+0x044, 1): GATE_EN accepted and GEN high -/
def STAT_ENABLED : RegField := ⟨0x59, 0x044, 1, 1, .ro, 0, 1, 0⟩
/-- STAT DECK_ST0 (+0x044, 3:2): GF0: 0b00 NOT_READY, 0b01 READY, 0b10 REFILL, 0b11 LATCHED -/
def STAT_DECK_ST0 : RegField := ⟨0x59, 0x044, 2, 2, .ro, 0, 1, 0⟩
/-- STAT DECK_ST1 (+0x044, 5:4): GF1, as DECK_ST0 -/
def STAT_DECK_ST1 : RegField := ⟨0x59, 0x044, 4, 2, .ro, 0, 1, 0⟩
/-- STAT REFILL_REQ (+0x044, 6): R272 -/
def STAT_REFILL_REQ : RegField := ⟨0x59, 0x044, 6, 1, .ro, 0, 1, 0⟩
/-- STAT VGP_LOW (+0x044, 7): R279 -/
def STAT_VGP_LOW : RegField := ⟨0x59, 0x044, 7, 1, .ro, 0, 1, 0⟩
/-- STAT VGN_LOW (+0x044, 8): R279 -/
def STAT_VGN_LOW : RegField := ⟨0x59, 0x044, 8, 1, .ro, 0, 1, 0⟩
/-- STAT VDDF_LOW (+0x044, 9): R279 -/
def STAT_VDDF_LOW : RegField := ⟨0x59, 0x044, 9, 1, .ro, 0, 1, 0⟩
/-- LATCH DSAT0 (+0x048, 0): R281 -/
def LATCH_DSAT0 : RegField := ⟨0x59, 0x048, 0, 1, .ro, 0, 1, 0⟩
/-- LATCH DSAT1 (+0x048, 1): R281 -/
def LATCH_DSAT1 : RegField := ⟨0x59, 0x048, 1, 1, .ro, 0, 1, 0⟩
/-- LATCH UV_VGP (+0x048, 2): R280 -/
def LATCH_UV_VGP : RegField := ⟨0x59, 0x048, 2, 1, .ro, 0, 1, 0⟩
/-- LATCH UV_VGN (+0x048, 3): R280 -/
def LATCH_UV_VGN : RegField := ⟨0x59, 0x048, 3, 1, .ro, 0, 1, 0⟩
/-- LATCH UV_VDDF (+0x048, 4): R280 -/
def LATCH_UV_VDDF : RegField := ⟨0x59, 0x048, 4, 1, .ro, 0, 1, 0⟩
/-- LATCH DECK0 (+0x048, 5): Table 7-4 -/
def LATCH_DECK0 : RegField := ⟨0x59, 0x048, 5, 1, .ro, 0, 1, 0⟩
/-- LATCH DECK1 (+0x048, 6): Table 7-4 -/
def LATCH_DECK1 : RegField := ⟨0x59, 0x048, 6, 1, .ro, 0, 1, 0⟩
/-- LATCH TRIPCNT (+0x048, 11:8): Trip-count latches, as EDG_TRIP_STAT.LATCH -/
def LATCH_TRIPCNT : RegField := ⟨0x59, 0x048, 8, 4, .ro, 0, 1, 0⟩
/-- LATCH CAUSE_PRESENT (+0x048, 27:16): Bit 16+k set when latch bit k set again at the last GEN clear (R286); cleared at the next GEN clear -/
def LATCH_CAUSE_PRESENT : RegField := ⟨0x59, 0x048, 16, 12, .ro, 0, 1, 0⟩
/-- SUP VGP_TH (+0x04C, 5:0): 8.00 V + 0.25 V × value; reset 12.00 V -/
def SUP_VGP_TH : RegField := ⟨0x59, 0x04C, 0, 6, .rwl, 0x10, 1, 0⟩
/-- SUP VGN_TH (+0x04C, 13:8): Magnitude 2.00 V + 0.25 V × value; reset 2.50 V -/
def SUP_VGN_TH : RegField := ⟨0x59, 0x04C, 8, 6, .rwl, 2, 1, 0⟩
/-- SUP_MEAS VGP (+0x050, 15:0): VGP in mV, updated every 100 µs, at 100 µs, 200 µs and so on after the release of power-on reset; 0 before … -/
def SUP_MEAS_VGP : RegField := ⟨0x59, 0x050, 0, 16, .ro, 0, 1, 0⟩
/-- SUP_MEAS VGN (+0x050, 31:16): VGN in mV, signed -/
def SUP_MEAS_VGN : RegField := ⟨0x59, 0x050, 16, 16, .ro, 0, 1, 0⟩
/-- SUP_MEAS2 VDDF (+0x054, 15:0): VDDF in mV -/
def SUP_MEAS2_VDDF : RegField := ⟨0x59, 0x054, 0, 16, .ro, 0, 1, 0⟩
/-- DSAT THR (+0x080, 3:0): 3.0 V + 0.5 V × value; reset 7.0 V -/
def DSAT_THR : RegField := ⟨0x59, 0x080, 0, 4, .rwl, 8, 1, 0⟩
/-- DSAT BLANK (+0x080, 15:8): 50 ns units; reset 3 µs; below 10 stored as 10 -/
def DSAT_BLANK : RegField := ⟨0x59, 0x080, 8, 8, .rwl, 0x3C, 1, 0⟩
/-- DSAT FILT (+0x080, 19:16): 50 ns units; reset 200 ns -/
def DSAT_FILT : RegField := ⟨0x59, 0x080, 16, 4, .rwl, 4, 1, 0⟩
/-- DSAT I_SOFT (+0x080, 28:24): 50 mA × value, 1 to 20; reset 200 mA; 0 stored as 1 -/
def DSAT_I_SOFT : RegField := ⟨0x59, 0x080, 24, 5, .rwl, 4, 1, 0⟩
/-- FLT F_CARR (+0x084, 1:0): 0b00 0.5, 0b01 1.0, 0b10 1.5, 0b11 2.0 MHz -/
def FLT_F_CARR : RegField := ⟨0x59, 0x084, 0, 2, .rwl, 1, 1, 0⟩
/-- FLT REFRESH (+0x084, 15:8): µs, 1 to 255; reset 10 µs; 0 stored as 1 (R264) -/
def FLT_REFRESH : RegField := ⟨0x59, 0x084, 8, 8, .rwl, 0xA, 1, 0⟩
/-- FLT T_START (+0x084, 31:24): ms, 1 to 255; reset 2 ms; 0 stored as 1 -/
def FLT_T_START : RegField := ⟨0x59, 0x084, 24, 8, .rwl, 2, 1, 0⟩
/-- BS Q_FULL (+0x090, 15:0): 10 nC units; 0 keeps the channel NOT_READY in TRICKLE -/
def BS_Q_FULL : RegField := ⟨0x59, 0x090, 0, 16, .rwl, 0, 2, 16⟩
/-- BS QG (+0x090, 31:16): 10 nC units -/
def BS_QG : RegField := ⟨0x59, 0x090, 16, 16, .rwl, 0, 2, 16⟩
/-- BS I_REFILL (+0x094, 15:0): mA -/
def BS_I_REFILL : RegField := ⟨0x59, 0x094, 0, 16, .rwl, 0, 2, 16⟩
/-- BS I_NET (+0x094, 31:16): Signed, µA -/
def BS_I_NET : RegField := ⟨0x59, 0x094, 16, 16, .rwl, 0, 2, 16⟩
/-- BS Q_WARN (+0x098, 7:0): In 1/255 of Q_FULL -/
def BS_Q_WARN : RegField := ⟨0x59, 0x098, 0, 8, .rwl, 0x80, 2, 16⟩
/-- BS Q_CRIT (+0x098, 15:8): In 1/255 of Q_FULL -/
def BS_Q_CRIT : RegField := ⟨0x59, 0x098, 8, 8, .rwl, 0x40, 2, 16⟩
/-- BS T_REFILL (+0x098, 30:16): 10 ns units; reset 2 µs; 0 stored as 1 -/
def BS_T_REFILL : RegField := ⟨0x59, 0x098, 16, 15, .rwl, 0xC8, 2, 16⟩
/-- BS ACCOUNT (+0x09C, 7:0): floor(255 × Q / Q_FULL); 0xFF in PUMP mode; 0x00 in TRICKLE mode in NOT_READY and LATCHED (R272) -/
def BS_ACCOUNT : RegField := ⟨0x59, 0x09C, 0, 8, .ro, 0, 2, 16⟩
/-- CNT FORCED_REFILL (+0x0B0, 15:0): R272, both channels, saturating -/
def CNT_FORCED_REFILL : RegField := ⟨0x59, 0x0B0, 0, 16, .rc, 0, 1, 0⟩
/-- CNT NOT_READY (+0x0B0, 31:16): R270, saturating -/
def CNT_NOT_READY : RegField := ⟨0x59, 0x0B0, 16, 16, .rc, 0, 1, 0⟩
/-- CNT2 DSAT (+0x0B4, 7:0): Desaturations, saturating -/
def CNT2_DSAT : RegField := ⟨0x59, 0x0B4, 0, 8, .rc, 0, 1, 0⟩
/-- CNT2 UVLO (+0x0B4, 15:8): Supply and deck UVLO latchings, saturating -/
def CNT2_UVLO : RegField := ⟨0x59, 0x0B4, 8, 8, .rc, 0, 1, 0⟩
/-- CNT2 MILLER_TMO (+0x0B4, 31:16): R259, saturating -/
def CNT2_MILLER_TMO : RegField := ⟨0x59, 0x0B4, 16, 16, .rc, 0, 1, 0⟩

/-- Fields of GDR, part 1. -/
def fields1 : List RegField :=
  [GL_ON_V_PRE, GL_ON_V_EXIT, GL_ON_I_WEAK, GL_ON_PRE_BY_TIME, GL_ON_T_PRE, GL_ON_T_MILLER, GL_OFF_V_PRE, GL_OFF_V_EXIT, GL_OFF_I_WEAK, GL_OFF_PRE_BY_TIME, GL_OFF_T_PRE, GL_OFF_T_MILLER, CTL_GATE_EN, CTL_CH_EN, CTL_DECK0, CTL_DECK1, CTL_SHAPED0, CTL_SHAPED1, STAT_GEN_LVL, STAT_ENABLED, STAT_DECK_ST0, STAT_DECK_ST1, STAT_REFILL_REQ, STAT_VGP_LOW, STAT_VGN_LOW, STAT_VDDF_LOW, LATCH_DSAT0, LATCH_DSAT1, LATCH_UV_VGP, LATCH_UV_VGN, LATCH_UV_VDDF, LATCH_DECK0, LATCH_DECK1, LATCH_TRIPCNT, LATCH_CAUSE_PRESENT, SUP_VGP_TH, SUP_VGN_TH, SUP_MEAS_VGP, SUP_MEAS_VGN, SUP_MEAS2_VDDF]
/-- Fields of GDR, part 2. -/
def fields2 : List RegField :=
  [DSAT_THR, DSAT_BLANK, DSAT_FILT, DSAT_I_SOFT, FLT_F_CARR, FLT_REFRESH, FLT_T_START, BS_Q_FULL, BS_QG, BS_I_REFILL, BS_I_NET, BS_Q_WARN, BS_Q_CRIT, BS_T_REFILL, BS_ACCOUNT, CNT_FORCED_REFILL, CNT_NOT_READY, CNT2_DSAT, CNT2_UVLO, CNT2_MILLER_TMO]
/-- The fields of GDR in the order of its tables. -/
def fields : List RegField := fields1 ++ fields2

end GDR

namespace CEL

/-- STAT LIFE (+0x044, 2:0): 0b000 SELFTEST, 0b001 ROM_WAIT, 0b010 LOADING, 0b011 VERIFY, 0b100 RUNNING, 0b101 REJECTED, 0b110 … -/
def STAT_LIFE : RegField := ⟨0x5A, 0x044, 0, 3, .ro, 0, 1, 0⟩
/-- STAT CAP_PATH (+0x044, 3): 0 integrating, 1 fast (R202) -/
def STAT_CAP_PATH : RegField := ⟨0x5A, 0x044, 3, 1, .ro, 0, 1, 0⟩
/-- STAT ORPHAN_BLOCK (+0x044, 4): R206 -/
def STAT_ORPHAN_BLOCK : RegField := ⟨0x5A, 0x044, 4, 1, .ro, 0, 1, 0⟩
/-- STAT NOFLAG_BLOCK (+0x044, 5): R208 -/
def STAT_NOFLAG_BLOCK : RegField := ⟨0x5A, 0x044, 5, 1, .ro, 0, 1, 0⟩
/-- STAT OV1 (+0x044, 6): R204 -/
def STAT_OV1 : RegField := ⟨0x5A, 0x044, 6, 1, .ro, 0, 1, 0⟩
/-- STAT OV2 (+0x044, 7): R204 -/
def STAT_OV2 : RegField := ⟨0x5A, 0x044, 7, 1, .ro, 0, 1, 0⟩
/-- STAT BYPASS_ORDERED (+0x044, 8): R193 -/
def STAT_BYPASS_ORDERED : RegField := ⟨0x5A, 0x044, 8, 1, .ro, 0, 1, 0⟩
/-- STAT HB_RUN (+0x044, 9): BPH running -/
def STAT_HB_RUN : RegField := ⟨0x5A, 0x044, 9, 1, .ro, 0, 1, 0⟩
/-- STAT OT_WARN (+0x044, 10): R205 -/
def STAT_OT_WARN : RegField := ⟨0x5A, 0x044, 10, 1, .ro, 0, 1, 0⟩
/-- STAT OT_TRIP (+0x044, 11): R205 -/
def STAT_OT_TRIP : RegField := ⟨0x5A, 0x044, 11, 1, .ro, 0, 1, 0⟩
/-- STAT RECOVERY (+0x044, 12): R201 -/
def STAT_RECOVERY : RegField := ⟨0x5A, 0x044, 12, 1, .ro, 0, 1, 0⟩
/-- STAT ORPH_CNT (+0x044, 19:16): Orphan count -/
def STAT_ORPH_CNT : RegField := ⟨0x5A, 0x044, 16, 4, .ro, 0, 1, 0⟩
/-- STAT NOFLAG_CNT (+0x044, 23:20): Consecutive strides without an obeyed flag, saturating at 15 -/
def STAT_NOFLAG_CNT : RegField := ⟨0x5A, 0x044, 20, 4, .ro, 0, 1, 0⟩
/-- TIMING STRIDE (+0x048, 14:0): T in 10 ns units (R210) -/
def TIMING_STRIDE : RegField := ⟨0x5A, 0x048, 0, 15, .ro, 0x3E8, 1, 0⟩
/-- TIMING LA (+0x048, 17:16): Look-ahead, 1 to 3; 0 stored as 1 -/
def TIMING_LA : RegField := ⟨0x5A, 0x048, 16, 2, .rw, 1, 1, 0⟩
/-- CAP FORCE_FAST (+0x04C, 0): R201 -/
def CAP_FORCE_FAST : RegField := ⟨0x5A, 0x04C, 0, 1, .rw, 0, 1, 0⟩
/-- CAP AUTO_FAST (+0x04C, 1): R201 -/
def CAP_AUTO_FAST : RegField := ⟨0x5A, 0x04C, 1, 1, .rw, 1, 1, 0⟩
/-- CAP END_WIN (+0x04C, 15:8): V_END window in 10 ns units, 8 to 255; values below 8 stored as 8 -/
def CAP_END_WIN : RegField := ⟨0x5A, 0x04C, 8, 8, .rw, 0x20, 1, 0⟩
/-- CAPC_GAIN GAIN (+0x050, 31:0): Integrating-path gain, binary32; reset 1.0; writes that are not finite are discarded (R200) -/
def CAPC_GAIN : RegField := ⟨0x5A, 0x050, 0, 32, .rw, 0x3F800000, 1, 0⟩
/-- CAPC_OFS OFS (+0x054, 31:0): Integrating-path offset, signed raw counts -/
def CAPC_OFS : RegField := ⟨0x5A, 0x054, 0, 32, .rw, 0, 1, 0⟩
/-- CAPF_GAIN GAIN (+0x058, 31:0): Fast-path gain, binary32; reset 1.0; writes that are not finite are discarded (R200) -/
def CAPF_GAIN : RegField := ⟨0x5A, 0x058, 0, 32, .rw, 0x3F800000, 1, 0⟩
/-- CAPF_OFS OFS (+0x05C, 31:0): Fast-path offset, signed raw counts -/
def CAPF_OFS : RegField := ⟨0x5A, 0x05C, 0, 32, .rw, 0, 1, 0⟩
/-- OV1 THR (+0x060, 23:0): OV1 threshold, raw counts -/
def OV1_THR : RegField := ⟨0x5A, 0x060, 0, 24, .rwl, 0xE00000, 1, 0⟩
/-- OV1 HYST (+0x060, 31:24): OV1 hysteresis in 2¹² raw counts -/
def OV1_HYST : RegField := ⟨0x5A, 0x060, 24, 8, .rwl, 0x40, 1, 0⟩
/-- OV2 THR (+0x064, 23:0): OV2 threshold, raw counts -/
def OV2_THR : RegField := ⟨0x5A, 0x064, 0, 24, .rwl, 0xF00000, 1, 0⟩
/-- OV2 N (+0x064, 27:24): OV2 consecutive means, 1 to 15; 0 stored as 1 -/
def OV2_N : RegField := ⟨0x5A, 0x064, 24, 4, .rwl, 4, 1, 0⟩
/-- ORPHAN TMO_MS (+0x068, 9:0): Orphan timeout, 1 to 1 000 ms; 0 stored as 1, values above 1 000 stored as 1 000 -/
def ORPHAN_TMO_MS : RegField := ⟨0x5A, 0x068, 0, 10, .rwl, 0x32, 1, 0⟩
/-- BOOT WAIT_S (+0x06C, 7:0): Boot window, 1 to 255 s; 0 stored as 1 (R191, R192) -/
def BOOT_WAIT_S : RegField := ⟨0x5A, 0x06C, 0, 8, .rwl, 0x1E, 1, 0⟩
/-- BOOT RETRY (+0x06C, 8): 1: leave REJECTED (Table 5-1) -/
def BOOT_RETRY : RegField := ⟨0x5A, 0x06C, 8, 1, .wo, 0, 1, 0⟩
/-- BOOT MISSING (+0x06C, 31:16): Chunks still missing after BOOT_END, saturating; 0xFFFF before BOOT_END -/
def BOOT_MISSING : RegField := ⟨0x5A, 0x06C, 16, 16, .ro, 0xFFFF, 1, 0⟩
/-- TEMP SRC (+0x070, 0): 0 junction sensor, 1 CNI channel 1 through SCALE and OFS -/
def TEMP_SRC : RegField := ⟨0x5A, 0x070, 0, 1, .rw, 0, 1, 0⟩
/-- TEMP OT_WARN (+0x070, 15:8): Signed °C; reset 100 °C -/
def TEMP_OT_WARN : RegField := ⟨0x5A, 0x070, 8, 8, .rw, 0x64, 1, 0⟩
/-- TEMP OT_TRIP (+0x070, 23:16): Signed °C; reset 115 °C -/
def TEMP_OT_TRIP : RegField := ⟨0x5A, 0x070, 16, 8, .rwl, 0x73, 1, 0⟩
/-- TEMP_SCALE SCALE (+0x074, 31:0): °C per raw count of CNI channel 1, binary32 -/
def TEMP_SCALE : RegField := ⟨0x5A, 0x074, 0, 32, .rw, 0, 1, 0⟩
/-- TEMP_OFS OFS (+0x078, 31:0): °C at raw count 0, binary32 -/
def TEMP_OFS : RegField := ⟨0x5A, 0x078, 0, 32, .rw, 0, 1, 0⟩
/-- HB BPT_EN (+0x07C, 0): R194 -/
def HB_BPT_EN : RegField := ⟨0x5A, 0x07C, 0, 1, .rwl, 1, 1, 0⟩
/-- HB BPT_W (+0x07C, 15:8): BPT pulse width, 1 to 40 µs; 0 stored as 1, values above 40 stored as 40 -/
def HB_BPT_W : RegField := ⟨0x5A, 0x07C, 8, 8, .rwl, 0xA, 1, 0⟩
/-- HB BPT_HOLD (+0x07C, 23:16): BPT pulse duration in ms, 1 to 255; 0 stored as 1 -/
def HB_BPT_HOLD : RegField := ⟨0x5A, 0x07C, 16, 8, .rwl, 0x14, 1, 0⟩
/-- CNT NO_FLAG (+0x080, 15:0): Applying strides without an obeyed flag, saturating -/
def CNT_NO_FLAG : RegField := ⟨0x5A, 0x080, 0, 16, .rc, 0, 1, 0⟩
/-- CNT ORPHAN_BLK (+0x080, 31:16): Entries to orphan block or no-flag block, saturating -/
def CNT_ORPHAN_BLK : RegField := ⟨0x5A, 0x080, 16, 16, .rc, 0, 1, 0⟩

/-- Fields of CEL, part 1. -/
def fields1 : List RegField :=
  [STAT_LIFE, STAT_CAP_PATH, STAT_ORPHAN_BLOCK, STAT_NOFLAG_BLOCK, STAT_OV1, STAT_OV2, STAT_BYPASS_ORDERED, STAT_HB_RUN, STAT_OT_WARN, STAT_OT_TRIP, STAT_RECOVERY, STAT_ORPH_CNT, STAT_NOFLAG_CNT, TIMING_STRIDE, TIMING_LA, CAP_FORCE_FAST, CAP_AUTO_FAST, CAP_END_WIN, CAPC_GAIN, CAPC_OFS, CAPF_GAIN, CAPF_OFS, OV1_THR, OV1_HYST, OV2_THR, OV2_N, ORPHAN_TMO_MS, BOOT_WAIT_S, BOOT_RETRY, BOOT_MISSING, TEMP_SRC, TEMP_OT_WARN, TEMP_OT_TRIP, TEMP_SCALE, TEMP_OFS, HB_BPT_EN, HB_BPT_W, HB_BPT_HOLD, CNT_NO_FLAG, CNT_ORPHAN_BLK]
/-- The fields of CEL in the order of its tables. -/
def fields : List RegField := fields1

end CEL

namespace GRF

/-- ACTIVE_ID CHART_ID (+0x050, 31:0) -/
def ACTIVE_ID_CHART_ID : RegField := ⟨0x60, 0x050, 0, 32, .ro, 0, 4, 4⟩
/-- STAGED_ID CHART_ID (+0x060, 31:0) -/
def STAGED_ID_CHART_ID : RegField := ⟨0x60, 0x060, 0, 32, .ro, 0, 4, 4⟩
/-- CTL RUN (+0x040, 0): Run the active Chart (R324) -/
def CTL_RUN : RegField := ⟨0x60, 0x040, 0, 1, .rw, 0, 1, 0⟩
/-- CTL STAGE (+0x040, 1): 1: check the staged half (R319) -/
def CTL_STAGE : RegField := ⟨0x60, 0x040, 1, 1, .wo, 0, 1, 0⟩
/-- CTL SWAP (+0x040, 2): 1: arm a swap (R321) -/
def CTL_SWAP : RegField := ⟨0x60, 0x040, 2, 1, .wo, 0, 1, 0⟩
/-- CTL SWAP_CANCEL (+0x040, 3): 1: disarm a pending swap (R323) -/
def CTL_SWAP_CANCEL : RegField := ⟨0x60, 0x040, 3, 1, .wo, 0, 1, 0⟩
/-- CTL AT_SEQ (+0x040, 4): 1: the swap waits for GRF_SWAP_SEQ -/
def CTL_AT_SEQ : RegField := ⟨0x60, 0x040, 4, 1, .rw, 0, 1, 0⟩
/-- STAT ACTIVE_HALF (+0x044, 0): Active pair: 0 lower half and bank 0, 1 upper half and bank 1 -/
def STAT_ACTIVE_HALF : RegField := ⟨0x60, 0x044, 0, 1, .ro, 0, 1, 0⟩
/-- STAT RUNNING (+0x044, 1): The Chart runs at each boundary -/
def STAT_RUNNING : RegField := ⟨0x60, 0x044, 1, 1, .ro, 0, 1, 0⟩
/-- STAT STAGED (+0x044, 3:2): 0b00 empty, 0b01 checking, 0b10 valid, 0b11 rejected -/
def STAT_STAGED : RegField := ⟨0x60, 0x044, 2, 2, .ro, 0, 1, 0⟩
/-- STAT SWAP_PEND (+0x044, 4): A swap is armed -/
def STAT_SWAP_PEND : RegField := ⟨0x60, 0x044, 4, 1, .ro, 0, 1, 0⟩
/-- STAT ACTIVE_VALID (+0x044, 5): A checked Chart is active -/
def STAT_ACTIVE_VALID : RegField := ⟨0x60, 0x044, 5, 1, .ro, 0, 1, 0⟩
/-- STAT REJECT (+0x044, 15:8): Code of the last rejection, Table 8-8 -/
def STAT_REJECT : RegField := ⟨0x60, 0x044, 8, 8, .ro, 0, 1, 0⟩
/-- STAT N_DESC (+0x044, 28:16): Descriptors of the active Chart -/
def STAT_N_DESC : RegField := ⟨0x60, 0x044, 16, 13, .ro, 0, 1, 0⟩
/-- SWAP_SEQ SEQ (+0x048, 31:0): Swap boundary when AT_SEQ is set -/
def SWAP_SEQ : RegField := ⟨0x60, 0x048, 0, 32, .rw, 0, 1, 0⟩
/-- LEGEND VERSION (+0x04C, 15:0): Legend version: major [15:8], minor [7:0] -/
def LEGEND_VERSION : RegField := ⟨0x60, 0x04C, 0, 16, .ro, 0x100, 1, 0⟩
/-- DL LAST_END (+0x070, 15:0): Last stride: completion of the last stride operation with POST clear, 10 ns units after the boundary; … -/
def DL_LAST_END : RegField := ⟨0x60, 0x070, 0, 16, .ro, 0, 1, 0⟩
/-- DL PEAK_END (+0x070, 31:16): Largest LAST_END since the last read -/
def DL_PEAK_END : RegField := ⟨0x60, 0x070, 16, 16, .rc, 0, 1, 0⟩
/-- CNT DL_MISS (+0x074, 15:0): R316, saturating -/
def CNT_DL_MISS : RegField := ⟨0x60, 0x074, 0, 16, .rc, 0, 1, 0⟩
/-- CNT OVERRUN (+0x074, 31:16): R317, saturating -/
def CNT_OVERRUN : RegField := ⟨0x60, 0x074, 16, 16, .rc, 0, 1, 0⟩
/-- CNT2 HOST_COLLIDE (+0x078, 15:0): R294, saturating -/
def CNT2_HOST_COLLIDE : RegField := ⟨0x60, 0x078, 0, 16, .rc, 0, 1, 0⟩
/-- CNT2 SWAPS (+0x078, 23:16): Swaps done, saturating -/
def CNT2_SWAPS : RegField := ⟨0x60, 0x078, 16, 8, .rc, 0, 1, 0⟩
/-- CNT2 REJECTS (+0x078, 31:24): Stage rejections, saturating -/
def CNT2_REJECTS : RegField := ⟨0x60, 0x078, 24, 8, .rc, 0, 1, 0⟩
/-- PLOT BUSY (+0x07C, 15:0): Plotters executing, one bit per Plotter -/
def PLOT_BUSY : RegField := ⟨0x60, 0x07C, 0, 16, .ro, 0, 1, 0⟩
/-- PLOT PEAK (+0x07C, 20:16): Most Plotters executing at once since the last read -/
def PLOT_PEAK : RegField := ⟨0x60, 0x07C, 16, 5, .rc, 0, 1, 0⟩
/-- COEF_ADDR WORD (+0x080, 15:0): Word offset in the active coefficient bank for the next GRF_COEF_DATA write -/
def COEF_ADDR_WORD : RegField := ⟨0x60, 0x080, 0, 16, .rw, 0, 1, 0⟩
/-- COEF_ADDR AUTOINC (+0x080, 31): 1: WORD advances by 1, modulo 65 536, after each GRF_COEF_DATA write -/
def COEF_ADDR_AUTOINC : RegField := ⟨0x60, 0x080, 31, 1, .rw, 0, 1, 0⟩
/-- COEF_DATA DATA (+0x084, 31:0): Enqueues WORD and DATA (R358, R360) -/
def COEF_DATA : RegField := ⟨0x60, 0x084, 0, 32, .wo, 0, 1, 0⟩
/-- COEF_STAT DEPTH (+0x088, 8:0): Entries queued, 0 to 256 -/
def COEF_STAT_DEPTH : RegField := ⟨0x60, 0x088, 0, 9, .ro, 0, 1, 0⟩
/-- COEF_STAT APPLIED (+0x088, 20:16): Entries applied at the last boundary, 0 to 16 -/
def COEF_STAT_APPLIED : RegField := ⟨0x60, 0x088, 16, 5, .ro, 0, 1, 0⟩
/-- FBL HOLD (+0x08C, 7:0): Hold limit in runs, 0 to 255 (R355) -/
def FBL_HOLD : RegField := ⟨0x60, 0x08C, 0, 8, .rw, 2, 1, 0⟩
/-- FBL STOP_EN (+0x08C, 8): CONTROL_FEEDBACK_LOST acts as a stop source (R356) -/
def FBL_STOP_EN : RegField := ⟨0x60, 0x08C, 8, 1, .rw, 1, 1, 0⟩
/-- FBL GROUPS (+0x08C, 27:16): Arm groups stopped by CONTROL_FEEDBACK_LOST -/
def FBL_GROUPS : RegField := ⟨0x60, 0x08C, 16, 12, .rw, 0xFFF, 1, 0⟩
/-- FBL_STAT CFL (+0x090, 0): CONTROL_FEEDBACK_LOST raised (R356, R357) -/
def FBL_STAT_CFL : RegField := ⟨0x60, 0x090, 0, 1, .w1c, 0, 1, 0⟩
/-- FBL_STAT STOP_ACTIVE (+0x090, 1): Stop source of R356 in force -/
def FBL_STAT_STOP_ACTIVE : RegField := ⟨0x60, 0x090, 1, 1, .ro, 0, 1, 0⟩
/-- FBL_STAT DESC (+0x090, 27:16): Descriptor recorded under R356 -/
def FBL_STAT_DESC : RegField := ⟨0x60, 0x090, 16, 12, .ro, 0, 1, 0⟩
/-- LGD_EVT LINE (+0x094, 15:0): Host event lines set by CMP (R352) -/
def LGD_EVT_LINE : RegField := ⟨0x60, 0x094, 0, 16, .w1c, 0, 1, 0⟩
/-- LGD_CNT NUM_FAULT (+0x098, 15:0): R332, R338, R339, saturating -/
def LGD_CNT_NUM_FAULT : RegField := ⟨0x60, 0x098, 0, 16, .rc, 0, 1, 0⟩
/-- LGD_CNT COEF_DROP (+0x098, 23:16): R362, saturating -/
def LGD_CNT_COEF_DROP : RegField := ⟨0x60, 0x098, 16, 8, .rc, 0, 1, 0⟩
/-- LGD_CNT COEF_WAIT (+0x098, 31:24): R360, R361, saturating -/
def LGD_CNT_COEF_WAIT : RegField := ⟨0x60, 0x098, 24, 8, .rc, 0, 1, 0⟩
/-- STOPREQ GROUPS (+0x09C, 11:0): Groups with the Chart-ordered stop source set (R353) -/
def STOPREQ_GROUPS : RegField := ⟨0x60, 0x09C, 0, 12, .ro, 0, 1, 0⟩

/-- Fields of GRF, part 1. -/
def fields1 : List RegField :=
  [ACTIVE_ID_CHART_ID, STAGED_ID_CHART_ID, CTL_RUN, CTL_STAGE, CTL_SWAP, CTL_SWAP_CANCEL, CTL_AT_SEQ, STAT_ACTIVE_HALF, STAT_RUNNING, STAT_STAGED, STAT_SWAP_PEND, STAT_ACTIVE_VALID, STAT_REJECT, STAT_N_DESC, SWAP_SEQ, LEGEND_VERSION, DL_LAST_END, DL_PEAK_END, CNT_DL_MISS, CNT_OVERRUN, CNT2_HOST_COLLIDE, CNT2_SWAPS, CNT2_REJECTS, PLOT_BUSY, PLOT_PEAK, COEF_ADDR_WORD, COEF_ADDR_AUTOINC, COEF_DATA, COEF_STAT_DEPTH, COEF_STAT_APPLIED, FBL_HOLD, FBL_STOP_EN, FBL_GROUPS, FBL_STAT_CFL, FBL_STAT_STOP_ACTIVE, FBL_STAT_DESC, LGD_EVT_LINE, LGD_CNT_NUM_FAULT, LGD_CNT_COEF_DROP, LGD_CNT_COEF_WAIT]
/-- Fields of GRF, part 2. -/
def fields2 : List RegField :=
  [STOPREQ_GROUPS]
/-- The fields of GRF in the order of its tables. -/
def fields : List RegField := fields1 ++ fields2

end GRF

namespace GRS

/-- CANCEL IDX (+0x040, 11:0): Descriptor to cancel; the write acts (R311) -/
def CANCEL_IDX : RegField := ⟨0x61, 0x040, 0, 12, .wo, 0, 1, 0⟩
/-- STAT EXEC (+0x044, 4:0): Operations executing, 0 to 16 -/
def STAT_EXEC : RegField := ⟨0x61, 0x044, 0, 5, .ro, 0, 1, 0⟩
/-- STAT WAITING (+0x044, 15:8): Operations waiting, 0 to 128 -/
def STAT_WAITING : RegField := ⟨0x61, 0x044, 8, 8, .ro, 0, 1, 0⟩
/-- STAT PEAK_WAIT (+0x044, 23:16): Most operations waiting since the last read -/
def STAT_PEAK_WAIT : RegField := ⟨0x61, 0x044, 16, 8, .rc, 0, 1, 0⟩
/-- RDY NONEMPTY (+0x048, 31:0): Bit n: RDYn holds an entry -/
def RDY_NONEMPTY : RegField := ⟨0x61, 0x048, 0, 32, .ro, 0, 1, 0⟩
/-- CNT WAIT_FULL (+0x04C, 15:0): R305, R314, saturating -/
def CNT_WAIT_FULL : RegField := ⟨0x61, 0x04C, 0, 16, .rc, 0, 1, 0⟩
/-- CNT WAIT_TMO (+0x04C, 31:16): R308, saturating -/
def CNT_WAIT_TMO : RegField := ⟨0x61, 0x04C, 16, 16, .rc, 0, 1, 0⟩
/-- CNT2 SKIPPED (+0x050, 15:0): R313, saturating -/
def CNT2_SKIPPED : RegField := ⟨0x61, 0x050, 0, 16, .rc, 0, 1, 0⟩
/-- CNT2 CANCEL_LATE (+0x050, 31:16): R311, saturating -/
def CNT2_CANCEL_LATE : RegField := ⟨0x61, 0x050, 16, 16, .rc, 0, 1, 0⟩
/-- CNT3 PREEMPT (+0x054, 15:0): R304, saturating -/
def CNT3_PREEMPT : RegField := ⟨0x61, 0x054, 0, 16, .rc, 0, 1, 0⟩
/-- CNT3 GUARDED (+0x054, 31:16): R310, saturating -/
def CNT3_GUARDED : RegField := ⟨0x61, 0x054, 16, 16, .rc, 0, 1, 0⟩
/-- QUERY IDX (+0x058, 11:0): Descriptor queried -/
def QUERY_IDX : RegField := ⟨0x61, 0x058, 0, 12, .rw, 0, 1, 0⟩
/-- QUERY STATE (+0x058, 18:16): Present run: 0b000 counter above 0, 0b001 ready, 0b010 executing, 0b011 waiting, 0b100 completed, 0b101 … -/
def QUERY_STATE : RegField := ⟨0x61, 0x058, 16, 3, .ro, 0, 1, 0⟩
/-- QUERY SKIP_IN (+0x058, 19): A skip marker has been received (R313) -/
def QUERY_SKIP_IN : RegField := ⟨0x61, 0x058, 19, 1, .ro, 0, 1, 0⟩
/-- QUERY TMO (+0x058, 20): Running with the TMO mark (R308) -/
def QUERY_TMO : RegField := ⟨0x61, 0x058, 20, 1, .ro, 0, 1, 0⟩

/-- Fields of GRS, part 1. -/
def fields1 : List RegField :=
  [CANCEL_IDX, STAT_EXEC, STAT_WAITING, STAT_PEAK_WAIT, RDY_NONEMPTY, CNT_WAIT_FULL, CNT_WAIT_TMO, CNT2_SKIPPED, CNT2_CANCEL_LATE, CNT3_PREEMPT, CNT3_GUARDED, QUERY_IDX, QUERY_STATE, QUERY_SKIP_IN, QUERY_TMO]
/-- The fields of GRS in the order of its tables. -/
def fields : List RegField := fields1

end GRS

namespace AXS

/-- LT_POP ENTRY (+0x0D0, 31:0) -/
def LT_POP_ENTRY : RegField := ⟨0x68, 0x0D0, 0, 32, .ro, 0, 4, 4⟩
/-- CFG KIND (+0x040, 1:0): Table 10-1 -/
def CFG_KIND : RegField := ⟨0x68, 0x040, 0, 2, .rwl, 0, 1, 0⟩
/-- CFG FBK (+0x040, 4:2): Feedback interface of a mechanical axis -/
def CFG_FBK : RegField := ⟨0x68, 0x040, 2, 3, .rwl, 0, 1, 0⟩
/-- CFG ESRC (+0x040, 5): Electrical: 0 PLL, 1 gear law (R365, R366) -/
def CFG_ESRC : RegField := ⟨0x68, 0x040, 5, 1, .rwl, 0, 1, 0⟩
/-- CFG WRAP_EN (+0x040, 6): R364 -/
def CFG_WRAP_EN : RegField := ⟨0x68, 0x040, 6, 1, .rwl, 1, 1, 0⟩
/-- CFG POLICY (+0x040, 7): 0 shortest path, 1 direction-preserving (R375) -/
def CFG_POLICY : RegField := ⟨0x68, 0x040, 7, 1, .rw, 0, 1, 0⟩
/-- WRAP W (+0x044, 31:0): Counts per revolution, 2 to 2³¹; below 2 stored as 2, above 2³¹ as 2³¹ -/
def WRAP_W : RegField := ⟨0x68, 0x044, 0, 32, .rwl, 0x2000, 1, 0⟩
/-- CTL PUSH (+0x048, 0): Table 10-3 -/
def CTL_PUSH : RegField := ⟨0x68, 0x048, 0, 1, .wo, 0, 1, 0⟩
/-- CTL REPLACE (+0x048, 1): Table 10-3 -/
def CTL_REPLACE : RegField := ⟨0x68, 0x048, 1, 1, .wo, 0, 1, 0⟩
/-- CTL STOP (+0x048, 2): Table 10-3 -/
def CTL_STOP : RegField := ⟨0x68, 0x048, 2, 1, .wo, 0, 1, 0⟩
/-- CTL FLUSH (+0x048, 3): Table 10-3 -/
def CTL_FLUSH : RegField := ⟨0x68, 0x048, 3, 1, .wo, 0, 1, 0⟩
/-- CTL GEAR_IN (+0x048, 4): R387 -/
def CTL_GEAR_IN : RegField := ⟨0x68, 0x048, 4, 1, .wo, 0, 1, 0⟩
/-- CTL GEAR_OUT (+0x048, 5): R390 -/
def CTL_GEAR_OUT : RegField := ⟨0x68, 0x048, 5, 1, .wo, 0, 1, 0⟩
/-- CTL FBL_CLR (+0x048, 6): Table 10-4, R394 -/
def CTL_FBL_CLR : RegField := ⟨0x68, 0x048, 6, 1, .wo, 0, 1, 0⟩
/-- STAT PROFILE (+0x04C, 1:0): 0b00 holding, 0b01 moving to a target, 0b10 velocity move, 0b11 geared -/
def STAT_PROFILE : RegField := ⟨0x68, 0x04C, 0, 2, .ro, 0, 1, 0⟩
/-- STAT GEAR (+0x04C, 3:2): 0b00 off, 0b01 CATCHING, 0b10 LOCKED -/
def STAT_GEAR : RegField := ⟨0x68, 0x04C, 2, 2, .ro, 0, 1, 0⟩
/-- STAT FBL (+0x04C, 5:4): 0b00 NORMAL, 0b01 ESTIMATE, 0b10 RAMP, 0b11 OPEN -/
def STAT_FBL : RegField := ⟨0x68, 0x04C, 4, 2, .ro, 0, 1, 0⟩
/-- STAT DIR (+0x04C, 6): Direction of the profile velocity, 1 negative; electrical axes: R367 -/
def STAT_DIR : RegField := ⟨0x68, 0x04C, 6, 1, .ro, 0, 1, 0⟩
/-- STAT REVERSING (+0x04C, 7): R374 -/
def STAT_REVERSING : RegField := ⟨0x68, 0x04C, 7, 1, .ro, 0, 1, 0⟩
/-- STAT OVERSHOOT_PLANNED (+0x04C, 8): R374 -/
def STAT_OVERSHOOT_PLANNED : RegField := ⟨0x68, 0x04C, 8, 1, .ro, 0, 1, 0⟩
/-- STAT LIMIT_DEFERRED (+0x04C, 9): R376 -/
def STAT_LIMIT_DEFERRED : RegField := ⟨0x68, 0x04C, 9, 1, .ro, 0, 1, 0⟩
/-- STAT VEL_ABOVE (+0x04C, 10): R377 -/
def STAT_VEL_ABOVE : RegField := ⟨0x68, 0x04C, 10, 1, .ro, 0, 1, 0⟩
/-- STAT QDEPTH (+0x04C, 15:11): Moves queued, 0 to 16 -/
def STAT_QDEPTH : RegField := ⟨0x68, 0x04C, 11, 5, .ro, 0, 1, 0⟩
/-- VMAX VMAX (+0x050, 31:0): Velocity limit, binary32 -/
def VMAX : RegField := ⟨0x68, 0x050, 0, 32, .rw, 0, 1, 0⟩
/-- AMAX AMAX (+0x054, 31:0): Acceleration limit, binary32 -/
def AMAX : RegField := ⟨0x68, 0x054, 0, 32, .rw, 0, 1, 0⟩
/-- DMAX DMAX (+0x058, 31:0): Deceleration limit, binary32 -/
def DMAX : RegField := ⟨0x68, 0x058, 0, 32, .rw, 0, 1, 0⟩
/-- JMAX JMAX (+0x05C, 31:0): Jerk limit, binary32 -/
def JMAX : RegField := ⟨0x68, 0x05C, 0, 32, .rw, 0, 1, 0⟩
/-- DABS DABS (+0x060, 31:0): Absolute deceleration maximum, binary32 (R376) -/
def DABS : RegField := ⟨0x68, 0x060, 0, 32, .rwl, 0, 1, 0⟩
/-- MV_TGT_LO TGT_LO (+0x064, 31:0): Target or distance, binary64 bits 31:0; velocity mode: v_target -/
def MV_TGT_LO : RegField := ⟨0x68, 0x064, 0, 32, .rw, 0, 1, 0⟩
/-- MV_TGT_HI TGT_HI (+0x068, 31:0): Binary64 bits 63:32 -/
def MV_TGT_HI : RegField := ⟨0x68, 0x068, 0, 32, .rw, 0, 1, 0⟩
/-- MV_V V (+0x06C, 31:0): Move velocity limit, binary32; 0 or above VMAX selects VMAX -/
def MV_V : RegField := ⟨0x68, 0x06C, 0, 32, .rw, 0, 1, 0⟩
/-- MV_CTL MODE (+0x070, 1:0): 0b00 absolute, 0b01 relative, 0b10 velocity, 0b11 reserved (refused) -/
def MV_CTL_MODE : RegField := ⟨0x68, 0x070, 0, 2, .rw, 0, 1, 0⟩
/-- MV_CTL BLEND (+0x070, 2): R381 -/
def MV_CTL_BLEND : RegField := ⟨0x68, 0x070, 2, 1, .rw, 0, 1, 0⟩
/-- MV_CTL SYNC (+0x070, 7:4): Coordination tag, 0 for none (R383) -/
def MV_CTL_SYNC : RegField := ⟨0x68, 0x070, 4, 4, .rw, 0, 1, 0⟩
/-- MV_CTL SYNC_N (+0x070, 11:8): Axes in the group, 2 to 16, with 0 meaning 16 -/
def MV_CTL_SYNC_N : RegField := ⟨0x68, 0x070, 8, 4, .rw, 0, 1, 0⟩
/-- SIG_SP SP_POS (+0x074, 15:0): Signal index (R369); 0xFFFF not written -/
def SIG_SP_SP_POS : RegField := ⟨0x68, 0x074, 0, 16, .rw, 0xFFFF, 1, 0⟩
/-- SIG_SP SP_VEL (+0x074, 31:16): As SP_POS -/
def SIG_SP_SP_VEL : RegField := ⟨0x68, 0x074, 16, 16, .rw, 0xFFFF, 1, 0⟩
/-- SIG_SP2 SP_ACC (+0x078, 15:0): As SP_POS -/
def SIG_SP2_SP_ACC : RegField := ⟨0x68, 0x078, 0, 16, .rw, 0xFFFF, 1, 0⟩
/-- SIG_SP2 ERR (+0x078, 31:16): As SP_POS -/
def SIG_SP2_ERR : RegField := ⟨0x68, 0x078, 16, 16, .rw, 0xFFFF, 1, 0⟩
/-- SIG_ACT ACT_POS (+0x07C, 15:0): As SP_POS -/
def SIG_ACT_ACT_POS : RegField := ⟨0x68, 0x07C, 0, 16, .rw, 0xFFFF, 1, 0⟩
/-- SIG_ACT ACT_VEL (+0x07C, 31:16): As SP_POS -/
def SIG_ACT_ACT_VEL : RegField := ⟨0x68, 0x07C, 16, 16, .rw, 0xFFFF, 1, 0⟩
/-- SIG_CTL I_CAP (+0x080, 15:0): As SP_POS -/
def SIG_CTL_I_CAP : RegField := ⟨0x68, 0x080, 0, 16, .rw, 0xFFFF, 1, 0⟩
/-- SIG_CTL LOOP (+0x080, 31:16): As SP_POS -/
def SIG_CTL_LOOP : RegField := ⟨0x68, 0x080, 16, 16, .rw, 0xFFFF, 1, 0⟩
/-- GEAR MASTER (+0x084, 3:0): Master axis (R385, R386) -/
def GEAR_MASTER : RegField := ⟨0x68, 0x084, 0, 4, .rw, 0, 1, 0⟩
/-- GEAR SRC (+0x084, 4): 0 master profile, 1 master actual -/
def GEAR_SRC : RegField := ⟨0x68, 0x084, 4, 1, .rw, 0, 1, 0⟩
/-- GEAR_NUM NUM (+0x088, 31:0): Signed ratio numerator -/
def GEAR_NUM : RegField := ⟨0x68, 0x088, 0, 32, .rw, 1, 1, 0⟩
/-- GEAR_DEN DEN (+0x08C, 31:0): Ratio denominator, 1 to 2³¹−1; 0 and negative values stored as 1 -/
def GEAR_DEN : RegField := ⟨0x68, 0x08C, 0, 32, .rw, 1, 1, 0⟩
/-- GEAR_OFS OFS_LO (+0x090, 31:0): OFS, binary64, bits 31:0 and 63:32 -/
def GEAR_OFS_OFS_LO : RegField := ⟨0x68, 0x090, 0, 32, .rw, 0, 1, 0⟩
/-- GEAR_OFS OFS_HI (+0x094, 31:0): OFS, binary64, bits 31:0 and 63:32 -/
def GEAR_OFS_OFS_HI : RegField := ⟨0x68, 0x094, 0, 32, .rw, 0, 1, 0⟩
/-- FBL STALE_HOLD (+0x098, 7:0): Steps in ESTIMATE, 0 to 255 (R391) -/
def FBL_STALE_HOLD : RegField := ⟨0x68, 0x098, 0, 8, .rw, 4, 1, 0⟩
/-- I_RAMP I_RAMP (+0x09C, 31:0): I_CAP fall rate per second, binary32; 0 immediate (R393) -/
def I_RAMP : RegField := ⟨0x68, 0x09C, 0, 32, .rw, 0, 1, 0⟩
/-- I_NOM I_NOM (+0x0A0, 31:0): I_CAP in NORMAL and ESTIMATE, binary32; 0 allows no current -/
def I_NOM : RegField := ⟨0x68, 0x0A0, 0, 32, .rw, 0, 1, 0⟩
/-- POS_LO POS_LO (+0x0A4, 31:0): Unwrapped profile position at the last published point, binary64 -/
def POS_LO : RegField := ⟨0x68, 0x0A4, 0, 32, .ro, 0, 1, 0⟩
/-- POS_HI POS_HI (+0x0A8, 31:0): Unwrapped profile position at the last published point, binary64 -/
def POS_HI : RegField := ⟨0x68, 0x0A8, 0, 32, .ro, 0, 1, 0⟩
/-- VEL VEL (+0x0AC, 31:0): Profile velocity, binary32 -/
def VEL : RegField := ⟨0x68, 0x0AC, 0, 32, .ro, 0, 1, 0⟩
/-- ACC ACC (+0x0B0, 31:0): Profile acceleration, binary32 -/
def ACC : RegField := ⟨0x68, 0x0B0, 0, 32, .ro, 0, 1, 0⟩
/-- BEARING BEARING (+0x0B4, 31:0): Bearing at the read -/
def BEARING : RegField := ⟨0x68, 0x0B4, 0, 32, .ro, 0, 1, 0⟩
/-- CNT MOVE_WAIT (+0x0B8, 15:0): R379, saturating -/
def CNT_MOVE_WAIT : RegField := ⟨0x68, 0x0B8, 0, 16, .rc, 0, 1, 0⟩
/-- CNT STARVED (+0x0B8, 31:16): R382, saturating -/
def CNT_STARVED : RegField := ⟨0x68, 0x0B8, 16, 16, .rc, 0, 1, 0⟩
/-- CNT2 REFUSED (+0x0BC, 7:0): R373, saturating -/
def CNT2_REFUSED : RegField := ⟨0x68, 0x0BC, 0, 8, .rc, 0, 1, 0⟩
/-- CNT2 LIMIT_DEFERRED (+0x0BC, 15:8): R376, saturating -/
def CNT2_LIMIT_DEFERRED : RegField := ⟨0x68, 0x0BC, 8, 8, .rc, 0, 1, 0⟩
/-- CNT2 GEAR_SLIP (+0x0BC, 23:16): R388, saturating -/
def CNT2_GEAR_SLIP : RegField := ⟨0x68, 0x0BC, 16, 8, .rc, 0, 1, 0⟩
/-- CNT2 FBL (+0x0BC, 31:24): Entries to ESTIMATE, saturating -/
def CNT2_FBL : RegField := ⟨0x68, 0x0BC, 24, 8, .rc, 0, 1, 0⟩
/-- DATUM VALUE (+0x0C0, 31:0): Bearing given at the Datum event (R410) -/
def DATUM_VALUE : RegField := ⟨0x68, 0x0C0, 0, 32, .rw, 0, 1, 0⟩
/-- DATUM_CTL SRC (+0x0C4, 3:0): 0x1 now, 0x2 index, 0x8 to 0xF LT0 to LT7; others none -/
def DATUM_CTL_SRC : RegField := ⟨0x68, 0x0C4, 0, 4, .rw, 0, 1, 0⟩
/-- DATUM_CTL EDGE (+0x0C4, 5:4): LT polarity: 0b00 rising, 0b01 falling, 0b10 both -/
def DATUM_CTL_EDGE : RegField := ⟨0x68, 0x0C4, 4, 2, .rw, 0, 1, 0⟩
/-- DATUM_CTL ARM (+0x0C4, 6): 1: arm once -/
def DATUM_CTL_ARM : RegField := ⟨0x68, 0x0C4, 6, 1, .wo, 0, 1, 0⟩
/-- DATUM_CTL PENDING (+0x0C4, 7): Armed, not yet set -/
def DATUM_CTL_PENDING : RegField := ⟨0x68, 0x0C4, 7, 1, .ro, 0, 1, 0⟩
/-- DATUM_CTL VALID (+0x0C4, 8): R408, R410, R412 -/
def DATUM_CTL_VALID : RegField := ⟨0x68, 0x0C4, 8, 1, .ro, 0, 1, 0⟩
/-- DATUM_CTL DATUM_CNT (+0x0C4, 10:9): R410 -/
def DATUM_CTL_DATUM_CNT : RegField := ⟨0x68, 0x0C4, 9, 2, .ro, 0, 1, 0⟩
/-- LT_CFG IDX_EN (+0x0C8, 0): Latch on index -/
def LT_CFG_IDX_EN : RegField := ⟨0x68, 0x0C8, 0, 1, .rw, 0, 1, 0⟩
/-- LT_CFG LT_EN (+0x0C8, 8:1): Latch on LT0 to LT7 -/
def LT_CFG_LT_EN : RegField := ⟨0x68, 0x0C8, 1, 8, .rw, 0, 1, 0⟩
/-- LT_CFG LT_EDGE (+0x0C8, 10:9): As AXS_DATUM_CTL.EDGE -/
def LT_CFG_LT_EDGE : RegField := ⟨0x68, 0x0C8, 9, 2, .rw, 0, 1, 0⟩
/-- LT_CFG SW_LATCH (+0x0C8, 11): 1: software latch -/
def LT_CFG_SW_LATCH : RegField := ⟨0x68, 0x0C8, 11, 1, .wo, 0, 1, 0⟩
/-- LT_STAT COUNT (+0x0CC, 4:0): Entries held, 0 to 16 -/
def LT_STAT_COUNT : RegField := ⟨0x68, 0x0CC, 0, 5, .ro, 0, 1, 0⟩
/-- LT_STAT OVF (+0x0CC, 8): R415 -/
def LT_STAT_OVF : RegField := ⟨0x68, 0x0CC, 8, 1, .w1c, 0, 1, 0⟩
/-- LT_STAT LT_LOST (+0x0CC, 31:16): R415, saturating -/
def LT_STAT_LT_LOST : RegField := ⟨0x68, 0x0CC, 16, 16, .rc, 0, 1, 0⟩
/-- CMP P (+0x0E0, 31:0): Compare position -/
def CMP_P : RegField := ⟨0x68, 0x0E0, 0, 32, .rw, 0, 2, 16⟩
/-- CMP STEP (+0x0E4, 31:0): Signed re-arm step; 0 one-shot -/
def CMP_STEP : RegField := ⟨0x68, 0x0E4, 0, 32, .rw, 0, 2, 16⟩
/-- CMP ARM (+0x0E8, 0): 1: arm (R417) -/
def CMP_ARM : RegField := ⟨0x68, 0x0E8, 0, 1, .wo, 0, 2, 16⟩
/-- CMP DIR (+0x0E8, 2:1): R416; 0b11 stored as 0b00 -/
def CMP_DIR : RegField := ⟨0x68, 0x0E8, 1, 2, .rw, 0, 2, 16⟩
/-- CMP PASSED_FIRES (+0x0E8, 3): R417 -/
def CMP_PASSED_FIRES : RegField := ⟨0x68, 0x0E8, 3, 1, .rw, 0, 2, 16⟩
/-- CMP LATCH (+0x0E8, 4): Store a latch entry at each firing -/
def CMP_LATCH : RegField := ⟨0x68, 0x0E8, 4, 1, .rw, 0, 2, 16⟩
/-- CMP ARMED (+0x0EC, 0): Compare armed -/
def CMP_ARMED : RegField := ⟨0x68, 0x0EC, 0, 1, .ro, 0, 2, 16⟩
/-- CMP BEHIND (+0x0EC, 1): Armed behind (R417) -/
def CMP_BEHIND : RegField := ⟨0x68, 0x0EC, 1, 1, .ro, 0, 2, 16⟩
/-- CMP FIRED (+0x0EC, 2): Set at each firing -/
def CMP_FIRED : RegField := ⟨0x68, 0x0EC, 2, 1, .w1c, 0, 2, 16⟩
/-- VEL_MEAS V (+0x100, 31:0): v at the last boundary, counts/s, binary32 (R419) -/
def VEL_MEAS_V : RegField := ⟨0x68, 0x100, 0, 32, .ro, 0, 1, 0⟩
/-- VEL_STAT VEL_UNSETTLED (+0x104, 0): R419 -/
def VEL_STAT_VEL_UNSETTLED : RegField := ⟨0x68, 0x104, 0, 1, .ro, 1, 1, 0⟩
/-- VEL_STAT DIR (+0x104, 1): Direction flag, 1 negative (R418) -/
def VEL_STAT_DIR : RegField := ⟨0x68, 0x104, 1, 1, .ro, 0, 1, 0⟩
/-- VEL_STAT STALE (+0x104, 2): R421 -/
def VEL_STAT_STALE : RegField := ⟨0x68, 0x104, 2, 1, .ro, 0, 1, 0⟩

/-- Fields of AXS, part 1. -/
def fields1 : List RegField :=
  [LT_POP_ENTRY, CFG_KIND, CFG_FBK, CFG_ESRC, CFG_WRAP_EN, CFG_POLICY, WRAP_W, CTL_PUSH, CTL_REPLACE, CTL_STOP, CTL_FLUSH, CTL_GEAR_IN, CTL_GEAR_OUT, CTL_FBL_CLR, STAT_PROFILE, STAT_GEAR, STAT_FBL, STAT_DIR, STAT_REVERSING, STAT_OVERSHOOT_PLANNED, STAT_LIMIT_DEFERRED, STAT_VEL_ABOVE, STAT_QDEPTH, VMAX, AMAX, DMAX, JMAX, DABS, MV_TGT_LO, MV_TGT_HI, MV_V, MV_CTL_MODE, MV_CTL_BLEND, MV_CTL_SYNC, MV_CTL_SYNC_N, SIG_SP_SP_POS, SIG_SP_SP_VEL, SIG_SP2_SP_ACC, SIG_SP2_ERR, SIG_ACT_ACT_POS]
/-- Fields of AXS, part 2. -/
def fields2 : List RegField :=
  [SIG_ACT_ACT_VEL, SIG_CTL_I_CAP, SIG_CTL_LOOP, GEAR_MASTER, GEAR_SRC, GEAR_NUM, GEAR_DEN, GEAR_OFS_OFS_LO, GEAR_OFS_OFS_HI, FBL_STALE_HOLD, I_RAMP, I_NOM, POS_LO, POS_HI, VEL, ACC, BEARING, CNT_MOVE_WAIT, CNT_STARVED, CNT2_REFUSED, CNT2_LIMIT_DEFERRED, CNT2_GEAR_SLIP, CNT2_FBL, DATUM_VALUE, DATUM_CTL_SRC, DATUM_CTL_EDGE, DATUM_CTL_ARM, DATUM_CTL_PENDING, DATUM_CTL_VALID, DATUM_CTL_DATUM_CNT, LT_CFG_IDX_EN, LT_CFG_LT_EN, LT_CFG_LT_EDGE, LT_CFG_SW_LATCH, LT_STAT_COUNT, LT_STAT_OVF, LT_STAT_LT_LOST, CMP_P, CMP_STEP, CMP_ARM]
/-- Fields of AXS, part 3. -/
def fields3 : List RegField :=
  [CMP_DIR, CMP_PASSED_FIRES, CMP_LATCH, CMP_ARMED, CMP_BEHIND, CMP_FIRED, VEL_MEAS_V, VEL_STAT_VEL_UNSETTLED, VEL_STAT_DIR, VEL_STAT_STALE]
/-- The fields of AXS in the order of its tables. -/
def fields : List RegField := fields1 ++ fields2 ++ fields3

end AXS

namespace FBK

/-- CFG TYPE (+0x040, 1:0): 0b00 off, 0b01 ABZ, 0b10 Hall, 0b11 SSI -/
def CFG_TYPE : RegField := ⟨0x78, 0x040, 0, 2, .rwl, 0, 1, 0⟩
/-- CFG QMODE (+0x040, 3:2): 0b00 x4, 0b01 x2, 0b10 x1; 0b11 stored as 0b00 (R401) -/
def CFG_QMODE : RegField := ⟨0x78, 0x040, 2, 2, .rwl, 0, 1, 0⟩
/-- CFG Z_GATE (+0x040, 5:4): R403 -/
def CFG_Z_GATE : RegField := ⟨0x78, 0x040, 4, 2, .rwl, 0, 1, 0⟩
/-- CFG INV (+0x040, 8:6): Invert A, B, Z -/
def CFG_INV : RegField := ⟨0x78, 0x040, 6, 3, .rwl, 0, 1, 0⟩
/-- CFG QERR_LOST (+0x040, 9): R404 -/
def CFG_QERR_LOST : RegField := ⟨0x78, 0x040, 9, 1, .rw, 0, 1, 0⟩
/-- CFG LF_EN (+0x040, 10): R399 -/
def CFG_LF_EN : RegField := ⟨0x78, 0x040, 10, 1, .rw, 1, 1, 0⟩
/-- CFG GRAY (+0x040, 11): R408 -/
def CFG_GRAY : RegField := ⟨0x78, 0x040, 11, 1, .rwl, 1, 1, 0⟩
/-- FILT FILT_A (+0x044, 5:0): 2.5 ns units; reset 10 ns -/
def FILT_FILT_A : RegField := ⟨0x78, 0x044, 0, 6, .rw, 4, 1, 0⟩
/-- FILT FILT_B (+0x044, 13:8): As FILT_A -/
def FILT_FILT_B : RegField := ⟨0x78, 0x044, 8, 6, .rw, 4, 1, 0⟩
/-- FILT FILT_Z (+0x044, 21:16): As FILT_A -/
def FILT_FILT_Z : RegField := ⟨0x78, 0x044, 16, 6, .rw, 4, 1, 0⟩
/-- SSI DIV (+0x048, 7:0): R405; below 9 stored as 9 -/
def SSI_DIV : RegField := ⟨0x78, 0x048, 0, 8, .rwl, 9, 1, 0⟩
/-- SSI POS_BITS (+0x048, 13:8): 8 to 32; reset 25 -/
def SSI_POS_BITS : RegField := ⟨0x78, 0x048, 8, 6, .rwl, 0x19, 1, 0⟩
/-- SSI ERR_BITS (+0x048, 16:14): 0 to 7 -/
def SSI_ERR_BITS : RegField := ⟨0x78, 0x048, 14, 3, .rwl, 0, 1, 0⟩
/-- SSI CRC_BITS (+0x048, 19:17): 0 to 7; reset 6 -/
def SSI_CRC_BITS : RegField := ⟨0x78, 0x048, 17, 3, .rwl, 6, 1, 0⟩
/-- SSI EXTRAP (+0x048, 20): R409 -/
def SSI_EXTRAP : RegField := ⟨0x78, 0x048, 20, 1, .rw, 1, 1, 0⟩
/-- SSI VEL_N (+0x048, 23:21): R419; 0 stored as 1 -/
def SSI_VEL_N : RegField := ⟨0x78, 0x048, 21, 3, .rw, 1, 1, 0⟩
/-- SSI_T LEAD (+0x04C, 11:0): 10 ns units; reset 4.0 µs (R406, R407) -/
def SSI_T_LEAD : RegField := ⟨0x78, 0x04C, 0, 12, .rw, 0x190, 1, 0⟩
/-- SSI_T RX_DLY (+0x04C, 19:12): 5 ns units -/
def SSI_T_RX_DLY : RegField := ⟨0x78, 0x04C, 12, 8, .rw, 0, 1, 0⟩
/-- SSI_T ENC_DLY (+0x04C, 27:20): Signed, 10 ns units -/
def SSI_T_ENC_DLY : RegField := ⟨0x78, 0x04C, 20, 8, .rw, 0, 1, 0⟩
/-- SSI_T ACK_TMO (+0x04C, 31:28): Clock periods; 0 stored as 1 -/
def SSI_T_ACK_TMO : RegField := ⟨0x78, 0x04C, 28, 4, .rw, 4, 1, 0⟩
/-- SSI_CRC POLY (+0x050, 7:0): Polynomial without its leading term -/
def SSI_CRC_POLY : RegField := ⟨0x78, 0x050, 0, 8, .rwl, 3, 1, 0⟩
/-- SSI_CRC INIT (+0x050, 15:8): Initial value -/
def SSI_CRC_INIT : RegField := ⟨0x78, 0x050, 8, 8, .rwl, 0, 1, 0⟩
/-- SSI_CRC INV_OUT (+0x050, 16): Invert the result -/
def SSI_CRC_INV_OUT : RegField := ⟨0x78, 0x050, 16, 1, .rwl, 1, 1, 0⟩
/-- STALE T_STALE (+0x054, 15:0): µs; reset 10 ms; 0 stored as 1 -/
def STALE_T_STALE : RegField := ⟨0x78, 0x054, 0, 16, .rw, 0x2710, 1, 0⟩
/-- VMIN VMIN (+0x058, 31:0): Counts/s, binary32; reset 1 000.0 -/
def VMIN : RegField := ⟨0x78, 0x058, 0, 32, .rw, 0x447A0000, 1, 0⟩
/-- IMIN IMIN (+0x05C, 31:0): Current threshold, binary32 -/
def IMIN : RegField := ⟨0x78, 0x05C, 0, 32, .rw, 0, 1, 0⟩
/-- ISIG ISIG (+0x060, 15:0): Current signal index (R421) -/
def ISIG : RegField := ⟨0x78, 0x060, 0, 16, .rw, 0xFFFF, 1, 0⟩
/-- VEL WIN (+0x064, 11:0): µs; reset 100 µs; 0 stored as 1 -/
def VEL_WIN : RegField := ⟨0x78, 0x064, 0, 12, .rw, 0x64, 1, 0⟩
/-- VEL T_ZERO (+0x064, 27:12): 10 µs units; reset 10 ms; 0 stored as 1 -/
def VEL_T_ZERO : RegField := ⟨0x78, 0x064, 12, 16, .rw, 0x3E8, 1, 0⟩
/-- VEL DIR_HYST (+0x064, 31:28): SSI direction hysteresis in counts; 0 stored as 1 -/
def VEL_DIR_HYST : RegField := ⟨0x78, 0x064, 28, 4, .rw, 2, 1, 0⟩
/-- STAT STATE (+0x068, 1:0): 0b00 valid, 0b10 LOST, 0b11 off -/
def STAT_STATE : RegField := ⟨0x78, 0x068, 0, 2, .ro, 3, 1, 0⟩
/-- STAT HALL (+0x068, 4:2): Present Hall code -/
def STAT_HALL : RegField := ⟨0x78, 0x068, 2, 3, .ro, 0, 1, 0⟩
/-- STAT LINE_FAULT (+0x068, 5): R399 -/
def STAT_LINE_FAULT : RegField := ⟨0x78, 0x068, 5, 1, .ro, 0, 1, 0⟩
/-- STAT SSI_FAILS (+0x068, 7:6): Consecutive failed reads -/
def STAT_SSI_FAILS : RegField := ⟨0x78, 0x068, 6, 2, .ro, 0, 1, 0⟩
/-- RAW RAW (+0x06C, 31:0): Last raw SSI position, or the edge counter -/
def RAW : RegField := ⟨0x78, 0x06C, 0, 32, .ro, 0, 1, 0⟩
/-- CNT QUAD_ERR (+0x070, 15:0): R401, R402, saturating -/
def CNT_QUAD_ERR : RegField := ⟨0x78, 0x070, 0, 16, .rc, 0, 1, 0⟩
/-- CNT SSI_FAIL (+0x070, 31:16): R406, saturating -/
def CNT_SSI_FAIL : RegField := ⟨0x78, 0x070, 16, 16, .rc, 0, 1, 0⟩
/-- CNT2 LOST (+0x074, 7:0): Declarations, saturating -/
def CNT2_LOST : RegField := ⟨0x78, 0x074, 0, 8, .rc, 0, 1, 0⟩
/-- CNT2 LINE_FLT (+0x074, 15:8): Saturating -/
def CNT2_LINE_FLT : RegField := ⟨0x78, 0x074, 8, 8, .rc, 0, 1, 0⟩
/-- CNT2 SSI_LATE (+0x074, 31:16): R407, saturating -/
def CNT2_SSI_LATE : RegField := ⟨0x78, 0x074, 16, 16, .rc, 0, 1, 0⟩

/-- Fields of FBK, part 1. -/
def fields1 : List RegField :=
  [CFG_TYPE, CFG_QMODE, CFG_Z_GATE, CFG_INV, CFG_QERR_LOST, CFG_LF_EN, CFG_GRAY, FILT_FILT_A, FILT_FILT_B, FILT_FILT_Z, SSI_DIV, SSI_POS_BITS, SSI_ERR_BITS, SSI_CRC_BITS, SSI_EXTRAP, SSI_VEL_N, SSI_T_LEAD, SSI_T_RX_DLY, SSI_T_ENC_DLY, SSI_T_ACK_TMO, SSI_CRC_POLY, SSI_CRC_INIT, SSI_CRC_INV_OUT, STALE_T_STALE, VMIN, IMIN, ISIG, VEL_WIN, VEL_T_ZERO, VEL_DIR_HYST, STAT_STATE, STAT_HALL, STAT_LINE_FAULT, STAT_SSI_FAILS, RAW, CNT_QUAD_ERR, CNT_SSI_FAIL, CNT2_LOST, CNT2_LINE_FLT, CNT2_SSI_LATE]
/-- The fields of FBK in the order of its tables. -/
def fields : List RegField := fields1

end FBK

namespace CNI

/-- CTL EN (+0x040, 15:0): Channel enables -/
def CTL_EN : RegField := ⟨0x80, 0x040, 0, 16, .rw, 0, 1, 0⟩
/-- OVR OVR (+0x044, 15:0): Sticky over-range per channel (R426) -/
def OVR : RegField := ⟨0x80, 0x044, 0, 16, .w1c, 0, 1, 0⟩
/-- OVR HOLD (+0x044, 31:16): Axis hold per channel (R433) -/
def OVR_HOLD : RegField := ⟨0x80, 0x044, 16, 16, .ro, 0, 1, 0⟩
/-- CNT WIN_SHORT (+0x048, 15:0): R431, saturating -/
def CNT_WIN_SHORT : RegField := ⟨0x80, 0x048, 0, 16, .rc, 0, 1, 0⟩
/-- CNT START_LOST (+0x048, 31:16): R430, saturating -/
def CNT_START_LOST : RegField := ⟨0x80, 0x048, 16, 16, .rc, 0, 1, 0⟩
/-- CH MODE (+0x080, 1:0): 0b00 stride, 0b01 axis, 0b10 event; 0b11 stored as 0b00 (R432) -/
def CH_MODE : RegField := ⟨0x80, 0x080, 0, 2, .rw, 0, 16, 32⟩
/-- CH POLARITY (+0x080, 2): 0 unipolar, 1 bipolar -/
def CH_POLARITY : RegField := ⟨0x80, 0x080, 2, 1, .rwl, 0, 16, 32⟩
/-- CH OVR_VALID (+0x080, 3): R427 -/
def CH_OVR_VALID : RegField := ⟨0x80, 0x080, 3, 1, .rw, 0, 16, 32⟩
/-- CH DIV (+0x080, 10:4): Windows per cycle, 1 to 64; 0 stored as 1, values above 64 stored as 64 -/
def CH_DIV : RegField := ⟨0x80, 0x080, 4, 7, .rw, 1, 16, 32⟩
/-- CH AXIS (+0x080, 14:11): Electrical axis -/
def CH_AXIS : RegField := ⟨0x80, 0x080, 11, 4, .rw, 0, 16, 32⟩
/-- CH START_SRC (+0x080, 23:16): Table 12-2 -/
def CH_START_SRC : RegField := ⟨0x80, 0x080, 16, 8, .rw, 0, 16, 32⟩
/-- CH DLY (+0x084, 15:0): R429, 10 ns units -/
def CH_DLY : RegField := ⟨0x80, 0x084, 0, 16, .rw, 0, 16, 32⟩
/-- CH SIG (+0x084, 31:16): Value signal; 0xFFFF none -/
def CH_SIG : RegField := ⟨0x80, 0x084, 16, 16, .rw, 0xFFFF, 16, 32⟩
/-- CH GAIN (+0x088, 31:0): binary32; reset 1.0 -/
def CH_GAIN : RegField := ⟨0x80, 0x088, 0, 32, .rw, 0x3F800000, 16, 32⟩
/-- CH OFS (+0x08C, 31:0): binary32 -/
def CH_OFS : RegField := ⟨0x80, 0x08C, 0, 32, .rw, 0, 16, 32⟩
/-- CH SIG_T (+0x090, 15:0): Close-time signal (R434) -/
def CH_SIG_T : RegField := ⟨0x80, 0x090, 0, 16, .rw, 0xFFFF, 16, 32⟩
/-- CH RAW (+0x094, 23:0): Last result code -/
def CH_RAW : RegField := ⟨0x80, 0x094, 0, 24, .ro, 0, 16, 32⟩
/-- CH R_OVR (+0x094, 24): OVR of the last result -/
def CH_R_OVR : RegField := ⟨0x80, 0x094, 24, 1, .ro, 0, 16, 32⟩
/-- CH R_HOLD (+0x094, 25): HOLD of the last result -/
def CH_R_HOLD : RegField := ⟨0x80, 0x094, 25, 1, .ro, 0, 16, 32⟩

/-- Fields of CNI, part 1. -/
def fields1 : List RegField :=
  [CTL_EN, OVR, OVR_HOLD, CNT_WIN_SHORT, CNT_START_LOST, CH_MODE, CH_POLARITY, CH_OVR_VALID, CH_DIV, CH_AXIS, CH_START_SRC, CH_DLY, CH_SIG, CH_GAIN, CH_OFS, CH_SIG_T, CH_RAW, CH_R_OVR, CH_R_HOLD]
/-- The fields of CNI in the order of its tables. -/
def fields : List RegField := fields1

end CNI

namespace CNF

/-- CTL MODE (+0x040, 0): 0 stream, 1 scan (R437) -/
def CTL_MODE : RegField := ⟨0x81, 0x040, 0, 1, .rw, 0, 1, 0⟩
/-- CTL CAL_HOLD (+0x040, 1): R440 -/
def CTL_CAL_HOLD : RegField := ⟨0x81, 0x040, 1, 1, .rw, 0, 1, 0⟩
/-- CTL EN (+0x040, 15:8): Channel enables -/
def CTL_EN : RegField := ⟨0x81, 0x040, 8, 8, .rw, 0, 1, 0⟩
/-- STAT FROZEN (+0x044, 7:0): R441 -/
def STAT_FROZEN : RegField := ⟨0x81, 0x044, 0, 8, .ro, 0, 1, 0⟩
/-- STAT CAL_FAULT (+0x044, 15:8): R440, R442 -/
def STAT_CAL_FAULT : RegField := ⟨0x81, 0x044, 8, 8, .ro, 0, 1, 0⟩
/-- STAT SLICE_FAIL2 (+0x044, 23:16): R442 -/
def STAT_SLICE_FAIL2 : RegField := ⟨0x81, 0x044, 16, 8, .ro, 0, 1, 0⟩
/-- STAT SCAN_BUSY (+0x044, 24): R438 -/
def STAT_SCAN_BUSY : RegField := ⟨0x81, 0x044, 24, 1, .ro, 0, 1, 0⟩
/-- STAT CAL_CH (+0x044, 27:25): Channel of the present or last step -/
def STAT_CAL_CH : RegField := ⟨0x81, 0x044, 25, 3, .ro, 0, 1, 0⟩
/-- OVR OVR (+0x048, 7:0): Sticky over-range per channel -/
def OVR : RegField := ⟨0x81, 0x048, 0, 8, .w1c, 0, 1, 0⟩
/-- SCAN MASK (+0x04C, 7:0): Channels scanned (R438) -/
def SCAN_MASK : RegField := ⟨0x81, 0x04C, 0, 8, .rw, 0, 1, 0⟩
/-- SCAN SCAN_N (+0x04C, 15:8): Samples per conversion, 1 to 255; 0 stored as 1 -/
def SCAN_SCAN_N : RegField := ⟨0x81, 0x04C, 8, 8, .rw, 0x10, 1, 0⟩
/-- SCAN START_SRC (+0x04C, 23:16): Table 12-2 -/
def SCAN_START_SRC : RegField := ⟨0x81, 0x04C, 16, 8, .rw, 0, 1, 0⟩
/-- SCAN_DLY DLY (+0x050, 15:0): R429, 10 ns units; bits 31:16 reserved -/
def SCAN_DLY : RegField := ⟨0x81, 0x050, 0, 16, .rw, 0, 1, 0⟩
/-- CAL PERIOD (+0x054, 15:0): Step interval, 10 µs units; reset 1 ms; 0 stored as 1; bits 31:16 reserved -/
def CAL_PERIOD : RegField := ⟨0x81, 0x054, 0, 16, .rw, 0x64, 1, 0⟩
/-- CNT CAL_STEPS (+0x058, 15:0): R439, saturating -/
def CNT_CAL_STEPS : RegField := ⟨0x81, 0x058, 0, 16, .rc, 0, 1, 0⟩
/-- CNT START_LOST (+0x058, 23:16): R430, saturating -/
def CNT_START_LOST : RegField := ⟨0x81, 0x058, 16, 8, .rc, 0, 1, 0⟩
/-- CNT FROZEN_CNT (+0x058, 31:24): Entries to FROZEN, saturating -/
def CNT_FROZEN_CNT : RegField := ⟨0x81, 0x058, 24, 8, .rc, 0, 1, 0⟩
/-- CH POLARITY (+0x080, 0): 0 unipolar, 1 bipolar -/
def CH_POLARITY : RegField := ⟨0x81, 0x080, 0, 1, .rwl, 0, 8, 32⟩
/-- CH OVR_VALID (+0x080, 1): R427 -/
def CH_OVR_VALID : RegField := ⟨0x81, 0x080, 1, 1, .rw, 0, 8, 32⟩
/-- CH WIN (+0x080, 15:8): SIG_END window, 10 ns units, 8 to 255; below 8 stored as 8 -/
def CH_WIN : RegField := ⟨0x81, 0x080, 8, 8, .rw, 0x20, 8, 32⟩
/-- CH SIG (+0x084, 15:0): Stride mean, or scan result -/
def CH_SIG : RegField := ⟨0x81, 0x084, 0, 16, .rw, 0xFFFF, 8, 32⟩
/-- CH SIG_END (+0x084, 31:16): End-window mean (R437) -/
def CH_SIG_END : RegField := ⟨0x81, 0x084, 16, 16, .rw, 0xFFFF, 8, 32⟩
/-- CH GAIN (+0x088, 31:0): binary32 -/
def CH_GAIN : RegField := ⟨0x81, 0x088, 0, 32, .rw, 0x3F800000, 8, 32⟩
/-- CH OFS (+0x08C, 31:0): binary32 -/
def CH_OFS : RegField := ⟨0x81, 0x08C, 0, 32, .rw, 0, 8, 32⟩
/-- CH RAW (+0x090, 23:0): Last stride mean or scan result, 24-bit -/
def CH_RAW : RegField := ⟨0x81, 0x090, 0, 24, .ro, 0, 8, 32⟩
/-- CH ACTIVE (+0x094, 4:0): Slices in service, one bit per slice -/
def CH_ACTIVE : RegField := ⟨0x81, 0x094, 0, 5, .ro, 0xF, 8, 32⟩
/-- CH FAILED (+0x094, 9:5): Slices marked failed (R442) -/
def CH_FAILED : RegField := ⟨0x81, 0x094, 5, 5, .ro, 0, 8, 32⟩
/-- SL OFS (+0x200, 9:0): Offset correction, signed, 1/16 LSB -/
def SL_OFS : RegField := ⟨0x81, 0x200, 0, 10, .ro, 0, 40, 4⟩
/-- SL GAIN (+0x200, 19:10): Gain correction, signed, 2⁻¹⁶ -/
def SL_GAIN : RegField := ⟨0x81, 0x200, 10, 10, .ro, 0, 40, 4⟩
/-- SL SKEW (+0x200, 29:20): Skew correction, signed, 0.1 ps -/
def SL_SKEW : RegField := ⟨0x81, 0x200, 20, 10, .ro, 0, 40, 4⟩

/-- Fields of CNF, part 1. -/
def fields1 : List RegField :=
  [CTL_MODE, CTL_CAL_HOLD, CTL_EN, STAT_FROZEN, STAT_CAL_FAULT, STAT_SLICE_FAIL2, STAT_SCAN_BUSY, STAT_CAL_CH, OVR, SCAN_MASK, SCAN_SCAN_N, SCAN_START_SRC, SCAN_DLY, CAL_PERIOD, CNT_CAL_STEPS, CNT_START_LOST, CNT_FROZEN_CNT, CH_POLARITY, CH_OVR_VALID, CH_WIN, CH_SIG, CH_SIG_END, CH_GAIN, CH_OFS, CH_RAW, CH_ACTIVE, CH_FAILED, SL_OFS, SL_GAIN, SL_SKEW]
/-- The fields of CNF in the order of its tables. -/
def fields : List RegField := fields1

end CNF

namespace SVS

/-- CTL EN (+0x040, 15:0): Stream enables -/
def CTL_EN : RegField := ⟨0x82, 0x040, 0, 16, .rw, 0, 1, 0⟩
/-- STAT LOST (+0x044, 15:0): R449 -/
def STAT_LOST : RegField := ⟨0x82, 0x044, 0, 16, .ro, 0, 1, 0⟩
/-- STAT QUAL_BAD (+0x044, 31:16): Last landing had QUAL_BAD -/
def STAT_QUAL_BAD : RegField := ⟨0x82, 0x044, 16, 16, .ro, 0, 1, 0⟩
/-- TOL TOL (+0x048, 9:0): µs; reset 100 µs -/
def TOL : RegField := ⟨0x82, 0x048, 0, 10, .rw, 0x64, 1, 0⟩
/-- TOL REQUAL (+0x048, 23:16): R450; 0 stored as 1 -/
def TOL_REQUAL : RegField := ⟨0x82, 0x048, 16, 8, .rw, 8, 1, 0⟩
/-- S PORT (+0x080, 1:0): ETH0 to ETH3 -/
def S_PORT : RegField := ⟨0x82, 0x080, 0, 2, .rwl, 0, 16, 64⟩
/-- S RATE (+0x080, 2): 0: 4 800, 1: 14 400 samples/s -/
def S_RATE : RegField := ⟨0x82, 0x080, 2, 1, .rwl, 0, 16, 64⟩
/-- S NASDU (+0x080, 6:3): 1 to 8; 0 stored as 1 -/
def S_NASDU : RegField := ⟨0x82, 0x080, 3, 4, .rwl, 1, 16, 64⟩
/-- S NCH (+0x080, 10:7): 1 to 8; 0 stored as 1 -/
def S_NCH : RegField := ⟨0x82, 0x080, 7, 4, .rwl, 8, 16, 64⟩
/-- S SYNC_REQ (+0x080, 11): R446 -/
def S_SYNC_REQ : RegField := ⟨0x82, 0x080, 11, 1, .rw, 1, 16, 64⟩
/-- S Q_OK (+0x080, 12): R446 -/
def S_Q_OK : RegField := ⟨0x82, 0x080, 12, 1, .rw, 0, 16, 64⟩
/-- S TEST_OK (+0x080, 13): R446 -/
def S_TEST_OK : RegField := ⟨0x82, 0x080, 13, 1, .rw, 0, 16, 64⟩
/-- S VLAN_EN (+0x080, 14): Expect tagged frames -/
def S_VLAN_EN : RegField := ⟨0x82, 0x080, 14, 1, .rwl, 0, 16, 64⟩
/-- S APPID (+0x080, 31:16): APPID -/
def S_APPID : RegField := ⟨0x82, 0x080, 16, 16, .rwl, 0x4000, 16, 64⟩
/-- S MAC_LO (+0x084, 31:0): Destination MAC [31:0] -/
def S_MAC_LO : RegField := ⟨0x82, 0x084, 0, 32, .rwl, 0, 16, 64⟩
/-- S MAC_HI (+0x088, 15:0): Destination MAC [47:32] -/
def S_MAC_HI : RegField := ⟨0x82, 0x088, 0, 16, .rwl, 0, 16, 64⟩
/-- S VID (+0x088, 27:16): VLAN identifier -/
def S_VID : RegField := ⟨0x82, 0x088, 16, 12, .rwl, 0, 16, 64⟩
/-- S ID_CRC (+0x08C, 31:0): CRC-32 of svID (R444) -/
def S_ID_CRC : RegField := ⟨0x82, 0x08C, 0, 32, .rwl, 0, 16, 64⟩
/-- S ID_LEN (+0x090, 7:0): svID length, 1 to 35 -/
def S_ID_LEN : RegField := ⟨0x82, 0x090, 0, 8, .rwl, 0, 16, 64⟩
/-- S CONFREV (+0x094, 31:0): Expected confRev -/
def S_CONFREV : RegField := ⟨0x82, 0x094, 0, 32, .rwl, 1, 16, 64⟩
/-- S SIG_BASE (+0x098, 15:0): First channel signal -/
def S_SIG_BASE : RegField := ⟨0x82, 0x098, 0, 16, .rw, 0xFFFF, 16, 64⟩
/-- S LAST_CNT (+0x0BC, 15:0): smpCnt of the last landing -/
def S_LAST_CNT : RegField := ⟨0x82, 0x0BC, 0, 16, .ro, 0, 16, 64⟩
/-- S STATE (+0x0BC, 16): 1 LOST -/
def S_STATE : RegField := ⟨0x82, 0x0BC, 16, 1, .ro, 0, 16, 64⟩
/-- S SCALE0 (+0x09C, 31:0) -/
def S_SCALE0 : RegField := ⟨0x82, 0x09C, 0, 32, .rw, 0x3F800000, 16, 64⟩
/-- S SCALE1 (+0x0A0, 31:0) -/
def S_SCALE1 : RegField := ⟨0x82, 0x0A0, 0, 32, .rw, 0x3F800000, 16, 64⟩
/-- S SCALE2 (+0x0A4, 31:0) -/
def S_SCALE2 : RegField := ⟨0x82, 0x0A4, 0, 32, .rw, 0x3F800000, 16, 64⟩
/-- S SCALE3 (+0x0A8, 31:0) -/
def S_SCALE3 : RegField := ⟨0x82, 0x0A8, 0, 32, .rw, 0x3F800000, 16, 64⟩
/-- S SCALE4 (+0x0AC, 31:0) -/
def S_SCALE4 : RegField := ⟨0x82, 0x0AC, 0, 32, .rw, 0x3F800000, 16, 64⟩
/-- S SCALE5 (+0x0B0, 31:0) -/
def S_SCALE5 : RegField := ⟨0x82, 0x0B0, 0, 32, .rw, 0x3F800000, 16, 64⟩
/-- S SCALE6 (+0x0B4, 31:0) -/
def S_SCALE6 : RegField := ⟨0x82, 0x0B4, 0, 32, .rw, 0x3F800000, 16, 64⟩
/-- S SCALE7 (+0x0B8, 31:0) -/
def S_SCALE7 : RegField := ⟨0x82, 0x0B8, 0, 32, .rw, 0x3F800000, 16, 64⟩
/-- CNT MISS (+0x480, 15:0): R447, saturating -/
def CNT_MISS : RegField := ⟨0x82, 0x480, 0, 16, .rc, 0, 16, 8⟩
/-- CNT STALL (+0x480, 31:16): R447, saturating -/
def CNT_STALL : RegField := ⟨0x82, 0x480, 16, 16, .rc, 0, 16, 8⟩
/-- CNT LOSSES (+0x484, 7:0): R449, saturating -/
def CNT_LOSSES : RegField := ⟨0x82, 0x484, 0, 8, .rc, 0, 16, 8⟩
/-- CNT CFG_MM (+0x484, 15:8): R444, saturating -/
def CNT_CFG_MM : RegField := ⟨0x82, 0x484, 8, 8, .rc, 0, 16, 8⟩
/-- CNT QBAD (+0x484, 31:16): Landings with QUAL_BAD, saturating -/
def CNT_QBAD : RegField := ⟨0x82, 0x484, 16, 16, .rc, 0, 16, 8⟩

/-- Fields of SVS, part 1. -/
def fields1 : List RegField :=
  [CTL_EN, STAT_LOST, STAT_QUAL_BAD, TOL, TOL_REQUAL, S_PORT, S_RATE, S_NASDU, S_NCH, S_SYNC_REQ, S_Q_OK, S_TEST_OK, S_VLAN_EN, S_APPID, S_MAC_LO, S_MAC_HI, S_VID, S_ID_CRC, S_ID_LEN, S_CONFREV, S_SIG_BASE, S_LAST_CNT, S_STATE, S_SCALE0, S_SCALE1, S_SCALE2, S_SCALE3, S_SCALE4, S_SCALE5, S_SCALE6, S_SCALE7, CNT_MISS, CNT_STALL, CNT_LOSSES, CNT_CFG_MM, CNT_QBAD]
/-- The fields of SVS in the order of its tables. -/
def fields : List RegField := fields1

end SVS

namespace PMU

/-- NET DMAC_LO (+0x050, 31:0) -/
def NET_DMAC_LO : RegField := ⟨0x83, 0x050, 0, 32, .rwl, 0, 1, 0⟩
/-- NET DMAC_HI (+0x054, 15:0) -/
def NET_DMAC_HI : RegField := ⟨0x83, 0x054, 0, 16, .rwl, 0, 1, 0⟩
/-- NET VID (+0x054, 27:16) -/
def NET_VID : RegField := ⟨0x83, 0x054, 16, 12, .rwl, 0, 1, 0⟩
/-- NET SRC_IP (+0x058, 31:0) -/
def NET_SRC_IP : RegField := ⟨0x83, 0x058, 0, 32, .rwl, 0, 1, 0⟩
/-- NET DST_IP (+0x05C, 31:0) -/
def NET_DST_IP : RegField := ⟨0x83, 0x05C, 0, 32, .rwl, 0, 1, 0⟩
/-- NET SPORT (+0x060, 15:0) -/
def NET_SPORT : RegField := ⟨0x83, 0x060, 0, 16, .rwl, 0x12B2, 1, 0⟩
/-- NET DPORT (+0x060, 31:16) -/
def NET_DPORT : RegField := ⟨0x83, 0x060, 16, 16, .rwl, 0x12B2, 1, 0⟩
/-- TBASE TIME_BASE (+0x064, 23:0) -/
def TBASE_TIME_BASE : RegField := ⟨0x83, 0x064, 0, 24, .rwl, 0xF4240, 1, 0⟩
/-- STAT SYNC (+0x068, 0) -/
def STAT_SYNC : RegField := ⟨0x83, 0x068, 0, 1, .ro, 0, 1, 0⟩
/-- STAT TQ (+0x068, 7:4) -/
def STAT_TQ : RegField := ⟨0x83, 0x068, 4, 4, .ro, 0xF, 1, 0⟩
/-- STAT UNLOCK_T (+0x068, 9:8) -/
def STAT_UNLOCK_T : RegField := ⟨0x83, 0x068, 8, 2, .ro, 0, 1, 0⟩
/-- CNT FRAMES (+0x06C, 15:0) -/
def CNT_FRAMES : RegField := ⟨0x83, 0x06C, 0, 16, .rc, 0, 1, 0⟩
/-- CNT TX_LATE (+0x06C, 23:16) -/
def CNT_TX_LATE : RegField := ⟨0x83, 0x06C, 16, 8, .rc, 0, 1, 0⟩
/-- CNT SRC_INV (+0x06C, 31:24) -/
def CNT_SRC_INV : RegField := ⟨0x83, 0x06C, 24, 8, .rc, 0, 1, 0⟩
/-- CTL RUN (+0x040, 0): Publish data frames (R455) -/
def CTL_RUN : RegField := ⟨0x83, 0x040, 0, 1, .rw, 0, 1, 0⟩
/-- CTL TEST (+0x040, 1): Table 12-9 -/
def CTL_TEST : RegField := ⟨0x83, 0x040, 1, 1, .rw, 0, 1, 0⟩
/-- CTL CFG_CHG (+0x040, 2): STAT bit 10 -/
def CTL_CFG_CHG : RegField := ⟨0x83, 0x040, 2, 1, .rw, 0, 1, 0⟩
/-- CTL VERSION (+0x040, 5:4): Table 12-8; 0b00 and 0b11 stored as 0b10 -/
def CTL_VERSION : RegField := ⟨0x83, 0x040, 4, 2, .rw, 2, 1, 0⟩
/-- CFG F_NOM (+0x044, 0): 0: 50 Hz, 1: 60 Hz -/
def CFG_F_NOM : RegField := ⟨0x83, 0x044, 0, 1, .rwl, 0, 1, 0⟩
/-- CFG PORT (+0x044, 3:2): ETH0 to ETH3 -/
def CFG_PORT : RegField := ⟨0x83, 0x044, 2, 2, .rwl, 0, 1, 0⟩
/-- CFG FREQ_CH (+0x044, 7:4): Channel for FREQ and DFREQ -/
def CFG_FREQ_CH : RegField := ⟨0x83, 0x044, 4, 4, .rw, 0, 1, 0⟩
/-- CFG FS (+0x044, 15:8): Reporting rate; a rate outside R453 is stored as 50 or 60 -/
def CFG_FS : RegField := ⟨0x83, 0x044, 8, 8, .rwl, 0x32, 1, 0⟩
/-- CFG INT_RATE (+0x044, 25:16): R457, 0 to 1 000 -/
def CFG_INT_RATE : RegField := ⟨0x83, 0x044, 16, 10, .rw, 0, 1, 0⟩
/-- CFG FMT_FLOAT (+0x044, 26): Phasors as binary32 -/
def CFG_FMT_FLOAT : RegField := ⟨0x83, 0x044, 26, 1, .rwl, 1, 1, 0⟩
/-- CFG FMT_POLAR (+0x044, 27): Polar phasors -/
def CFG_FMT_POLAR : RegField := ⟨0x83, 0x044, 27, 1, .rwl, 1, 1, 0⟩
/-- CFG FREQ_FLOAT (+0x044, 28): FREQ and DFREQ as binary32 -/
def CFG_FREQ_FLOAT : RegField := ⟨0x83, 0x044, 28, 1, .rwl, 1, 1, 0⟩
/-- IDCODE IDCODE (+0x048, 15:0): IDCODE -/
def IDCODE : RegField := ⟨0x83, 0x048, 0, 16, .rwl, 1, 1, 0⟩
/-- IDCODE HST (+0x048, 19:16): Host ring for command frames (R456) -/
def IDCODE_HST : RegField := ⟨0x83, 0x048, 16, 4, .rw, 0, 1, 0⟩
/-- CH SRC_A (+0x080, 7:0): Source (R451) -/
def CH_SRC_A : RegField := ⟨0x83, 0x080, 0, 8, .rw, 0, 16, 16⟩
/-- CH SRC_B (+0x080, 15:8): Second source, positive sequence only -/
def CH_SRC_B : RegField := ⟨0x83, 0x080, 8, 8, .rw, 0, 16, 16⟩
/-- CH SRC_C (+0x080, 23:16): Third source, positive sequence only -/
def CH_SRC_C : RegField := ⟨0x83, 0x080, 16, 8, .rw, 0, 16, 16⟩
/-- CH SEQ (+0x080, 24): 0 single source, 1 positive sequence -/
def CH_SEQ : RegField := ⟨0x83, 0x080, 24, 1, .rw, 0, 16, 16⟩
/-- CH CLASS (+0x080, 25): 0 P, 1 M -/
def CH_CLASS : RegField := ⟨0x83, 0x080, 25, 1, .rw, 0, 16, 16⟩
/-- CH PUB (+0x080, 26): Published in data frames -/
def CH_PUB : RegField := ⟨0x83, 0x080, 26, 1, .rw, 0, 16, 16⟩
/-- CH SCALE (+0x084, 31:0): binary32 -/
def CH_SCALE : RegField := ⟨0x83, 0x084, 0, 32, .rw, 0x3F800000, 16, 16⟩
/-- CH PHUNIT (+0x088, 31:0): Integer-format unit, binary32 -/
def CH_PHUNIT : RegField := ⟨0x83, 0x088, 0, 32, .rw, 0x3F800000, 16, 16⟩
/-- CH SIG_BASE (+0x08C, 15:0): First of four signals (R457) -/
def CH_SIG_BASE : RegField := ⟨0x83, 0x08C, 0, 16, .rw, 0xFFFF, 16, 16⟩

/-- Fields of PMU, part 1. -/
def fields1 : List RegField :=
  [NET_DMAC_LO, NET_DMAC_HI, NET_VID, NET_SRC_IP, NET_DST_IP, NET_SPORT, NET_DPORT, TBASE_TIME_BASE, STAT_SYNC, STAT_TQ, STAT_UNLOCK_T, CNT_FRAMES, CNT_TX_LATE, CNT_SRC_INV, CTL_RUN, CTL_TEST, CTL_CFG_CHG, CTL_VERSION, CFG_F_NOM, CFG_PORT, CFG_FREQ_CH, CFG_FS, CFG_INT_RATE, CFG_FMT_FLOAT, CFG_FMT_POLAR, CFG_FREQ_FLOAT, IDCODE, IDCODE_HST, CH_SRC_A, CH_SRC_B, CH_SRC_C, CH_SEQ, CH_CLASS, CH_PUB, CH_SCALE, CH_PHUNIT, CH_SIG_BASE]
/-- The fields of PMU in the order of its tables. -/
def fields : List RegField := fields1

end PMU

namespace SVY

/-- RINGS LO (+0x050, 31:0) -/
def RINGS_LO : RegField := ⟨0x88, 0x050, 0, 32, .rw, 0, 1, 0⟩
/-- RINGS HI (+0x054, 15:0) -/
def RINGS_HI : RegField := ⟨0x88, 0x054, 0, 16, .rw, 0, 1, 0⟩
/-- STAT STATE (+0x058, 1:0) -/
def STAT_STATE : RegField := ⟨0x88, 0x058, 0, 2, .ro, 0, 1, 0⟩
/-- STAT SEG (+0x058, 4:2) -/
def STAT_SEG : RegField := ⟨0x88, 0x058, 2, 3, .ro, 0, 1, 0⟩
/-- STAT DEC (+0x058, 7:5) -/
def STAT_DEC : RegField := ⟨0x88, 0x058, 5, 3, .ro, 0, 1, 0⟩
/-- STAT ARM_OUT (+0x058, 8) -/
def STAT_ARM_OUT : RegField := ⟨0x88, 0x058, 8, 1, .ro, 0, 1, 0⟩
/-- STAT G_MAX (+0x058, 31:16) -/
def STAT_G_MAX : RegField := ⟨0x88, 0x058, 16, 16, .ro, 0, 1, 0⟩
/-- REC FULL (+0x05C, 7:0) -/
def REC_FULL : RegField := ⟨0x88, 0x05C, 0, 8, .ro, 0, 1, 0⟩
/-- REC FREE (+0x05C, 15:8) -/
def REC_FREE : RegField := ⟨0x88, 0x05C, 8, 8, .wo, 0, 1, 0⟩
/-- LVL HI (+0x080, 13:0) -/
def LVL_HI : RegField := ⟨0x88, 0x080, 0, 14, .rw, 0x1FFF, 8, 8⟩
/-- LVL LO (+0x080, 29:16) -/
def LVL_LO : RegField := ⟨0x88, 0x080, 16, 14, .rw, 0x2000, 8, 8⟩
/-- LVL HOLD (+0x084, 7:0) -/
def LVL_HOLD : RegField := ⟨0x88, 0x084, 0, 8, .rw, 1, 8, 8⟩
/-- LVL EN_HI (+0x084, 8) -/
def LVL_EN_HI : RegField := ⟨0x88, 0x084, 8, 1, .rw, 0, 8, 8⟩
/-- LVL EN_LO (+0x084, 9) -/
def LVL_EN_LO : RegField := ⟨0x88, 0x084, 9, 1, .rw, 0, 8, 8⟩
/-- LVL FIRE (+0x084, 10) -/
def LVL_FIRE : RegField := ⟨0x88, 0x084, 10, 1, .rw, 0, 8, 8⟩
/-- SLP DELTA (+0x0C0, 13:0) -/
def SLP_DELTA : RegField := ⟨0x88, 0x0C0, 0, 14, .rw, 0x100, 8, 8⟩
/-- SLP SPAN (+0x0C0, 21:16) -/
def SLP_SPAN : RegField := ⟨0x88, 0x0C0, 16, 6, .rw, 4, 8, 8⟩
/-- SLP EN_POS (+0x0C4, 8) -/
def SLP_EN_POS : RegField := ⟨0x88, 0x0C4, 8, 1, .rw, 0, 8, 8⟩
/-- SLP EN_NEG (+0x0C4, 9) -/
def SLP_EN_NEG : RegField := ⟨0x88, 0x0C4, 9, 1, .rw, 0, 8, 8⟩
/-- SLP FIRE (+0x0C4, 10) -/
def SLP_FIRE : RegField := ⟨0x88, 0x0C4, 10, 1, .rw, 0, 8, 8⟩
/-- PAT MASK_LO (+0x100, 31:0) -/
def PAT_MASK_LO : RegField := ⟨0x88, 0x100, 0, 32, .rw, 0, 1, 0⟩
/-- PAT MASK_HI (+0x104, 31:0) -/
def PAT_MASK_HI : RegField := ⟨0x88, 0x104, 0, 32, .rw, 0, 1, 0⟩
/-- PAT VALUE_LO (+0x108, 31:0) -/
def PAT_VALUE_LO : RegField := ⟨0x88, 0x108, 0, 32, .rw, 0, 1, 0⟩
/-- PAT VALUE_HI (+0x10C, 31:0) -/
def PAT_VALUE_HI : RegField := ⟨0x88, 0x10C, 0, 32, .rw, 0, 1, 0⟩
/-- PAT EN (+0x110, 0) -/
def PAT_EN : RegField := ⟨0x88, 0x110, 0, 1, .rw, 0, 1, 0⟩
/-- PAT ENTRY (+0x110, 1) -/
def PAT_ENTRY : RegField := ⟨0x88, 0x110, 1, 1, .rw, 1, 1, 0⟩
/-- PAT_IN IN (+0x114, 31:0) -/
def PAT_IN : RegField := ⟨0x88, 0x114, 0, 32, .ro, 0, 2, 4⟩
/-- LOG_WR WR (+0x120, 15:0) -/
def LOG_WR : RegField := ⟨0x88, 0x120, 0, 16, .ro, 0, 1, 0⟩
/-- LOG_RD RD (+0x124, 15:0) -/
def LOG_RD : RegField := ⟨0x88, 0x124, 0, 16, .rw, 0, 1, 0⟩
/-- RD_ADDR ADDR (+0x130, 20:0) -/
def RD_ADDR : RegField := ⟨0x88, 0x130, 0, 21, .rw, 0, 1, 0⟩
/-- RD_ADDR AUTOINC (+0x130, 31) -/
def RD_ADDR_AUTOINC : RegField := ⟨0x88, 0x130, 31, 1, .rw, 1, 1, 0⟩
/-- RD_DATA DATA (+0x140, 31:0) -/
def RD_DATA : RegField := ⟨0x88, 0x140, 0, 32, .ro, 0, 12, 4⟩
/-- CTL ARM (+0x040, 0): R464 -/
def CTL_ARM : RegField := ⟨0x88, 0x040, 0, 1, .wo, 0, 1, 0⟩
/-- CTL DISARM (+0x040, 1): R464, R475 -/
def CTL_DISARM : RegField := ⟨0x88, 0x040, 1, 1, .wo, 0, 1, 0⟩
/-- CTL FORCE (+0x040, 2): Fire (R469) -/
def CTL_FORCE : RegField := ⟨0x88, 0x040, 2, 1, .wo, 0, 1, 0⟩
/-- CTL AUTO_REARM (+0x040, 3): R464 -/
def CTL_AUTO_REARM : RegField := ⟨0x88, 0x040, 3, 1, .rw, 0, 1, 0⟩
/-- CTL CELLS (+0x040, 4): Hub: arm cells (R472) -/
def CTL_CELLS : RegField := ⟨0x88, 0x040, 4, 1, .rw, 0, 1, 0⟩
/-- CTL MODE (+0x040, 5): 0 record, 1 log (R471) -/
def CTL_MODE : RegField := ⟨0x88, 0x040, 5, 1, .rw, 0, 1, 0⟩
/-- CTL DEC_MIN (+0x040, 8:6): Starting k (R470) -/
def CTL_DEC_MIN : RegField := ⟨0x88, 0x040, 6, 3, .rw, 0, 1, 0⟩
/-- CFG CH_EN (+0x044, 7:0): Channels captured; cell bits 7:2 read 0 -/
def CFG_CH_EN : RegField := ⟨0x88, 0x044, 0, 8, .rwl, 0xFF, 1, 0⟩
/-- CFG NREC (+0x044, 9:8): 0b00 1, 0b01 2, 0b10 4, 0b11 8 segments -/
def CFG_NREC : RegField := ⟨0x88, 0x044, 8, 2, .rwl, 0, 1, 0⟩
/-- LEN PRE (+0x048, 15:0): Pre-trigger groups; reset 3 125 -/
def LEN_PRE : RegField := ⟨0x88, 0x048, 0, 16, .rw, 0xC35, 1, 0⟩
/-- LEN POST (+0x048, 31:16): Post-trigger groups; reset 3 125 -/
def LEN_POST : RegField := ⟨0x88, 0x048, 16, 16, .rw, 0xC35, 1, 0⟩
/-- CNT HALVINGS (+0x170, 15:0): R470, saturating -/
def CNT_HALVINGS : RegField := ⟨0x88, 0x170, 0, 16, .rc, 0, 1, 0⟩
/-- CNT FIRE_IGNORED (+0x170, 31:16): R465, saturating -/
def CNT_FIRE_IGNORED : RegField := ⟨0x88, 0x170, 16, 16, .rc, 0, 1, 0⟩
/-- CNT2 GAPS (+0x174, 15:0): R470, saturating -/
def CNT2_GAPS : RegField := ⟨0x88, 0x174, 0, 16, .rc, 0, 1, 0⟩
/-- CNT2 ARM_REFUSED (+0x174, 23:16): R464, saturating -/
def CNT2_ARM_REFUSED : RegField := ⟨0x88, 0x174, 16, 8, .rc, 0, 1, 0⟩

/-- Fields of SVY, part 1. -/
def fields1 : List RegField :=
  [RINGS_LO, RINGS_HI, STAT_STATE, STAT_SEG, STAT_DEC, STAT_ARM_OUT, STAT_G_MAX, REC_FULL, REC_FREE, LVL_HI, LVL_LO, LVL_HOLD, LVL_EN_HI, LVL_EN_LO, LVL_FIRE, SLP_DELTA, SLP_SPAN, SLP_EN_POS, SLP_EN_NEG, SLP_FIRE, PAT_MASK_LO, PAT_MASK_HI, PAT_VALUE_LO, PAT_VALUE_HI, PAT_EN, PAT_ENTRY, PAT_IN, LOG_WR, LOG_RD, RD_ADDR, RD_ADDR_AUTOINC, RD_DATA, CTL_ARM, CTL_DISARM, CTL_FORCE, CTL_AUTO_REARM, CTL_CELLS, CTL_MODE, CTL_DEC_MIN, CFG_CH_EN]
/-- Fields of SVY, part 2. -/
def fields2 : List RegField :=
  [CFG_NREC, LEN_PRE, LEN_POST, CNT_HALVINGS, CNT_FIRE_IGNORED, CNT2_GAPS, CNT2_ARM_REFUSED]
/-- The fields of SVY in the order of its tables. -/
def fields : List RegField := fields1 ++ fields2

end SVY

namespace TRI

/-- FRONT_POP ENTRY (+0x100, 31:0) -/
def FRONT_POP_ENTRY : RegField := ⟨0x89, 0x100, 0, 32, .ro, 0, 4, 4⟩
/-- FIFO COUNT (+0x110, 6:0) -/
def FIFO_COUNT : RegField := ⟨0x89, 0x110, 0, 7, .ro, 0, 1, 0⟩
/-- FIFO OVF (+0x110, 8) -/
def FIFO_OVF : RegField := ⟨0x89, 0x110, 8, 1, .w1c, 0, 1, 0⟩
/-- FIFO LOST (+0x110, 31:16) -/
def FIFO_LOST : RegField := ⟨0x89, 0x110, 16, 16, .rc, 0, 1, 0⟩
/-- RES X_DE (+0x120, 31:0) -/
def RES_X_DE : RegField := ⟨0x89, 0x120, 0, 32, .ro, 0, 1, 0⟩
/-- RES X_SE (+0x124, 31:0) -/
def RES_X_SE : RegField := ⟨0x89, 0x124, 0, 32, .ro, 0, 3, 4⟩
/-- RES DT (+0x130, 31:0) -/
def RES_DT : RegField := ⟨0x89, 0x130, 0, 32, .ro, 0, 1, 0⟩
/-- RES DE_VALID (+0x134, 0) -/
def RES_DE_VALID : RegField := ⟨0x89, 0x134, 0, 1, .ro, 0, 1, 0⟩
/-- RES OUT_OF_LINE (+0x134, 1) -/
def RES_OUT_OF_LINE : RegField := ⟨0x89, 0x134, 1, 1, .ro, 0, 1, 0⟩
/-- RES UNSYNC (+0x134, 2) -/
def RES_UNSYNC : RegField := ⟨0x89, 0x134, 2, 1, .ro, 0, 1, 0⟩
/-- RES SE_N (+0x134, 4:3) -/
def RES_SE_N : RegField := ⟨0x89, 0x134, 3, 2, .ro, 0, 1, 0⟩
/-- RES TA (+0x138, 31:0) -/
def RES_TA : RegField := ⟨0x89, 0x138, 0, 32, .ro, 0, 2, 4⟩
/-- PEER DMAC_LO (+0x140, 31:0) -/
def PEER_DMAC_LO : RegField := ⟨0x89, 0x140, 0, 32, .rwl, 0, 1, 0⟩
/-- PEER DMAC_HI (+0x144, 15:0) -/
def PEER_DMAC_HI : RegField := ⟨0x89, 0x144, 0, 16, .rwl, 0, 1, 0⟩
/-- PEER LINE_ID (+0x144, 31:16) -/
def PEER_LINE_ID : RegField := ⟨0x89, 0x144, 16, 16, .rwl, 0, 1, 0⟩
/-- PEER SRC_IP (+0x148, 31:0) -/
def PEER_SRC_IP : RegField := ⟨0x89, 0x148, 0, 32, .rwl, 0, 1, 0⟩
/-- PEER DST_IP (+0x14C, 31:0) -/
def PEER_DST_IP : RegField := ⟨0x89, 0x14C, 0, 32, .rwl, 0, 1, 0⟩
/-- PEER SPORT (+0x150, 15:0) -/
def PEER_SPORT : RegField := ⟨0x89, 0x150, 0, 16, .rwl, 0x1F90, 1, 0⟩
/-- PEER DPORT (+0x150, 31:16) -/
def PEER_DPORT : RegField := ⟨0x89, 0x150, 16, 16, .rwl, 0x1F90, 1, 0⟩
/-- PEER KEY_IDX (+0x154, 7:0) -/
def PEER_KEY_IDX : RegField := ⟨0x89, 0x154, 0, 8, .rwl, 0, 1, 0⟩
/-- CNT PEER_RX (+0x160, 15:0) -/
def CNT_PEER_RX : RegField := ⟨0x89, 0x160, 0, 16, .rc, 0, 1, 0⟩
/-- CNT AUTH_FAIL (+0x160, 23:16) -/
def CNT_AUTH_FAIL : RegField := ⟨0x89, 0x160, 16, 8, .rc, 0, 1, 0⟩
/-- CNT NO_MATCH (+0x160, 31:24) -/
def CNT_NO_MATCH : RegField := ⟨0x89, 0x160, 24, 8, .rc, 0, 1, 0⟩
/-- CTL EN (+0x040, 0): Detectors run -/
def CTL_EN : RegField := ⟨0x89, 0x040, 0, 1, .rw, 0, 1, 0⟩
/-- CTL PEER_EN (+0x040, 1): R481 -/
def CTL_PEER_EN : RegField := ⟨0x89, 0x040, 1, 1, .rw, 0, 1, 0⟩
/-- CTL PORT (+0x040, 3:2): ETH0 to ETH3 -/
def CTL_PORT : RegField := ⟨0x89, 0x040, 2, 2, .rwl, 0, 1, 0⟩
/-- CTL SE_EN (+0x040, 4): R480 -/
def CTL_SE_EN : RegField := ⟨0x89, 0x040, 4, 1, .rw, 0, 1, 0⟩
/-- CTL DE_DET (+0x040, 7:5): Detector used for location -/
def CTL_DE_DET : RegField := ⟨0x89, 0x040, 5, 3, .rw, 0, 1, 0⟩
/-- LINE L (+0x044, 31:0): Line length, m, binary32 -/
def LINE_L : RegField := ⟨0x89, 0x044, 0, 32, .rw, 0, 1, 0⟩
/-- VEL V (+0x048, 31:0): m/ns, binary32; reset 0.294 -/
def VEL_V : RegField := ⟨0x89, 0x048, 0, 32, .rw, 0x3E96872B, 1, 0⟩
/-- WIN MARGIN (+0x04C, 15:0): µs (R483) -/
def WIN_MARGIN : RegField := ⟨0x89, 0x04C, 0, 16, .rw, 0xA, 1, 0⟩
/-- DET CH_A (+0x080, 2:0): R477 -/
def DET_CH_A : RegField := ⟨0x89, 0x080, 0, 3, .rw, 0, 8, 16⟩
/-- DET CH_B (+0x080, 5:3): R477 -/
def DET_CH_B : RegField := ⟨0x89, 0x080, 3, 3, .rw, 0, 8, 16⟩
/-- DET MODE (+0x080, 7:6): 0b00 A, 0b01 A − B, 0b10 A + B; 0b11 stored as 0b00 -/
def DET_MODE : RegField := ⟨0x89, 0x080, 6, 2, .rw, 0, 8, 16⟩
/-- DET SPAN (+0x080, 13:8): 1 to 63; 0 stored as 1 -/
def DET_SPAN : RegField := ⟨0x89, 0x080, 8, 6, .rw, 4, 8, 16⟩
/-- DET POL_POS (+0x080, 14): Positive fronts -/
def DET_POL_POS : RegField := ⟨0x89, 0x080, 14, 1, .rw, 1, 8, 16⟩
/-- DET POL_NEG (+0x080, 15): Negative fronts -/
def DET_POL_NEG : RegField := ⟨0x89, 0x080, 15, 1, .rw, 1, 8, 16⟩
/-- DET THR (+0x084, 15:0): Codes -/
def DET_THR : RegField := ⟨0x89, 0x084, 0, 16, .rw, 0x200, 8, 16⟩
/-- DET QUIET (+0x084, 31:16): µs; reset 100 µs -/
def DET_QUIET : RegField := ⟨0x89, 0x084, 16, 16, .rw, 0x64, 8, 16⟩
/-- DET SE_RATIO (+0x088, 7:0): R480 -/
def DET_SE_RATIO : RegField := ⟨0x89, 0x088, 0, 8, .rw, 0x40, 8, 16⟩
/-- DET SE_SAME (+0x088, 8): R480 -/
def DET_SE_SAME : RegField := ⟨0x89, 0x088, 8, 1, .rw, 1, 8, 16⟩

/-- Fields of TRI, part 1. -/
def fields1 : List RegField :=
  [FRONT_POP_ENTRY, FIFO_COUNT, FIFO_OVF, FIFO_LOST, RES_X_DE, RES_X_SE, RES_DT, RES_DE_VALID, RES_OUT_OF_LINE, RES_UNSYNC, RES_SE_N, RES_TA, PEER_DMAC_LO, PEER_DMAC_HI, PEER_LINE_ID, PEER_SRC_IP, PEER_DST_IP, PEER_SPORT, PEER_DPORT, PEER_KEY_IDX, CNT_PEER_RX, CNT_AUTH_FAIL, CNT_NO_MATCH, CTL_EN, CTL_PEER_EN, CTL_PORT, CTL_SE_EN, CTL_DE_DET, LINE_L, VEL_V, WIN_MARGIN, DET_CH_A, DET_CH_B, DET_MODE, DET_SPAN, DET_POL_POS, DET_POL_NEG, DET_THR, DET_QUIET, DET_SE_RATIO]
/-- Fields of TRI, part 2. -/
def fields2 : List RegField :=
  [DET_SE_SAME]
/-- The fields of TRI in the order of its tables. -/
def fields : List RegField := fields1 ++ fields2

end TRI

namespace CLR

/-- CFG LEASE (+0x040, 4:0): Strides, 2 to 16; below 2 stored as 2, above 16 as 16 -/
def CFG_LEASE : RegField := ⟨0x90, 0x040, 0, 5, .rwl, 4, 1, 0⟩
/-- CFG PREF (+0x040, 6:5): 0b00 none, 0b01 A, 0b10 B; 0b11 stored as 0b00 -/
def CFG_PREF : RegField := ⟨0x90, 0x040, 5, 2, .rwl, 0, 1, 0⟩
/-- CFG HOLDOFF (+0x040, 15:8): 0.1 s units; reset 5 s; 0 stored as 1 -/
def CFG_HOLDOFF : RegField := ⟨0x90, 0x040, 8, 8, .rwl, 0x32, 1, 0⟩
/-- CFG DRILL_H (+0x040, 23:16): Hours, 0 to 168; reset 24 h; above 168 stored as 168 -/
def CFG_DRILL_H : RegField := ⟨0x90, 0x040, 16, 8, .rwl, 0x18, 1, 0⟩
/-- CFG T_ALONE (+0x040, 31:24): Seconds; reset 10 s; 0 stored as 1 -/
def CFG_T_ALONE : RegField := ⟨0x90, 0x040, 24, 8, .rwl, 0xA, 1, 0⟩
/-- CTL HANDOVER (+0x044, 0): 1: propose a handover (R506) -/
def CTL_HANDOVER : RegField := ⟨0x90, 0x044, 0, 1, .wo, 0, 1, 0⟩
/-- CTL FAULT_CLR (+0x044, 1): 1: leave FAULTY -/
def CTL_FAULT_CLR : RegField := ⟨0x90, 0x044, 1, 1, .wo, 0, 1, 0⟩
/-- CTL VERDICT_EN (+0x044, 2): R511 -/
def CTL_VERDICT_EN : RegField := ⟨0x90, 0x044, 2, 1, .rw, 1, 1, 0⟩
/-- STAT STATE (+0x048, 2:0): 0b000 OFF, 0b001 JOINING, 0b010 RESYNC, 0b011 STANDBY, 0b100 FLYING, 0b101 FAULTY -/
def STAT_STATE : RegField := ⟨0x90, 0x048, 0, 3, .ro, 0, 1, 0⟩
/-- STAT HOLDER (+0x048, 3): Owner of TERM: 0 A, 1 B -/
def STAT_HOLDER : RegField := ⟨0x90, 0x048, 3, 1, .ro, 0, 1, 0⟩
/-- STAT TWIN_LOST (+0x048, 4): R492 -/
def STAT_TWIN_LOST : RegField := ⟨0x90, 0x048, 4, 1, .ro, 0, 1, 0⟩
/-- STAT PEER_LOST (+0x048, 5): Table 14-4 -/
def STAT_PEER_LOST : RegField := ⟨0x90, 0x048, 5, 1, .ro, 0, 1, 0⟩
/-- STAT VERDICT_PEND (+0x048, 6): R510 -/
def STAT_VERDICT_PEND : RegField := ⟨0x90, 0x048, 6, 1, .ro, 0, 1, 0⟩
/-- STAT HANDOVER_PEND (+0x048, 7): R505 -/
def STAT_HANDOVER_PEND : RegField := ⟨0x90, 0x048, 7, 1, .ro, 0, 1, 0⟩
/-- STAT TERM (+0x048, 31:16): Newest term seen -/
def STAT_TERM : RegField := ⟨0x90, 0x048, 16, 16, .ro, 0, 1, 0⟩
/-- PEER PEER_STATE (+0x04C, 2:0): From the last STRIDE frame -/
def PEER_PEER_STATE : RegField := ⟨0x90, 0x04C, 0, 3, .ro, 0, 1, 0⟩
/-- PEER PEER_TERM (+0x04C, 31:16): From the last STRIDE frame -/
def PEER_PEER_TERM : RegField := ⟨0x90, 0x04C, 16, 16, .ro, 0, 1, 0⟩
/-- VERD WIN_BACK (+0x050, 5:0): Strides, 0 to 48; above 48 stored as 48 -/
def VERD_WIN_BACK : RegField := ⟨0x90, 0x050, 0, 6, .rw, 0x10, 1, 0⟩
/-- VERD WIN_FWD (+0x050, 11:8): Strides, 0 to 15 -/
def VERD_WIN_FWD : RegField := ⟨0x90, 0x050, 8, 4, .rw, 2, 1, 0⟩
/-- VERD DIAG_MASK (+0x050, 23:16): Table 14-5 -/
def VERD_DIAG_MASK : RegField := ⟨0x90, 0x050, 16, 8, .rw, 0xFF, 1, 0⟩
/-- LAST RESULT (+0x054, 1:0): 0b00 none, 0b01 this hub faulty, 0b10 peer faulty, 0b11 standby unqualified -/
def LAST_RESULT : RegField := ⟨0x90, 0x054, 0, 2, .ro, 0, 1, 0⟩
/-- LAST DIAG (+0x054, 15:8): Deciding diagnostics, Table 14-5 order -/
def LAST_DIAG : RegField := ⟨0x90, 0x054, 8, 8, .ro, 0, 1, 0⟩
/-- LAST_SEQ SEQ (+0x058, 31:0): M of the last verdict -/
def LAST_SEQ : RegField := ⟨0x90, 0x058, 0, 32, .ro, 0, 1, 0⟩
/-- DRILL NEXT_MIN (+0x05C, 15:0): Minutes to the next drill proposal, saturating -/
def DRILL_NEXT_MIN : RegField := ⟨0x90, 0x05C, 0, 16, .ro, 0, 1, 0⟩
/-- CNT MISMATCH (+0x060, 15:0): Landed uplinks with MISMATCH, saturating -/
def CNT_MISMATCH : RegField := ⟨0x90, 0x060, 0, 16, .rc, 0, 1, 0⟩
/-- CNT OUT_DIFF (+0x060, 31:16): R508, saturating -/
def CNT_OUT_DIFF : RegField := ⟨0x90, 0x060, 16, 16, .rc, 0, 1, 0⟩
/-- CNT2 CLAIMS (+0x064, 7:0): Saturating -/
def CNT2_CLAIMS : RegField := ⟨0x90, 0x064, 0, 8, .rc, 0, 1, 0⟩
/-- CNT2 STRIKES (+0x064, 15:8): Saturating -/
def CNT2_STRIKES : RegField := ⟨0x90, 0x064, 8, 8, .rc, 0, 1, 0⟩
/-- CNT2 DRILLS (+0x064, 23:16): Completed drills, saturating -/
def CNT2_DRILLS : RegField := ⟨0x90, 0x064, 16, 8, .rc, 0, 1, 0⟩
/-- CNT2 DRILL_SKIP (+0x064, 31:24): R506, saturating -/
def CNT2_DRILL_SKIP : RegField := ⟨0x90, 0x064, 24, 8, .rc, 0, 1, 0⟩
/-- CNT3 EXCUSED (+0x068, 15:0): R508, saturating -/
def CNT3_EXCUSED : RegField := ⟨0x90, 0x068, 0, 16, .rc, 0, 1, 0⟩
/-- CNT3 DIGEST_DIFF (+0x068, 31:16): R513, saturating -/
def CNT3_DIGEST_DIFF : RegField := ⟨0x90, 0x068, 16, 16, .rc, 0, 1, 0⟩

/-- Fields of CLR, part 1. -/
def fields1 : List RegField :=
  [CFG_LEASE, CFG_PREF, CFG_HOLDOFF, CFG_DRILL_H, CFG_T_ALONE, CTL_HANDOVER, CTL_FAULT_CLR, CTL_VERDICT_EN, STAT_STATE, STAT_HOLDER, STAT_TWIN_LOST, STAT_PEER_LOST, STAT_VERDICT_PEND, STAT_HANDOVER_PEND, STAT_TERM, PEER_PEER_STATE, PEER_PEER_TERM, VERD_WIN_BACK, VERD_WIN_FWD, VERD_DIAG_MASK, LAST_RESULT, LAST_DIAG, LAST_SEQ, DRILL_NEXT_MIN, CNT_MISMATCH, CNT_OUT_DIFF, CNT2_CLAIMS, CNT2_STRIKES, CNT2_DRILLS, CNT2_DRILL_SKIP, CNT3_EXCUSED, CNT3_DIGEST_DIFF]
/-- The fields of CLR in the order of its tables. -/
def fields : List RegField := fields1

end CLR

namespace SAF

/-- SPB_MASK MASK (+0x054, 31:0) -/
def SPB_MASK : RegField := ⟨0x98, 0x054, 0, 32, .rwl, 0, 1, 0⟩
/-- PERMIT_MASK MASK (+0x058, 31:0) -/
def PERMIT_MASK : RegField := ⟨0x98, 0x058, 0, 32, .rwl, 0, 1, 0⟩
/-- UNLOCK_MASK MASK (+0x05C, 31:0) -/
def UNLOCK_MASK : RegField := ⟨0x98, 0x05C, 0, 32, .rwl, 0, 1, 0⟩
/-- CTL SPB_REQ (+0x040, 0): Demand Safe Pulse Block (R534) -/
def CTL_SPB_REQ : RegField := ⟨0x98, 0x040, 0, 1, .rw, 0, 1, 0⟩
/-- CTL FAULT_ACK (+0x040, 1): Table 15-1 -/
def CTL_FAULT_ACK : RegField := ⟨0x98, 0x040, 1, 1, .wo, 0, 1, 0⟩
/-- CTL RESET (+0x040, 2): Software reset (R534) -/
def CTL_RESET : RegField := ⟨0x98, 0x040, 2, 1, .wo, 0, 1, 0⟩
/-- STAT STATE (+0x044, 1:0): 0b00 START, 0b01 NORMAL, 0b10 DEGRADED, 0b11 SAFE -/
def STAT_STATE : RegField := ⟨0x98, 0x044, 0, 2, .ro, 0, 1, 0⟩
/-- STAT SPB (+0x044, 2): Safe Pulse Block active -/
def STAT_SPB : RegField := ⟨0x98, 0x044, 2, 1, .ro, 1, 1, 0⟩
/-- STAT PERMIT (+0x044, 3): R537 -/
def STAT_PERMIT : RegField := ⟨0x98, 0x044, 3, 1, .ro, 0, 1, 0⟩
/-- STAT UNLOCK (+0x044, 4): R538 -/
def STAT_UNLOCK : RegField := ⟨0x98, 0x044, 4, 1, .ro, 0, 1, 0⟩
/-- STAT STARTUP_DONE (+0x044, 5): R530 -/
def STAT_STARTUP_DONE : RegField := ⟨0x98, 0x044, 5, 1, .ro, 0, 1, 0⟩
/-- STAT XCHK_OK (+0x044, 6): Oscillator cross-check passing -/
def STAT_XCHK_OK : RegField := ⟨0x98, 0x044, 6, 1, .ro, 0, 1, 0⟩
/-- STAT FAULT (+0x044, 15:8): Latched fault code, Table 15-2 -/
def STAT_FAULT : RegField := ⟨0x98, 0x044, 8, 8, .ro, 0, 1, 0⟩
/-- STAT DEGR_LEFT (+0x044, 25:16): Seconds left of T_degr -/
def STAT_DEGR_LEFT : RegField := ⟨0x98, 0x044, 16, 10, .ro, 0, 1, 0⟩
/-- SI_LVL SI (+0x048, 15:0): Levels after evaluation, 1 closed -/
def SI_LVL_SI : RegField := ⟨0x98, 0x048, 0, 16, .ro, 0, 1, 0⟩
/-- SI_LVL VI (+0x048, 31:16): Virtual inputs (R546) -/
def SI_LVL_VI : RegField := ⟨0x98, 0x048, 16, 16, .ro, 0, 1, 0⟩
/-- SI_FLT SI_TEST (+0x04C, 15:0): Latched SI_TEST per input -/
def SI_FLT_SI_TEST : RegField := ⟨0x98, 0x04C, 0, 16, .ro, 0, 1, 0⟩
/-- SI_FLT SI_HALF (+0x04C, 31:16): R529 per input -/
def SI_FLT_SI_HALF : RegField := ⟨0x98, 0x04C, 16, 16, .ro, 0, 1, 0⟩
/-- STARTUP MASK (+0x050, 15:0): Start-up test inputs (R530) -/
def STARTUP_MASK : RegField := ⟨0x98, 0x050, 0, 16, .rwl, 0, 1, 0⟩
/-- STARTUP SEEN (+0x050, 31:16): Test complete per input -/
def STARTUP_SEEN : RegField := ⟨0x98, 0x050, 16, 16, .ro, 0, 1, 0⟩
/-- SPB MODE (+0x060, 1:0): 0b01 BLOCK, 0b10 SHORT, 0b11 ZERO; 0b00 stored as 0b01 -/
def SPB_MODE : RegField := ⟨0x98, 0x060, 0, 2, .rwl, 1, 1, 0⟩
/-- SPB RST_SRC (+0x060, 6:2): 0x00 to 0x0F SI0 to SI15; 0x10 software; others stored as 0x10 -/
def SPB_RST_SRC : RegField := ⟨0x98, 0x060, 2, 5, .rwl, 0x10, 1, 0⟩
/-- SPB T_UNLOCK (+0x060, 31:16): 0.1 s units; reset 5 s -/
def SPB_T_UNLOCK : RegField := ⟨0x98, 0x060, 16, 16, .rwl, 0x32, 1, 0⟩
/-- DEGR T_DEGR (+0x064, 9:0): Seconds, 1 to 600; reset 60 s; 0 stored as 1, above 600 as 600 -/
def DEGR_T_DEGR : RegField := ⟨0x98, 0x064, 0, 10, .rwl, 0x3C, 1, 0⟩
/-- CNT TEST_DISCARD (+0x068, 15:0): R533, saturating -/
def CNT_TEST_DISCARD : RegField := ⟨0x98, 0x068, 0, 16, .rc, 0, 1, 0⟩
/-- CNT SI_TEST_FAIL (+0x068, 31:16): Input test failures, saturating -/
def CNT_SI_TEST_FAIL : RegField := ⟨0x98, 0x068, 16, 16, .rc, 0, 1, 0⟩
/-- SI MODE (+0x080, 1:0): 0b00 unused, 0b01 single, 0b10 pair equivalent, 0b11 pair antivalent -/
def SI_MODE : RegField := ⟨0x98, 0x080, 0, 2, .rwl, 0, 16, 4⟩
/-- SI TP_EN (+0x080, 2): R527 -/
def SI_TP_EN : RegField := ⟨0x98, 0x080, 2, 1, .rwl, 0, 16, 4⟩
/-- SI TP_SRC (+0x080, 4:3): TPO0 to TPO3 -/
def SI_TP_SRC : RegField := ⟨0x98, 0x080, 3, 2, .rwl, 0, 16, 4⟩
/-- SI FILT (+0x080, 15:8): 50 µs units; reset 1 ms -/
def SI_FILT : RegField := ⟨0x98, 0x080, 8, 8, .rwl, 0x14, 16, 4⟩
/-- SI DISC (+0x080, 23:16): ms, 1 to 255; reset 10 ms; 0 stored as 1 -/
def SI_DISC : RegField := ⟨0x98, 0x080, 16, 8, .rwl, 0xA, 16, 4⟩
/-- TPO TP_W (+0x0C0, 4:0): 10 µs units, 5 to 20; reset 100 µs; values outside are stored at the nearer limit -/
def TPO_TP_W : RegField := ⟨0x98, 0x0C0, 0, 5, .rwl, 0xA, 4, 4⟩
/-- TPO PERIOD (+0x0C0, 15:8): ms, 1 to 255; reset 10 ms; 0 stored as 1 -/
def TPO_PERIOD : RegField := ⟨0x98, 0x0C0, 8, 8, .rwl, 0xA, 4, 4⟩
/-- SO SRC (+0x100, 2:0): R531; 0b101 to 0b111 stored as 0b000 -/
def SO_SRC : RegField := ⟨0x98, 0x100, 0, 3, .rwl, 0, 8, 4⟩
/-- SO SW (+0x100, 3): Level of an SW output -/
def SO_SW : RegField := ⟨0x98, 0x100, 3, 1, .rw, 0, 8, 4⟩
/-- SO DT_EN (+0x100, 4): Dark test -/
def SO_DT_EN : RegField := ⟨0x98, 0x100, 4, 1, .rwl, 1, 8, 4⟩
/-- SO DT_W (+0x100, 15:8): 10 µs units, 10 to 100; reset 300 µs -/
def SO_DT_W : RegField := ⟨0x98, 0x100, 8, 8, .rwl, 0x1E, 8, 4⟩
/-- SO DT_PER (+0x100, 23:16): Seconds, 1 to 60; reset 10 s -/
def SO_DT_PER : RegField := ⟨0x98, 0x100, 16, 8, .rwl, 0xA, 8, 4⟩
/-- SO_STAT ON (+0x120, 7:0): Readback per output (SO_STAT) -/
def SO_STAT_ON : RegField := ⟨0x98, 0x120, 0, 8, .ro, 0, 1, 0⟩
/-- SO_STAT FAULT (+0x120, 15:8): SO_FAULT per output -/
def SO_STAT_FAULT : RegField := ⟨0x98, 0x120, 8, 8, .ro, 0, 1, 0⟩
/-- SO_STAT MASTER_OPEN (+0x120, 16): R532 -/
def SO_STAT_MASTER_OPEN : RegField := ⟨0x98, 0x120, 16, 1, .ro, 0, 1, 0⟩
/-- SM AXIS (+0x140, 3:0): Mechanical axis watched -/
def SM_AXIS : RegField := ⟨0x98, 0x140, 0, 4, .rwl, 0, 4, 32⟩
/-- SM SLS (+0x140, 4): R540 -/
def SM_SLS : RegField := ⟨0x98, 0x140, 4, 1, .rwl, 0, 4, 32⟩
/-- SM SLP (+0x140, 5): R540 -/
def SM_SLP : RegField := ⟨0x98, 0x140, 5, 1, .rwl, 0, 4, 32⟩
/-- SM SDI (+0x140, 6): R540 -/
def SM_SDI : RegField := ⟨0x98, 0x140, 6, 1, .rwl, 0, 4, 32⟩
/-- SM FORBID (+0x140, 7): SDI forbidden direction: 0 negative, 1 positive -/
def SM_FORBID : RegField := ⟨0x98, 0x140, 7, 1, .rwl, 0, 4, 32⟩
/-- SM REACT (+0x140, 8): 0 Safe Pulse Block, 1 SAFE -/
def SM_REACT : RegField := ⟨0x98, 0x140, 8, 1, .rwl, 0, 4, 32⟩
/-- SM SPD_N (+0x140, 21:16): Cycles, 1 to 63; 0 stored as 1 -/
def SM_SPD_N : RegField := ⟨0x98, 0x140, 16, 6, .rwl, 8, 4, 32⟩
/-- SM V_LIM (+0x144, 31:0): Counts/s, binary32 -/
def SM_V_LIM : RegField := ⟨0x98, 0x144, 0, 32, .rwl, 0, 4, 32⟩
/-- SM V_LIM_DEGR (+0x148, 31:0): Counts/s, binary32 (R541) -/
def SM_V_LIM_DEGR : RegField := ⟨0x98, 0x148, 0, 32, .rwl, 0, 4, 32⟩
/-- SM P_LO (+0x14C, 31:0): Signed counts -/
def SM_P_LO : RegField := ⟨0x98, 0x14C, 0, 32, .rwl, 0, 4, 32⟩
/-- SM P_HI (+0x150, 31:0): Signed counts -/
def SM_P_HI : RegField := ⟨0x98, 0x150, 0, 32, .rwl, 0, 4, 32⟩
/-- SM DIR_TOL (+0x154, 15:0): Counts -/
def SM_DIR_TOL : RegField := ⟨0x98, 0x154, 0, 16, .rwl, 0x10, 4, 32⟩
/-- SM XTOL (+0x154, 31:16): Counts (R539) -/
def SM_XTOL : RegField := ⟨0x98, 0x154, 16, 16, .rwl, 4, 4, 32⟩
/-- SM V_MEAS (+0x158, 31:0): Monitor speed, binary32 -/
def SM_V_MEAS : RegField := ⟨0x98, 0x158, 0, 32, .ro, 0, 4, 32⟩
/-- SM VIOL (+0x15C, 0): Violation held -/
def SM_VIOL : RegField := ⟨0x98, 0x15C, 0, 1, .ro, 0, 4, 32⟩
/-- SM FB (+0x15C, 1): MON_FB held -/
def SM_FB : RegField := ⟨0x98, 0x15C, 1, 1, .ro, 0, 4, 32⟩

/-- Fields of SAF, part 1. -/
def fields1 : List RegField :=
  [SPB_MASK, PERMIT_MASK, UNLOCK_MASK, CTL_SPB_REQ, CTL_FAULT_ACK, CTL_RESET, STAT_STATE, STAT_SPB, STAT_PERMIT, STAT_UNLOCK, STAT_STARTUP_DONE, STAT_XCHK_OK, STAT_FAULT, STAT_DEGR_LEFT, SI_LVL_SI, SI_LVL_VI, SI_FLT_SI_TEST, SI_FLT_SI_HALF, STARTUP_MASK, STARTUP_SEEN, SPB_MODE, SPB_RST_SRC, SPB_T_UNLOCK, DEGR_T_DEGR, CNT_TEST_DISCARD, CNT_SI_TEST_FAIL, SI_MODE, SI_TP_EN, SI_TP_SRC, SI_FILT, SI_DISC, TPO_TP_W, TPO_PERIOD, SO_SRC, SO_SW, SO_DT_EN, SO_DT_W, SO_DT_PER, SO_STAT_ON, SO_STAT_FAULT]
/-- Fields of SAF, part 2. -/
def fields2 : List RegField :=
  [SO_STAT_MASTER_OPEN, SM_AXIS, SM_SLS, SM_SLP, SM_SDI, SM_FORBID, SM_REACT, SM_SPD_N, SM_V_LIM, SM_V_LIM_DEGR, SM_P_LO, SM_P_HI, SM_DIR_TOL, SM_XTOL, SM_V_MEAS, SM_VIOL, SM_FB]
/-- The fields of SAF in the order of its tables. -/
def fields : List RegField := fields1 ++ fields2

end SAF

namespace SEM

/-- CTL EN (+0x040, 0): Semaphore frames on ETH0 and ETH2 -/
def CTL_EN : RegField := ⟨0x99, 0x040, 0, 1, .rwl, 0, 1, 0⟩
/-- CTL VLAN_EN (+0x040, 1): Tagged frames -/
def CTL_VLAN_EN : RegField := ⟨0x99, 0x040, 1, 1, .rwl, 0, 1, 0⟩
/-- CTL VID (+0x040, 27:16): VLAN identifier -/
def CTL_VID : RegField := ⟨0x99, 0x040, 16, 12, .rwl, 0, 1, 0⟩
/-- STAT CONN_UP (+0x044, 7:0): Consumer connections delivering -/
def STAT_CONN_UP : RegField := ⟨0x99, 0x044, 0, 8, .ro, 0, 1, 0⟩
/-- STAT NET0_LOST (+0x044, 15:8): ETH0 lost, per connection (R545) -/
def STAT_NET0_LOST : RegField := ⟨0x99, 0x044, 8, 8, .ro, 0, 1, 0⟩
/-- STAT NET2_LOST (+0x044, 23:16): ETH2 lost, per connection -/
def STAT_NET2_LOST : RegField := ⟨0x99, 0x044, 16, 8, .ro, 0, 1, 0⟩
/-- STAT AGE_OFF (+0x044, 24): R544 -/
def STAT_AGE_OFF : RegField := ⟨0x99, 0x044, 24, 1, .ro, 0, 1, 0⟩
/-- CNT AUTH_FAIL (+0x048, 15:0): R544, saturating -/
def CNT_AUTH_FAIL : RegField := ⟨0x99, 0x048, 0, 16, .rc, 0, 1, 0⟩
/-- CNT DIFF (+0x048, 23:16): R545, saturating -/
def CNT_DIFF : RegField := ⟨0x99, 0x048, 16, 8, .rc, 0, 1, 0⟩
/-- CNT LATE (+0x048, 31:24): R544, saturating -/
def CNT_LATE : RegField := ⟨0x99, 0x048, 24, 8, .rc, 0, 1, 0⟩
/-- CONN EN (+0x080, 0): Connection enabled -/
def CONN_EN : RegField := ⟨0x99, 0x080, 0, 1, .rwl, 0, 8, 32⟩
/-- CONN DIR (+0x080, 1): 0 consumer, 1 producer -/
def CONN_DIR : RegField := ⟨0x99, 0x080, 1, 1, .rwl, 0, 8, 32⟩
/-- CONN PERIOD (+0x080, 5:2): Producer cycles, 1 to 16; 0 means 16 (R543) -/
def CONN_PERIOD : RegField := ⟨0x99, 0x080, 2, 4, .rwl, 1, 8, 32⟩
/-- CONN KEY_IDX (+0x080, 15:8): Key, as set out in "Security" -/
def CONN_KEY_IDX : RegField := ⟨0x99, 0x080, 8, 8, .rwl, 0, 8, 32⟩
/-- CONN CONN_ID (+0x080, 31:16): Table 15-3 -/
def CONN_CONN_ID : RegField := ⟨0x99, 0x080, 16, 16, .rwl, 0, 8, 32⟩
/-- CONN DMAC_LO (+0x084, 31:0): Destination MAC [31:0] -/
def CONN_DMAC_LO : RegField := ⟨0x99, 0x084, 0, 32, .rwl, 0, 8, 32⟩
/-- CONN DMAC_HI (+0x088, 15:0): Destination MAC [47:32] -/
def CONN_DMAC_HI : RegField := ⟨0x99, 0x088, 0, 16, .rwl, 0, 8, 32⟩
/-- CONN WDOG (+0x08C, 6:0): ms, 2 to 100; reset 10 ms; values outside stored at the nearer limit -/
def CONN_WDOG : RegField := ⟨0x99, 0x08C, 0, 7, .rwl, 0xA, 8, 32⟩
/-- CONN MAX_AGE (+0x08C, 31:16): µs; 0 disables the age check; reset 1 000 µs -/
def CONN_MAX_AGE : RegField := ⟨0x99, 0x08C, 16, 16, .rwl, 0x3E8, 8, 32⟩
/-- CONN SEQ (+0x090, 31:0): Last sent or last accepted SEQ -/
def CONN_SEQ : RegField := ⟨0x99, 0x090, 0, 32, .ro, 0, 8, 32⟩
/-- CONN BIT_A (+0x094, 7:0): DATA bit for VI2c (R546) -/
def CONN_BIT_A : RegField := ⟨0x99, 0x094, 0, 8, .rwl, 0, 8, 32⟩
/-- CONN BIT_B (+0x094, 15:8): DATA bit for VI2c+1 -/
def CONN_BIT_B : RegField := ⟨0x99, 0x094, 8, 8, .rwl, 1, 8, 32⟩

/-- Fields of SEM, part 1. -/
def fields1 : List RegField :=
  [CTL_EN, CTL_VLAN_EN, CTL_VID, STAT_CONN_UP, STAT_NET0_LOST, STAT_NET2_LOST, STAT_AGE_OFF, CNT_AUTH_FAIL, CNT_DIFF, CNT_LATE, CONN_EN, CONN_DIR, CONN_PERIOD, CONN_KEY_IDX, CONN_CONN_ID, CONN_DMAC_LO, CONN_DMAC_HI, CONN_WDOG, CONN_MAX_AGE, CONN_SEQ, CONN_BIT_A, CONN_BIT_B]
/-- The fields of SEM in the order of its tables. -/
def fields : List RegField := fields1

end SEM

namespace SEC

/-- ID HASH (+0x080, 31:0) -/
def ID_HASH : RegField := ⟨0xA0, 0x080, 0, 32, .ro, 0, 12, 4⟩
/-- OWNER HASH (+0x0B0, 31:0) -/
def OWNER_HASH : RegField := ⟨0xA0, 0x0B0, 0, 32, .ro, 0, 12, 4⟩
/-- CELL_ID HASH (+0x0E0, 31:0) -/
def CELL_ID_HASH : RegField := ⟨0xA0, 0x0E0, 0, 32, .ro, 0, 12, 4⟩
/-- CMD CMD (+0x040, 7:0): Table 16-2 -/
def CMD : RegField := ⟨0xA0, 0x040, 0, 8, .wo, 0, 1, 0⟩
/-- CMD LEN (+0x040, 18:8): Input bytes, 0 to 1 024 -/
def CMD_LEN : RegField := ⟨0xA0, 0x040, 8, 11, .wo, 0, 1, 0⟩
/-- STAT CLAIMED (+0x044, 0): R556 -/
def STAT_CLAIMED : RegField := ⟨0xA0, 0x044, 0, 1, .ro, 0, 1, 0⟩
/-- STAT ID_OK (+0x044, 1): R551 -/
def STAT_ID_OK : RegField := ⟨0xA0, 0x044, 1, 1, .ro, 0, 1, 0⟩
/-- STAT ENTROPY_OK (+0x044, 2): R550 -/
def STAT_ENTROPY_OK : RegField := ⟨0xA0, 0x044, 2, 1, .ro, 0, 1, 0⟩
/-- STAT DBG_OPEN (+0x044, 3): R579 -/
def STAT_DBG_OPEN : RegField := ⟨0xA0, 0x044, 3, 1, .ro, 0, 1, 0⟩
/-- STAT BUSY (+0x044, 4): R554 -/
def STAT_BUSY : RegField := ⟨0xA0, 0x044, 4, 1, .ro, 0, 1, 0⟩
/-- STAT SVN_MIN (+0x044, 14:8): R562 -/
def STAT_SVN_MIN : RegField := ⟨0xA0, 0x044, 8, 7, .ro, 0, 1, 0⟩
/-- STAT LAST_RES (+0x044, 23:16): Table 16-3 -/
def STAT_LAST_RES : RegField := ⟨0xA0, 0x044, 16, 8, .ro, 0, 1, 0⟩
/-- STAT LAST_CMD (+0x044, 31:24): Last command -/
def STAT_LAST_CMD : RegField := ⟨0xA0, 0x044, 24, 8, .ro, 0, 1, 0⟩
/-- RING REKEY_LOG (+0x048, 4:0): 16 to 30; values outside are stored at the nearer limit -/
def RING_REKEY_LOG : RegField := ⟨0xA0, 0x048, 0, 5, .rwl, 0x1E, 1, 0⟩
/-- RING SUSPECT_N (+0x048, 15:8): R574; 0 stored as 1 -/
def RING_SUSPECT_N : RegField := ⟨0xA0, 0x048, 8, 8, .rwl, 8, 1, 0⟩
/-- RING RING (+0x048, 21:16): Ring for REKEY_NOW -/
def RING : RegField := ⟨0xA0, 0x048, 16, 6, .rw, 0, 1, 0⟩
/-- RING REKEY_NOW (+0x048, 22): R571 -/
def RING_REKEY_NOW : RegField := ⟨0xA0, 0x048, 22, 1, .wo, 0, 1, 0⟩
/-- SUSPECT CELL (+0x04C, 12:0): Cell table entry -/
def SUSPECT_CELL : RegField := ⟨0xA0, 0x04C, 0, 13, .rw, 0, 1, 0⟩
/-- SUSPECT MARK (+0x04C, 16): Suspect mark of CELL -/
def SUSPECT_MARK : RegField := ⟨0xA0, 0x04C, 16, 1, .ro, 0, 1, 0⟩
/-- SUSPECT CLR (+0x04C, 17): Clear the mark of CELL -/
def SUSPECT_CLR : RegField := ⟨0xA0, 0x04C, 17, 1, .wo, 0, 1, 0⟩
/-- KEYS LOADED (+0x050, 15:0): Key slots (R575) -/
def KEYS_LOADED : RegField := ⟨0xA0, 0x050, 0, 16, .ro, 0, 1, 0⟩
/-- CNT REJECTS (+0x054, 7:0): Envelopes refused, saturating -/
def CNT_REJECTS : RegField := ⟨0xA0, 0x054, 0, 8, .rc, 0, 1, 0⟩
/-- CNT SUSPECTS (+0x054, 15:8): R574, saturating -/
def CNT_SUSPECTS : RegField := ⟨0xA0, 0x054, 8, 8, .rc, 0, 1, 0⟩
/-- CNT REKEYS (+0x054, 31:16): Switches completed, saturating -/
def CNT_REKEYS : RegField := ⟨0xA0, 0x054, 16, 16, .rc, 0, 1, 0⟩
/-- MBOX DATA (+0x400, 31:0): Mailbox (R554) -/
def MBOX_DATA : RegField := ⟨0xA0, 0x400, 0, 32, .rw, 0, 256, 4⟩

/-- Fields of SEC, part 1. -/
def fields1 : List RegField :=
  [ID_HASH, OWNER_HASH, CELL_ID_HASH, CMD, CMD_LEN, STAT_CLAIMED, STAT_ID_OK, STAT_ENTROPY_OK, STAT_DBG_OPEN, STAT_BUSY, STAT_SVN_MIN, STAT_LAST_RES, STAT_LAST_CMD, RING_REKEY_LOG, RING_SUSPECT_N, RING, RING_REKEY_NOW, SUSPECT_CELL, SUSPECT_MARK, SUSPECT_CLR, KEYS_LOADED, CNT_REJECTS, CNT_SUSPECTS, CNT_REKEYS, MBOX_DATA]
/-- The fields of SEC in the order of its tables. -/
def fields : List RegField := fields1

end SEC

namespace ETH

/-- CTL MODE (+0x040, 0): 0 1000BASE-X, 1 SGMII -/
def CTL_MODE : RegField := ⟨0xA8, 0x040, 0, 1, .rwl, 0, 1, 0⟩
/-- CTL AN_EN (+0x040, 1): Auto-negotiation -/
def CTL_AN_EN : RegField := ⟨0xA8, 0x040, 1, 1, .rwl, 1, 1, 0⟩
/-- CTL LOOPBACK (+0x040, 2): PCS loopback for test -/
def CTL_LOOPBACK : RegField := ⟨0xA8, 0x040, 2, 1, .rw, 0, 1, 0⟩
/-- STAT LINK (+0x044, 0): Link up -/
def STAT_LINK : RegField := ⟨0xA8, 0x044, 0, 1, .ro, 0, 1, 0⟩
/-- STAT AN_DONE (+0x044, 1): Auto-negotiation complete -/
def STAT_AN_DONE : RegField := ⟨0xA8, 0x044, 1, 1, .ro, 0, 1, 0⟩
/-- STAT REMOTE_FAULT (+0x044, 2): Reported by the partner -/
def STAT_REMOTE_FAULT : RegField := ⟨0xA8, 0x044, 2, 1, .ro, 0, 1, 0⟩
/-- MAC_LO MAC_LO (+0x048, 31:0): Source MAC [31:0] -/
def MAC_LO : RegField := ⟨0xA8, 0x048, 0, 32, .rwl, 0, 1, 0⟩
/-- MAC_HI MAC_HI (+0x04C, 15:0): Source MAC [47:32]; bits 31:16 reserved -/
def MAC_HI : RegField := ⟨0xA8, 0x04C, 0, 16, .rwl, 0, 1, 0⟩
/-- LAT TX_LAT (+0x050, 15:0): Internal transmit latency removed under R69, 0.25 ns units -/
def LAT_TX_LAT : RegField := ⟨0xA8, 0x050, 0, 16, .ro, 0, 1, 0⟩
/-- LAT RX_LAT (+0x050, 31:16): Internal receive latency, 0.25 ns units -/
def LAT_RX_LAT : RegField := ⟨0xA8, 0x050, 16, 16, .ro, 0, 1, 0⟩
/-- CNT RX_FRAMES (+0x054, 15:0): Frames given to an engine, saturating -/
def CNT_RX_FRAMES : RegField := ⟨0xA8, 0x054, 0, 16, .rc, 0, 1, 0⟩
/-- CNT TX_FRAMES (+0x054, 31:16): Saturating -/
def CNT_TX_FRAMES : RegField := ⟨0xA8, 0x054, 16, 16, .rc, 0, 1, 0⟩
/-- CNT2 CRC_ERR (+0x058, 7:0): R669, saturating -/
def CNT2_CRC_ERR : RegField := ⟨0xA8, 0x058, 0, 8, .rc, 0, 1, 0⟩
/-- CNT2 UNCLAIMED (+0x058, 15:8): R669, saturating -/
def CNT2_UNCLAIMED : RegField := ⟨0xA8, 0x058, 8, 8, .rc, 0, 1, 0⟩
/-- CNT2 OVERSIZE (+0x058, 23:16): R669, saturating -/
def CNT2_OVERSIZE : RegField := ⟨0xA8, 0x058, 16, 8, .rc, 0, 1, 0⟩
/-- CNT2 TX_WAIT (+0x058, 31:24): R670, saturating -/
def CNT2_TX_WAIT : RegField := ⟨0xA8, 0x058, 24, 8, .rc, 0, 1, 0⟩

/-- Fields of ETH, part 1. -/
def fields1 : List RegField :=
  [CTL_MODE, CTL_AN_EN, CTL_LOOPBACK, STAT_LINK, STAT_AN_DONE, STAT_REMOTE_FAULT, MAC_LO, MAC_HI, LAT_TX_LAT, LAT_RX_LAT, CNT_RX_FRAMES, CNT_TX_FRAMES, CNT2_CRC_ERR, CNT2_UNCLAIMED, CNT2_OVERSIZE, CNT2_TX_WAIT]
/-- The fields of ETH in the order of its tables. -/
def fields : List RegField := fields1

end ETH

namespace HIF

/-- PCIE LINK_UP (+0x040, 0): Link in L0 -/
def PCIE_LINK_UP : RegField := ⟨0xB0, 0x040, 0, 1, .ro, 0, 1, 0⟩
/-- PCIE SPEED (+0x040, 2:1): 0b01 2.5, 0b10 5.0, 0b11 8.0 GT/s -/
def PCIE_SPEED : RegField := ⟨0xB0, 0x040, 1, 2, .ro, 0, 1, 0⟩
/-- PCIE WIDTH (+0x040, 5:3): Lanes -/
def PCIE_WIDTH : RegField := ⟨0xB0, 0x040, 3, 3, .ro, 0, 1, 0⟩
/-- PCIE MSIX_EN (+0x040, 6): MSI-X enabled by the host -/
def PCIE_MSIX_EN : RegField := ⟨0xB0, 0x040, 6, 1, .ro, 0, 1, 0⟩
/-- BOOT GO (+0x044, 0): R639 -/
def BOOT_GO : RegField := ⟨0xB0, 0x044, 0, 1, .wo, 0, 1, 0⟩
/-- BOOT_LEN LEN (+0x048, 22:0): Envelope length in bytes -/
def BOOT_LEN : RegField := ⟨0xB0, 0x048, 0, 23, .rw, 0, 1, 0⟩
/-- QSPI DIV (+0x04C, 3:0): Clock 250 MHz / (DIV + 2); reset 50 MHz -/
def QSPI_DIV : RegField := ⟨0xB0, 0x04C, 0, 4, .rw, 3, 1, 0⟩
/-- QSPI ADDR4 (+0x04C, 4): Four-byte addresses -/
def QSPI_ADDR4 : RegField := ⟨0xB0, 0x04C, 4, 1, .rw, 0, 1, 0⟩
/-- QSPI_CMD OPCODE (+0x050, 7:0): Flash command, after boot only -/
def QSPI_CMD_OPCODE : RegField := ⟨0xB0, 0x050, 0, 8, .rw, 0, 1, 0⟩
/-- QSPI_CMD ADDR_BYTES (+0x050, 9:8): 0 to 3 bytes, or 4 with ADDR4 set -/
def QSPI_CMD_ADDR_BYTES : RegField := ⟨0xB0, 0x050, 8, 2, .rw, 0, 1, 0⟩
/-- QSPI_CMD DUMMY (+0x050, 14:10): Dummy clocks -/
def QSPI_CMD_DUMMY : RegField := ⟨0xB0, 0x050, 10, 5, .rw, 0, 1, 0⟩
/-- QSPI_CMD WRITE (+0x050, 15): Send the data window instead of reading -/
def QSPI_CMD_WRITE : RegField := ⟨0xB0, 0x050, 15, 1, .rw, 0, 1, 0⟩
/-- QSPI_CMD LEN (+0x050, 22:16): Data bytes, 0 to 64 -/
def QSPI_CMD_LEN : RegField := ⟨0xB0, 0x050, 16, 7, .rw, 0, 1, 0⟩
/-- QSPI_CMD START (+0x050, 31): Run; QSPI_DONE at the end -/
def QSPI_CMD_START : RegField := ⟨0xB0, 0x050, 31, 1, .wo, 0, 1, 0⟩
/-- QSPI_DATA DATA (+0x080, 31:0): 64-byte data window -/
def QSPI_DATA : RegField := ⟨0xB0, 0x080, 0, 32, .rw, 0, 16, 4⟩
/-- QSPI_ADDR ADDR (+0x054, 31:0): Flash address -/
def QSPI_ADDR : RegField := ⟨0xB0, 0x054, 0, 32, .rw, 0, 1, 0⟩
/-- HST USE (+0x100, 2:0): 0b000 none, 0b001 graph wait, 0b010 DMA0 commands, 0b011 DMA1 commands, 0b100 DMA completions, 0b101 PMU … -/
def HST_USE : RegField := ⟨0xB0, 0x100, 0, 3, .rwl, 0, 16, 16⟩
/-- HST PI (+0x104, 15:0): R624 -/
def HST_PI : RegField := ⟨0xB0, 0x104, 0, 16, .rw, 0, 16, 16⟩
/-- HST CI (+0x108, 15:0): R624 -/
def HST_CI : RegField := ⟨0xB0, 0x108, 0, 16, .rw, 0, 16, 16⟩
/-- HST RING_FULL (+0x10C, 15:0): R28, saturating -/
def HST_RING_FULL : RegField := ⟨0xB0, 0x10C, 0, 16, .rc, 0, 16, 16⟩
/-- DMA EN (+0x200, 0): Engine enabled -/
def DMA_EN : RegField := ⟨0xB0, 0x200, 0, 1, .rw, 0, 2, 16⟩
/-- DMA CRING (+0x200, 7:4): Completion ring -/
def DMA_CRING : RegField := ⟨0xB0, 0x200, 4, 4, .rw, 0, 2, 16⟩
/-- DMA BUSY (+0x200, 8): Command running -/
def DMA_BUSY : RegField := ⟨0xB0, 0x200, 8, 1, .ro, 0, 2, 16⟩
/-- DMA ERRORS (+0x204, 15:0): Completions with STATUS not 0x00, saturating -/
def DMA_ERRORS : RegField := ⟨0xB0, 0x204, 0, 16, .rc, 0, 2, 16⟩

/-- Fields of HIF, part 1. -/
def fields1 : List RegField :=
  [PCIE_LINK_UP, PCIE_SPEED, PCIE_WIDTH, PCIE_MSIX_EN, BOOT_GO, BOOT_LEN, QSPI_DIV, QSPI_ADDR4, QSPI_CMD_OPCODE, QSPI_CMD_ADDR_BYTES, QSPI_CMD_DUMMY, QSPI_CMD_WRITE, QSPI_CMD_LEN, QSPI_CMD_START, QSPI_DATA, QSPI_ADDR, HST_USE, HST_PI, HST_CI, HST_RING_FULL, DMA_EN, DMA_CRING, DMA_BUSY, DMA_ERRORS]
/-- The fields of HIF in the order of its tables. -/
def fields : List RegField := fields1

end HIF

namespace EVT

/-- PAGE_PEND LINES (+0x040, 31:0) -/
def PAGE_PEND_LINES : RegField := ⟨0xB1, 0x040, 0, 32, .ro, 0, 8, 4⟩
/-- VEC ASSERTED (+0x060, 31:0) -/
def VEC_ASSERTED : RegField := ⟨0xB1, 0x060, 0, 32, .ro, 0, 2, 4⟩
/-- IRQ_MASK MASK (+0x068, 31:0) -/
def IRQ_MASK : RegField := ⟨0xB1, 0x068, 0, 32, .rw, 0xFFFFFFFF, 2, 4⟩
/-- MAP VEC (+0x100, 5:0): Vector of page p -/
def MAP_VEC : RegField := ⟨0xB1, 0x100, 0, 6, .rw, 0, 256, 4⟩
/-- MAP EN (+0x100, 8): Line takes part -/
def MAP_EN : RegField := ⟨0xB1, 0x100, 8, 1, .rw, 1, 256, 4⟩

/-- Fields of EVT, part 1. -/
def fields1 : List RegField :=
  [PAGE_PEND_LINES, VEC_ASSERTED, IRQ_MASK, MAP_VEC, MAP_EN]
/-- The fields of EVT in the order of its tables. -/
def fields : List RegField := fields1

end EVT

namespace AUX

/-- GPIO DIR (+0x040, 7:0): 1: output -/
def GPIO_DIR : RegField := ⟨0xB2, 0x040, 0, 8, .rw, 0, 1, 0⟩
/-- GPIO OUT (+0x040, 15:8): Output levels -/
def GPIO_OUT : RegField := ⟨0xB2, 0x040, 8, 8, .rw, 0, 1, 0⟩
/-- GPIO IN (+0x040, 23:16): Pin levels -/
def GPIO_IN : RegField := ⟨0xB2, 0x040, 16, 8, .ro, 0, 1, 0⟩
/-- EDGE RISE (+0x044, 7:0): Raise GPIO on a rising edge -/
def EDGE_RISE : RegField := ⟨0xB2, 0x044, 0, 8, .rw, 0, 1, 0⟩
/-- EDGE FALL (+0x044, 15:8): Raise GPIO on a falling edge -/
def EDGE_FALL : RegField := ⟨0xB2, 0x044, 8, 8, .rw, 0, 1, 0⟩
/-- EDGE SEEN (+0x044, 23:16): Pins whose edge raised GPIO -/
def EDGE_SEEN : RegField := ⟨0xB2, 0x044, 16, 8, .w1c, 0, 1, 0⟩
/-- TEMP T (+0x048, 11:0): Junction temperature, signed, 0.25 °C -/
def TEMP_T : RegField := ⟨0xB2, 0x048, 0, 12, .ro, 0, 1, 0⟩
/-- TEMP HIGH (+0x048, 23:16): Signed °C; TEMP_HIGH raised on rising through it; reset 115 °C -/
def TEMP_HIGH : RegField := ⟨0xB2, 0x048, 16, 8, .rw, 0x73, 1, 0⟩

/-- Fields of AUX, part 1. -/
def fields1 : List RegField :=
  [GPIO_DIR, GPIO_OUT, GPIO_IN, EDGE_RISE, EDGE_FALL, EDGE_SEEN, TEMP_T, TEMP_HIGH]
/-- The fields of AUX in the order of its tables. -/
def fields : List RegField := fields1

end AUX

end Sys2Proof.Machine
end

