-- ==== Sys2Proof/Machine/Sparse.lean ====
section
/-! DEFINITION. Sparse data by key: a list of key and value pairs, rising by key, in which a key that is not listed
holds its default. The register file and the SRAM are held this way. -/

namespace Sys2Proof.Machine

/-- The value listed for a key. -/
def Sparse.get {α : Type} : List (Nat × α) → Nat → Option α
  | [], _ => none
  | (j, w) :: t, k => if j = k then some w else Sparse.get t k

/-- A key listed with a value, in its place in the rising order. -/
def Sparse.insert {α : Type} : List (Nat × α) → Nat → α → List (Nat × α)
  | [], k, v => [(k, v)]
  | (j, w) :: t, k, v =>
    if k < j then (k, v) :: (j, w) :: t
    else if j = k then (k, v) :: t
    else (j, w) :: Sparse.insert t k v

/-- A key no longer listed. -/
def Sparse.erase {α : Type} : List (Nat × α) → Nat → List (Nat × α)
  | [], _ => []
  | (j, w) :: t, k => if j = k then Sparse.erase t k else (j, w) :: Sparse.erase t k

/-- A key given a value, which `none` takes off the list. -/
def Sparse.put {α : Type} (l : List (Nat × α)) (k : Nat) : Option α → List (Nat × α)
  | none => Sparse.erase l k
  | some v => Sparse.insert l k v

/-- The keys rise strictly and every key is above `b`, when `b` is given. -/
def Sparse.rising {α : Type} : Option Nat → List (Nat × α) → Bool
  | _, [] => true
  | b, (j, _) :: t =>
    (match b with
      | none => true
      | some c => decide (c < j)) && Sparse.rising (some j) t

end Sys2Proof.Machine
end

