-- ==== Sys2Proof/Machine/State.lean ====
section
/-! DEFINITION. The state of the GV-4800: the register file, the SRAM, and per block the state that stands beside
the registers; the queue of waiting commands; the state right after reset; the reasons a step can stop. -/

namespace Sys2Proof.Machine

/-- Why a command stops. -/
inductive Fault where
  /-- A host access names a byte outside the 16 MB of SRAM that BAR2 maps (R20, Table 18-2).
  Raised by BAR2_WRITE; safe: the device has no such byte. -/
  | outsideSram (addr : Nat)
  deriving DecidableEq, Repr

/-- Why a command has no meaning. -/
inductive Refusal where
  /-- The command has no meaning in this model. Raised by Dispatch alone; safe. -/
  | notModelled (mnemonic : String)
  deriving DecidableEq, Repr

/-- The levels of the strap balls (R635, Table 18-5). -/
structure Straps where
  role    : Nat
  unit    : Nat
  lgcy    : Nat
  locksel : Nat
  bootsrc : Nat
  deriving DecidableEq, Repr

/-- What leaves the balls of the device (the model's own record). -/
inductive Out where
  /-- A hoist sent on a Bunting port, and the Meridian instant at which its first header bit leaves the balls (R91, R92). -/
  | hoist (port launch : Nat) (data : Bytes)
  /-- The same hoist as it stands on the line: 66-bit blocks, bit 0 first, from the start block to the end block (R90, R92). -/
  | line (port launch : Nat) (blocks : List Nat)
  /-- An Ethernet frame's content sent on a port by the engine of the given number, and its transmit timestamp (R69). -/
  | frame (port engine stamp : Nat) (data : Bytes)
  /-- An MSI-X message of a vector (R630). -/
  | msix (vec : Nat)
  /-- A pulse at PPS_OUT, its width in µs (R74). -/
  | ppsPulse (width : Nat)
  /-- One pulse at BPT, its width in µs (R194). -/
  | bptPulse (width : Nat)
  /-- Bytes written to host memory (R626). -/
  | hostWrite (addr : Nat) (data : Bytes)
  /-- A burst on the primary of a float channel from an instant: the polarity of each 20 ns, and whether it cuts an ON burst short (R262 to
  R264). -/
  | burst (chan start : Nat) (units : List Bool) (cuts : Bool)
  /-- A direct channel's action begins at an instant: toward the level that stands for on, or for off (R223, R243, R256). -/
  | gate (chan start : Nat) (level : Bool)
  /-- An SSI read at FBfCK (R405): interface, first falling edge, clocks, their period and the delay from a rising edge to its sample. -/
  | ssiClock (f start clocks period sample : Nat)
  /-- A frame sent on the twin link: kind and content. -/
  | twin (kind : Nat) (data : Bytes)
  /-- Bytes returned to the SPI initiator (R633). -/
  | spi (data : Bytes)
  /-- A value returned to the reader of a register. -/
  | readData (page ofs value : Nat)
  /-- A command sent to the flash: opcode, address, address bytes, dummy clocks and data (R648). -/
  | flash (op addr addrBytes dummy : Nat) (data : Bytes)
  deriving DecidableEq, Repr

/-- The Meridian island (02). Times are in units of 2⁻¹⁶ ns. -/
structure MerState where
  /-- The Meridian: seconds times 10⁹ plus nanoseconds, with the fraction below (R47). -/
  mer       : Nat
  /-- The uptime counter with its fraction (R51). -/
  uptime    : Nat
  /-- What the rate correction has not yet carried, in 2⁻¹⁶ ns over 256·10⁹ (R48, R57). -/
  rateRes   : Int
  /-- Frequency term in force, 2⁻⁸ ppb (R56, R82). -/
  freq      : Int
  /-- Phase term in force, 2⁻⁸ ppb (R56, R82). -/
  phase     : Int
  /-- The snapshot of R89. -/
  snapMer   : Nat
  snapUp    : Nat
  /-- The step decided and not yet applied, and whether REANCHOR ordered it (R59). -/
  stepDelta : Option Int
  stepByReanchor : Bool
  /-- The next hoist header carries the step flag (R60). -/
  stepFlag  : Bool
  /-- Consecutive updates at or below the threshold while OFFSET_LARGE stands (R58). -/
  largeRun  : Nat
  /-- Holdover: absolute offset at entry, uptime of entry and of the last update (R76). -/
  hoE0      : Nat
  hoStart   : Nat
  hoLast    : Nat
  /-- The last stride boundary issued, and the stride counter that hoist headers carry. -/
  lastS     : Nat
  seq       : Nat
  /-- Cell: first discipline step made, S_prev, and the runs of R83. -/
  cellLocked : Bool
  sPrev     : Nat
  goodRun   : Nat
  badRun    : Nat
  deriving DecidableEq, Repr

/-- The PPS input (R71 to R73). -/
structure PpsState where
  /-- Corrected Meridian instant of the last edge. -/
  last    : Option Nat
  run     : Nat
  qual    : Bool
  /-- Source minus Meridian at the last 16 edges of the run, newest first. -/
  offsets : List Int
  /-- Number of the second that the last edge marked. -/
  second  : Nat
  armed   : Bool
  ever    : Bool
  /-- Edges ignored for want of a written TOD (R73). -/
  ignored : Nat
  deriving DecidableEq, Repr

/-- One PTP engine (R62 to R66): the last offset estimates, newest first; the run of authentication failures; the
data set of its grandmaster; the last Sync that awaits its Follow_Up; and when the last Sync and the last Announce came (R54). -/
structure PtpState where
  offsets : List Int
  authRun : Nat
  master  : List Nat
  syncSeq : Option Nat
  syncRx  : Nat
  syncCorr : Int
  lastSync : Option Nat
  lastAnn  : Option Nat
  deriving DecidableEq, Repr

/-- A pennant request: type, addressed cell and payload (bytes 4 to 55 of Table 3-9; 60 bytes from byte 4 for BOOT_DATA). -/
structure PenReq where
  typ     : Nat
  target  : Nat
  payload : Bytes
  deriving DecidableEq, Repr

/-- An entry of a port ring PRTp (R115, R116, R130, R28). The spec gives the entries no layout. -/
inductive PrtEntry where
  /-- A request that waits for its slot, and whether PEN_WAIT has counted it (R115). -/
  | request (q : PenReq) (counted : Bool)
  /-- A response landed: transaction, cell, status and data. -/
  | done (txn target status : Nat) (data : Bytes)
  /-- A transaction that ended with PEN_TMO. -/
  | timeout (txn target : Nat)
  /-- A cell declared SILENT: ring and cell index. -/
  | silent (ring index : Nat)
  deriving DecidableEq, Repr

/-- A port ring PRTp: entries not yet taken, entries whose producer waits, the waits that its control block counts as RING_FULL, and
the number of entries written since reset. -/
structure PortRing where
  entries : List PrtEntry
  held    : List PrtEntry
  full    : Nat
  written : Nat
  deriving DecidableEq, Repr

/-- An outstanding transaction (R115): ring, cell, number, launching port, and SEQ of the hoist that carried its request. -/
structure PenTxn where
  ring   : Nat
  target : Nat
  txn    : Nat
  port   : Nat
  seq    : Nat
  deriving DecidableEq, Repr

/-- A hoist that is outstanding (R121). -/
structure Outst where
  seq    : Nat
  dir    : Nat
  launch : Nat
  deriving DecidableEq, Repr

/-- A pennant accepted from a hoist and not yet acted on (R673): its arrival (Meridian), direction and sequence number of the hoist,
the header's UNIT, whether the hoist passed TCRC, the port, and the pennant's bytes. -/
structure HeldPen where
  time   : Nat
  dir    : Nat
  seq    : Nat
  unit   : Nat
  tcrcOk : Bool
  port   : Nat
  data   : Bytes
  deriving DecidableEq, Repr

/-- A ring as the hub keeps it beside BNC_RING_TBL: keys (R564 to R572), survey (R79), hoists in flight and drift runs. -/
structure Ring where
  /-- Key in use, empty for the bring-up key, its index, and the strides it has served. -/
  key      : Bytes
  keyIdx   : Nat
  served   : Nat
  /-- The next key and its index; the strides left in which REKEY stands, and whether a rekey runs. -/
  nextKey  : Bytes
  nextIdx  : Nat
  rekey    : Bool
  rekeyRun : Nat
  /-- Cells that have acknowledged the key being agreed. -/
  acked    : List Nat
  /-- K_pair by cell index. -/
  pairs    : List (Nat × Bytes)
  /-- The hub's ephemeral private key for the ring. -/
  eph      : Bytes
  /-- CELL_CRED and KEY_ACK fragments by cell. -/
  creds    : List (Nat × List (Nat × Bytes))
  /-- Cells whose KEY_WRAP is due. -/
  wrapDue  : List Nat
  /-- Identity hash of each cell (R567). -/
  ids      : List (Nat × Bytes)
  /-- Forward and reverse delay of each hop, and loop times, in 2⁻¹⁶ ns. -/
  df       : List Nat
  dr       : List Nat
  lf       : Nat
  lr       : Nat
  driftF   : Nat
  driftR   : Nat
  outs     : List Outst
  /-- Next chunk of the boot stream; directions whose hoists return wrapped. -/
  bootPos  : Nat
  wrapMask : Nat
  /-- BNC_SPLIT is to be broadcast (R675). -/
  splitDue : Bool
  /-- The boot image is streamed to the ring for step 6 of its bring-up (R118). -/
  booting  : Bool
  deriving DecidableEq, Repr

/-- The trunks: return records landed and not yet sent on, with their arrival (Meridian), the surveyed delay to the lead, a branch in
service, and the branches that a lead keys. The tree's key stands where a ring's does, under the number 48 (R570). -/
structure Trunk where
  landed   : List (Nat × Bytes)
  delay    : Nat
  service  : Bool
  branches : List Nat
  deriving DecidableEq, Repr

/-- What the hub keeps of a cell beside its Cell table entry: the runs of R130, R160 and of "Security". -/
structure CellAux where
  /-- Exclusion causes in force, bit `c` for code `c` of Table 4-3. -/
  excl     : Nat
  /-- Causes that the last and the previous landed uplink showed. -/
  shown0   : Nat
  shown1   : Nat
  /-- Uplinks landed since the group was enabled. -/
  landed   : Nat
  /-- SEQ of the last landed uplink and whether one has landed; the SEQs landed last, newest first (R125). -/
  lastSeq  : Nat
  everLanded : Bool
  seqs     : List Nat
  /-- SEQ of the newest uplink that had landed when the group was enabled: only a newer one counts for R159. -/
  before   : Option Nat
  /-- Landed since the last Cell table cutoff. -/
  fresh    : Bool
  silent   : Bool
  silentCnt : Nat
  suspect  : Bool
  utagFails : Nat
  /-- An uplink of the present stride failed UTAG. -/
  utagBad  : Bool
  /-- The last Cell table cutoff counted a failed stride (R574). -/
  utagLast : Bool
  /-- The last bypass was a refill swap (R167). -/
  refillByp : Bool
  /-- Commanded states at the end of the last computed applying strides, newest first (R155). -/
  endStates : List Nat
  /-- The engine's own fields of the entry (R150, R151): V_PRED, KEY, LAST_EDGE, STATE, CAUSE, EDGES, SW_CNT and INS_HIST. The Cell table
  shows them; they are written there anew in every compute stride. -/
  vPred    : Nat
  key      : Nat
  lastEdge : Nat
  state    : Nat
  cause    : Nat
  edges    : Nat
  swCnt    : Nat
  hist     : List Int
  /-- Uplinks looked at since CELL_BACK, and a SILENT cause that they have not yet ended (R160). -/
  sinceBack : Nat
  deriving DecidableEq, Repr

/-- One arm group of the Contour engine (04). -/
structure ArmGroup where
  /-- The CTG page as it stood at the start of the last sort stage (R184). -/
  cfg      : List (Nat × Nat)
  /-- The engine runs this group since a sort stage. -/
  running  : Bool
  rot      : Nat
  nPrev    : Int
  /-- End point of the last computed applying stride, binary64 (R39). -/
  prevEnd  : Nat
  /-- Arm currents I_k, binary32, newest first (R152). -/
  iHist    : List Nat
  /-- Charging direction of the last stride whose current exceeded IDEAD. -/
  charging : Bool
  /-- An edge stage has run under a stop source since the last free one (R179). -/
  wasStop  : Bool
  /-- R179: every dwell counts as satisfied in this edge stage's assignment. -/
  noCells  : Bool
  /-- V_avg, V_max, V_min and the sum of V_pred of the available cells, binary64 (R158, R183). -/
  vAvg     : Nat
  vMax     : Nat
  vMin     : Nat
  vSum     : Nat
  /-- The band in force, binary64 (R170). -/
  band     : Nat
  /-- V_pred of each position, binary64. -/
  vPred    : List Nat
  /-- Edges of each position in the stride being computed: offset in 250 ps steps and new state. -/
  edges    : List (List (Nat × Nat))
  /-- State of each position at the start of the stride being computed. -/
  start    : List Nat
  /-- Level reached by the steps of the stride being computed, and the mode of a stop stage. -/
  nNow     : Int
  stageMode : Nat
  /-- Commands built for the next launch, by position; empty before the first compute stride has completed (R32). -/
  flags    : List Nat
  /-- Compute strides begun since the engine was enabled. -/
  strides  : Nat
  /-- Volt-seconds to add to both end points, binary64 (R173). -/
  vsComp   : Nat
  /-- Latest trunk record: mode, V_REF1, V_REF2, I_ARM, and the SEQ of the trunk hoist that carried it (R182, R45). -/
  tMode    : Nat
  tRef1    : Nat
  tRef2    : Nat
  tI       : Nat
  tSeq     : Option Nat
  /-- Return record of the trunk group (R183). -/
  ret      : Bytes
  deriving DecidableEq, Repr

/-- The Contour engine beside the groups. -/
structure CtrState where
  /-- Cell table slot in which uplinks land (R34). -/
  slot     : Nat
  /-- LA and D in force (R185). -/
  la       : Nat
  dl       : Nat
  /-- Rings whose slots read as holding no uplink in this compute stride (R494). -/
  absent   : Nat
  /-- Chart-ordered stop source per group in force, and as it will stand from the next launch boundary (R353). -/
  chartStop : Nat
  chartNext : Nat
  /-- CONTROL_FEEDBACK_LOST as a stop source, in force and from the next launch boundary (R356). -/
  cflStop  : Bool
  cflNext  : Bool
  /-- The sort stage and the edge stage of the present compute stride have completed, started. -/
  sorted   : Bool
  edgeStarted : Bool
  edgeDone : Bool
  built    : Bool
  /-- The sort stage of the present compute stride has started; its Cell table cutoff has passed; the instant at which its edge stage
  started. -/
  sortStarted : Bool
  cut      : Bool
  edgeAt   : Nat
  /-- CTR_CTL.STOP_ALL as the last launch boundary took it (R178, R184). -/
  stopAll  : Bool
  deriving DecidableEq, Repr

/-- A flag received by a cell and checked valid, or not (R102, R106, R108, R123). -/
structure RxFlag where
  seq   : Nat
  dir   : Nat
  unit  : Nat
  term  : Nat
  /-- DTAG verified. -/
  tagOk : Bool
  cmd   : Nat
  /-- The command passed R102. -/
  cmdOk : Bool
  deriving DecidableEq, Repr

/-- A header that passed R106, by hoist: sequence number, UNIT and TERM (R500). -/
structure RxHead where
  seq  : Nat
  unit : Nat
  term : Nat
  deriving DecidableEq, Repr

/-- What the cell holds in an applying stride (Table 5-2): BLOCK, SHORT, ZERO, the local carrier, the flag's edges, or its present
states. -/
inductive CellMode where
  | block | short | zero | carrier | edges | keep
  deriving DecidableEq, Repr

/-- The flag selected for an applying stride (R84, R123, R193): the stride's first instant, its command (none is row 9 of Table 5-2), and the
mode in which its transitions have been queued. -/
structure SelFlag where
  start  : Nat
  cmd    : Option Nat
  mode   : CellMode
  deriving DecidableEq, Repr

/-- The cell role (05) and the cell's end of the link (03). -/
structure CellState where
  /-- LBP asserted. -/
  lbp      : Bool
  /-- BOOT_STATE of the uplink, which a bypass leaves as it was (R188). -/
  bootState : Nat
  /-- Uptime of the last header that passed R106; none before the first; one passed in the present stride. -/
  orphanAt : Option Nat
  hdrSeen  : Bool
  /-- The last header that passed R106: SEQ, START and step flag. -/
  lastHdr  : Option (Nat × Nat × Bool)
  flags    : List RxFlag
  heads    : List RxHead
  sel      : List SelFlag
  /-- Headers carry a LEASE: the ring is dual-ended (Table 14-3). -/
  dual     : Bool
  /-- Direction of the hoist that the cell obeys. -/
  obeyDir  : Nat
  /-- The last flag obeyed carries CAP_FAST. -/
  capFast  : Bool
  /-- Recovery: flags obeyed with TIME_OK since the block ended (R201). -/
  recRun   : Nat
  /-- The instants at which a flag was found late, or a command invalid, not yet reported in an uplink (R43, R102). -/
  lateAt   : List Nat
  cmdInvAt : List Nat
  /-- Events of the present stride for the uplink of its end. -/
  mismatch : Bool
  refilled : Bool
  /-- The side of the range that the last CNI window left, 1 above, 2 below, 0 none: the next one takes it too (R200, R426). -/
  capOver  : Nat
  refillOfs : Nat
  refillCh : Nat
  survFired : Bool
  /-- A tag failed since the last hoist forwarded (ALARM bit 2). -/
  tagBad   : Bool
  /-- Uplink content latched at the last boundary. -/
  ul       : Bytes
  /-- Duplex choice (R500). -/
  termC    : Nat
  run      : Nat
  /-- Responses waiting for a slot: requesting hub and pennant bytes 0 to 55. -/
  resp     : List (Nat × Bytes)
  /-- Keys held: the key in use and the next key, with their indices; K_pair. -/
  key      : Bytes
  keyIdx   : Nat
  nextKey  : Bytes
  nextIdx  : Nat
  pair     : Bytes
  eph      : Bytes
  hubCred  : List (Nat × Bytes)
  wrapPart : List (Nat × Bytes)
  /-- CELL_CRED or KEY_ACK is due, for the key index given. -/
  credDue  : Option Nat
  /-- The hub that agrees the key. -/
  keyUnit  : Nat
  ackDue   : Option Nat
  /-- Boot chunks held, by index, and BOOT_END. -/
  chunks   : List (Nat × Bytes)
  bootEnd  : Option (Nat × Nat)
  /-- Uptime at which the verification of the image began (R553). -/
  verifyAt : Nat
  /-- Consecutive monitor means above OV2, and the temperature reported. -/
  ov2Run   : Nat
  temp     : Int
  /-- Bypass order: uptime of the order; pulses at BPT. -/
  bypassAt : Option Nat
  pulses   : Nat
  /-- Key agreement: identity of the hub as HUB_CRED gave it. -/
  hubPub   : Bytes
  /-- Ring number of the last header. -/
  ring     : Nat
  /-- SURVEY_ARM of the last header, and the split in force (R675). -/
  surveyArm : Bool
  split    : Nat
  /-- The split written and not yet in force. -/
  splitNew : Option Nat
  /-- Sides whose receive hop is not released; ports enabled at reset. -/
  deadStop : Bool
  deriving DecidableEq, Repr

/-- A queued transition of one leg: its instant E before trim, what it requests of the high and the low side, whether it is
forced (R222, R234), whether the dwell has deferred it (R232), and whether the local carrier queued it (R245). -/
structure LegTrans where
  e      : Nat
  hi     : Bool
  lo     : Bool
  forced : Bool
  deferred : Bool
  carrier : Bool
  deriving DecidableEq, Repr

/-- One leg of the cell (R217): queued transitions, the instant before trim of the last transition that acted (R232), the
request in force, both-on standing (R231), and a forced refill in progress: step 1 to 4 and the instant of its next step (R272). -/
structure Leg where
  queue  : List LegTrans
  lastE  : Option Nat
  hi     : Bool
  lo     : Bool
  shoot  : Bool
  /-- Instant before trim at which SHOOT_REQ last changed. -/
  shootAt : Option Nat
  refill : Nat
  refillAt : Nat
  deriving DecidableEq, Repr

/-- An action that a channel has before it: to on or off, its instant E before trim, its instant, and whether it is forced (R222, R234). -/
structure ChanAct where
  on     : Bool
  e      : Nat
  t      : Nat
  forced : Bool
  deriving DecidableEq, Repr

/-- One gate channel in the order GF0, GL0, GF1, GL1 (06, 07). -/
structure Chan where
  /-- On at the ball; on as the scheduler counts it, a turn-on that was not performed included (R270). -/
  on     : Bool
  von    : Bool
  /-- Instant of the last action to off, as the scheduler counts it; none while it has been off since reset. -/
  offAt  : Option Nat
  /-- That action was unforced (R240). -/
  offFree : Bool
  /-- Instant of the last action to on. -/
  onAt   : Nat
  /-- The last turn-on instant, performed or suppressed (R238). -/
  turnAt : Option Nat
  /-- The actions due, in the order of their instants. -/
  due    : List ChanAct
  /-- Instants before trim and states that actions gave, newest first (R228). -/
  hist   : List (Nat × Bool)
  /-- A trip has counted in the present period (R238). -/
  tripped : Bool
  /-- Shaped profile: phase 0 to 3, and instant of its start (R257). -/
  phase  : Nat
  phaseAt : Nat
  /-- Profile values taken at the start of the action: V_PRE, V_EXIT, I_WEAK, PRE_BY_TIME, T_PRE, T_MILLER. -/
  prof   : List Nat
  /-- The Miller clamp of a direct channel is closed (R255). -/
  clamp  : Bool
  deriving DecidableEq, Repr

/-- The edge scheduler beside its page. -/
structure EdgeState where
  legs   : List Leg
  chans  : List Chan
  /-- Trim in force (R223): the four fields, signed 250 ps steps, and a write that waits for the next boundary. -/
  trim   : Nat
  /-- BLOCK is the state in force (R244). -/
  block  : Bool
  /-- Local carrier: period and duty in force, start of the next period and of the present one, and a period and a duty that wait for the
  next boundary (R245 to R250). -/
  lcPer  : Nat
  lcDuty : Nat
  lcAt   : Option Nat
  lcLast : Option Nat
  lcPerNext : Option Nat
  lcDutyNext : Option Nat
  /-- Over-temperature acts as a trip (R235). -/
  otTrip : Bool
  deriving DecidableEq, Repr

/-- The field die beside its page: GEN and supplies. -/
structure GateState where
  /-- GEN low, since this uptime; low from the release of power-on reset until it rises (R285). -/
  genLow   : Option Nat
  /-- GEN low for 100 ns. -/
  genHeld  : Bool
  /-- Bootstrap accounts in fC (R271), by float channel. -/
  account  : List Nat
  /-- Instant of their last 40 ns update, and what they were then, with which the thresholds are compared. -/
  accountAt : Nat
  accountUpd : List Nat
  /-- A forced refill has started in the present stride. -/
  refillDone : Bool
  /-- A forced refill waits for its start (R273), by float channel. -/
  refillWait : List Bool
  /-- Deck frames invalid in a row; a supply-good since the last clear or enable (Table 7-6). -/
  badFrames : List Nat
  deckSeen  : List Bool
  /-- The deck's last report is UVLO. -/
  deckBad   : List Bool
  /-- Start of the NOT_READY count in PUMP mode, as uptime (Table 7-4). -/
  pumpAt    : List (Option Nat)
  /-- Instant of the last burst of each float channel, and whether it was an ON burst. -/
  burstAt   : List Nat
  burstOn   : List Bool
  deriving DecidableEq, Repr

/-- A signal slot as it is read (Table 8-2). -/
structure Sig where
  bits   : Nat
  valid  : Bool
  stale  : Bool
  isTime : Bool
  writer : Nat
  seq    : Nat
  deriving DecidableEq, Repr

/-- What an operation gives one of its outputs: a value; the VALUE its slot holds (R331, R355); or the status its slot holds with bits
set (R355). -/
inductive OutV where
  | val (bits : Nat) (valid isTime : Bool)
  | keep (valid : Bool)
  | mark (mask : Nat) (valid : Bool)
  deriving DecidableEq, Repr

/-- What an operation has computed and will write at its completion (R291): its outputs by slot, its persistent state, the results that were
not finite (R332), CONTROL_FEEDBACK_LOST (R355), a CMP event (R352), the condition of STOPREQ (R353), the value of COEF_WR (R361), and
what PLL gives its electrical axis: angle and frequency (R349). -/
structure OpRes where
  outs   : List (Option OutV)
  st     : List Nat
  faults : Nat
  cfl    : Bool
  event  : Bool
  stop   : Option Bool
  coef   : Option Nat
  axis   : Option (Nat × Nat)
  deriving DecidableEq, Repr

/-- One descriptor of the active Chart in its present run (R299 to R314). -/
structure OpRun where
  /-- As GRS_QUERY.STATE: 0 counter above 0, 1 ready, 2 executing, 3 waiting, 4 completed, 5 skipped, 6 marked for cancel, 7 held. -/
  st       : Nat
  cnt      : Nat
  skipIn   : Bool
  tmo      : Bool
  /-- WAIT_FULL counted in this run; waiting after a pre-emption, not in a wait condition; resumable. -/
  full     : Bool
  preempt  : Bool
  resume   : Bool
  /-- The scheduler cycle, by its first instant, in which it entered its ring or became resumable. -/
  since    : Nat
  /-- Instant at which the wait expires, and samples counted when it began to count. -/
  waitEnd  : Nat
  base     : Nat
  /-- Cycles left and the instant at which the present leg began. -/
  left     : Nat
  legAt    : Nat
  res      : Option OpRes
  /-- Meridian of the last completion (R330). -/
  lastDone : Option Nat
  deriving DecidableEq, Repr

/-- An entry of the coefficient queue: word, value, the descriptor that enqueued it and the instant of its arrival. -/
structure CoefEntry where
  word  : Nat
  value : Nat
  desc  : Option Nat
  time  : Nat
  deriving DecidableEq, Repr

/-- The graph engine (08, 09) beside its pages. -/
structure GraphState where
  ops      : List OpRun
  /-- Ready operations in the order in which they entered their rings; resumable operations in theirs. -/
  ready    : List Nat
  /-- Entries written into each ready ring since reset. -/
  rdyAt    : List Nat
  resume   : List Nat
  /-- The Plotters and what they execute. -/
  plot     : List (Option Nat)
  /-- The instant of the last dispatch (Table 8-5). -/
  dispAt   : Option Nat
  coefs    : List CoefEntry
  /-- GRF_COEF_DATA writes held on the bus (R360). -/
  coefHeld : List CoefEntry
  /-- A clear of CFL that waits for the boundary (R357); the stride in which CFL was set (R356). -/
  cflClr   : Bool
  cflSeq   : Nat
  /-- The Chart was started in this compute stride; it has not run since it became active (R298); the staged half holds a plaintext that the
  envelope checks released. -/
  started  : Bool
  fresh    : Bool
  opened   : Bool
  /-- Uptime at which the checks of the staged half began (R319, R553). -/
  checkAt  : Nat
  /-- Axes whose page records a wrong PLL in this activation (R365). -/
  axisErr  : List Nat
  /-- Samples landed on each stream, and at the last boundary (Table 8-6). -/
  samples  : List Nat
  atBound  : List Nat
  /-- Completion of the last stride operation with POST clear, in 10 ns after the boundary (GRF_DL). -/
  lastEnd  : Nat
  deriving DecidableEq, Repr

/-- A move as it was pushed (R378): target and velocity as bit patterns (binary64, binary32), mode, blend, coordination tag and size. -/
structure Move where
  target : Nat
  v      : Nat
  mode   : Nat
  blend  : Bool
  tag    : Nat
  n      : Nat
  deriving DecidableEq, Repr

/-- What an axis's profile follows: nothing, a stop, a target (unwrapped, binary64), a velocity (binary64), or its share of a coordinated
move: tag, position at the start and distance (R372, R378, R384). -/
inductive AxGoal where
  | hold
  | stop
  | target (x : Nat) (m : Move)
  | veloc (v : Nat) (m : Move)
  | coord (tag x0 d v : Nat)
  deriving DecidableEq, Repr

/-- What a PLL gave its electrical axis (R365): θ (binary64), ω (binary32), the latch boundary of its inputs, whether it wrote θ with VALID 1,
and the compute stride of the run. -/
structure PllDrive where
  theta : Nat
  omega : Nat
  tb    : Nat
  ok    : Bool
  seq   : Nat
  deriving DecidableEq, Repr

/-- An axis (10, 11) beside its page; numbers of the profile are binary64 bit patterns. -/
structure AxisState where
  /-- Profile state at the point to be published next, and position and velocity at the last point published. -/
  x : Nat
  v : Nat
  a : Nat
  pubX : Nat
  pubV : Nat
  goal  : AxGoal
  /-- The profile state equals the end state of the running move. -/
  ended : Bool
  queue : List Move
  /-- PUSHes held on the bus (R379). -/
  held  : List Move
  /-- D and J in use (R376); OVERSHOOT_PLANNED raised and STARVED counted for this move. -/
  dUse  : Nat
  jUse  : Nat
  overs : Bool
  starved : Bool
  /-- Path parameter of a coordinated move with its rates, and its D and J in use (R384). -/
  sx : Nat
  sv : Nat
  sa : Nat
  sD : Nat
  sJ : Nat
  /-- Velocity of the gear law at its last evaluation with a valid master, and the master lost (R389). -/
  lawV : Nat
  masterLost : Bool
  /-- Unwrapped actual position, Bearing, and the count that the PLL's angle last gave (R364, R365). -/
  unw   : Int
  bear  : Nat
  raw   : Int
  drive : Option PllDrive
  /-- Current cap and position loop (R393); the estimator: position, v₀, SP_VEL₀ and steps spent in it (R392). -/
  iCap  : Nat
  loopOn : Bool
  estX  : Nat
  estV0 : Nat
  estSp : Nat
  estN  : Nat
  /-- Timestamps of counted edges in the direction of the flag, newest first, their number since the last reset, and the last counted
  edge (R419, R421). -/
  edges : List Nat
  nDir  : Nat
  lastEdge : Option Nat
  unsettled : Bool
  /-- SSI: extreme of the position, sample instant of the last good read that moved this axis, and the first read taken (R408, R418). -/
  extreme : Int
  ssiAt : Nat
  ssiRead : Bool
  /-- Latch FIFO, oldest first, and an event lost since the last entry stored (R415). -/
  fifo  : List Bytes
  lostMark : Bool
  /-- A declaration of STALE or LOST has ended since the last boundary (R423). -/
  healed : Bool
  /-- Instant at which an electrical axis's position was last evaluated. -/
  evalAt : Nat
  deriving DecidableEq, Repr

/-- A feedback interface (11) beside its page. -/
structure FbkState where
  levA  : Bool
  levB  : Bool
  levZ  : Bool
  /-- SSI read under way, its first falling edge; good reads: sample instant and raw position, newest first; good reads in a row. -/
  reading : Option Nat
  goods : List (Nat × Nat)
  run   : Nat
  /-- Uptime of the last line fault, QUAD_ERR or HALL_INVALID. -/
  badAt : Nat
  /-- Inputs below 200 mV, a bit each, and an invalid Hall code that has been declared. -/
  lows  : Nat
  hallBad : Bool
  deriving DecidableEq, Repr

/-- An axis at reset. -/
def emptyAxis : AxisState :=
  { x := 0, v := 0, a := 0, pubX := 0, pubV := 0, goal := .hold, ended := false,
    queue := [], held := [], dUse := 0, jUse := 0, overs := false, starved := false, sx := 0, sv := 0, sa := 0, sD := 0, sJ := 0,
    lawV := 0, masterLost := false, unw := 0, bear := 0, raw := 0, drive := none, iCap := 0, loopOn := true, estX := 0, estV0 := 0, estSp := 0, estN := 0,
    edges := [], nDir := 0, lastEdge := none, unsettled := true, extreme := 0, ssiAt := 0, ssiRead := false, fifo := [], lostMark := false, healed := false, evalAt := 0 }

/-- A feedback interface at reset. -/
def emptyFbk : FbkState := { levA := false, levB := false, levZ := false, reading := none, goods := [], run := 0, badAt := 0, lows := 0, hallBad := false }

/-- A sampled-value stream beside its registers (R447 to R450): smpCnt and channels of the last landing, its uptime, samples in a row,
consecutive stalls, and the confRev and channel count last received in a mismatch. -/
structure SvStream where
  last   : Option Nat
  chans  : List (Nat × Nat)
  lastAt : Nat
  run    : Nat
  stalls : Nat
  wrong  : Option (Nat × Nat)
  /-- Sample instants in ns of the landings with MISSING, QUAL_BAD or LOST of the last second, and whether MISSING (R454). -/
  unfit  : List (Nat × Bool)
  deriving DecidableEq, Repr

/-- Measurement beside its pages (12). Start selections are numbered 0 to 15 for the CNI channels and 16 for the scan. -/
structure MeasState where
  /-- CNF_CTL.MODE in force: scan (R437). -/
  scan   : Bool
  /-- Start events that have occurred and wait to be taken: instant, and the selections that take them (R428, R430). -/
  events : List (Nat × List Nat)
  /-- Delayed starts pending, and a start that has acted and waits for its window or scan, per selection (R429, R430). -/
  starts : List (List Nat)
  due    : List (Option Nat)
  /-- CNI: last close, length of the last complete window, channels whose last window was over-ranged (R426, R431, R433). -/
  closed : List (Option Nat)
  len    : List Nat
  overed : Nat
  /-- CNI: the last close asked for, made or not, and the part of 2π / DIV in which the axis stood then (R431, R432). -/
  asked  : List (Option Nat)
  sector : List (Option Int)
  /-- Start of the scan that runs, and its channels (R438). -/
  scanAt : Option Nat
  scanChs : List Nat
  /-- CNF slices in service per channel, longest in service first (R439). -/
  slices : List (List Nat)
  /-- The slice that holds each of a channel's four active positions (R436, R439). -/
  place  : List (List Nat)
  /-- Uptime at which the last calibration step was due (R439). -/
  calAt  : Nat
  /-- When a channel became FROZEN, and the spans in which channels were, of the last second, in ns (R441, R454). -/
  frozeAt : List (Option Nat)
  frozen : List (Nat × Nat × Nat)
  sv     : List SvStream
  /-- PMU: channels invalid for their sources; the last UTC offset seen; uptime and sign of the last leap (R451, R455). -/
  pmuInv : Nat
  utc    : Nat
  leapAt : Option Nat
  leapNeg : Bool
  /-- The last Meridian step: the copy before and after it, in ns (R454). -/
  step   : Option (Nat × Nat)
  deriving DecidableEq, Repr

/-- A stream of which nothing has landed. -/
def emptySv : SvStream := { last := none, chans := [], lastAt := 0, run := 0, stalls := 0, wrong := none, unfit := [] }

/-- Survey capture beside its page (13): the record in progress, its trigger fields, and the arming of cells. -/
structure SvyState where
  /-- Instant of the arm in ns, groups written since, PRE, POST, CH_MASK and NREC taken at the arm. -/
  armTime   : Nat
  gseq      : Nat
  pre       : Nat
  post      : Nat
  mask      : Nat
  nrec      : Nat
  /-- GSEQ and sample of the trigger, groups still to be written after the trigger group, its fields. -/
  trigG     : Nat
  trigSample : Nat
  src       : Nat
  time      : Nat
  epoch     : Nat
  fireSeq   : Nat
  ring      : Nat
  cell      : Nat
  pattern   : Nat
  preShort  : Bool
  halved    : Bool
  gap       : Bool
  ovr       : Bool
  frozen    : Bool
  epochChg  : Bool
  decMax    : Nat
  /-- Groups have been lost since the last one written; the next group takes the log-mode trigger flag. -/
  lost      : Bool
  trigNext  : Bool
  /-- EPOCH when the last group was written. -/
  epochAt   : Nat
  /-- A pattern that holds at the arm has ended (R468). -/
  patReady  : Bool
  /-- Launch boundaries left before SURVEY_ARM may stand again (R474). -/
  hold      : Nat
  /-- Rings whose broadcast DISARM has not completed (R475). -/
  disarm    : List Nat
  /-- The cell writes its index into the next trailer (R473). -/
  fireCell  : Bool
  deriving DecidableEq, Repr

/-- A front (Table 13-6): its instant in 2⁻¹⁶ ns, detector, polarity, OVF_BEFORE, PEER_SENT, peak, rise and EPOCH. -/
structure Front where
  time  : Nat
  det   : Nat
  neg   : Bool
  after : Bool
  sent  : Bool
  peak  : Nat
  rise  : Nat
  epoch : Nat
  deriving DecidableEq, Repr

/-- Triangulation beside its page (13). -/
structure TriState where
  /-- The front FIFO, oldest first; a front was lost since the last one stored (R479). -/
  fifo  : List Front
  lost  : Bool
  /-- The front whose reflections are sought on DE_DET (R480). -/
  first : Option Front
  /-- Messages sent, the last accepted SEQ, and the accepted peer fronts with the peer's Meridian state (R481, R482). -/
  sent  : Nat
  last  : Nat
  peers : List (Nat × Nat)
  /-- Local fronts that wait for a peer front, with the uptime at which the wait ends (R483). -/
  waits : List (Nat × Nat)
  /-- Datagrams to repeat: the uptime of the next sending, sendings left, port and frame (R481). -/
  again : List (Nat × Nat × Nat × Bytes)
  deriving DecidableEq, Repr

/-- A Pdelay_Resp that waits to be sent: whether a Follow_Up goes after it, engine, sequence number, and receipt of the request (R62). -/
structure PdResp where
  twoStep : Bool
  engine  : Nat
  seq     : Nat
  rx      : Nat
  deriving DecidableEq, Repr

/-- An Ethernet frame that waits to be sent: port, engine in the order of R670 (0 Semaphore, 1 PTP, 2 Triangulation, 3 PMU) and content,
which for a Pdelay_Resp forms as the frame leaves. -/
structure TxFrame where
  port   : Nat
  engine : Nat
  data   : Bytes
  resp   : Option PdResp
  deriving DecidableEq, Repr

/-- What a STRIDE frame says (Table 14-2), with the sender's stride and state. -/
structure StrideRep where
  seq      : Nat
  state    : Nat
  term     : Nat
  lease    : Nat
  flags    : Nat
  hoSeq    : Nat
  tTx      : Nat
  tRxPeer  : Nat
  tEcho    : Nat
  inDig    : Nat
  outDig   : Nat
  diagTime : Nat
  diagSrc  : Nat
  xs       : Bytes
  deriving DecidableEq, Repr

/-- A mirrored write (R487): its boundary, target, bytes, and the unit that received it. -/
structure Mirror where
  b    : Nat
  page : Nat
  bar2 : Bool
  ofs  : Nat
  data : Bytes
  unit : Nat
  deriving DecidableEq, Repr

/-- The pair and its twin link, beside the TWN and CLR pages (14). -/
structure PairState where
  /-- FSEQ of the next frame sent and of the last accepted (R488, R569). -/
  fseq     : Nat
  lastF    : Option Nat
  /-- Strides without a valid STRIDE frame, one received in the present stride, and the run that brings the link back (R492). -/
  miss     : Nat
  got      : Bool
  back     : Nat
  /-- One-way delays of the last 16 frames in ns, newest first; Meridian at the last receipt in ns (R490). -/
  delays   : List Nat
  /-- Holder minus this hub at the last 16 exchanges, newest first (R86). -/
  offsets  : List Int
  peerRx   : Nat
  /-- STRIDE frames sent and received, newest first. -/
  owns     : List StrideRep
  peers    : List StrideRep
  /-- Ring digests: ring, SEQ, digest (R493). -/
  digs     : List (Nat × Nat × Nat)
  peerDigs : List (Nat × Nat × Nat)
  /-- Late mask as it forms, as it was sent at the last cutoff, and that of the peer with its stride; the cutoff of this stride has passed. -/
  late     : Nat
  lateCut  : Nat
  peerLate : Option (Nat × Nat)
  lateSent : Bool
  /-- Strides marked solo, newest first, and CRC-32 inputs of the last compute stride (IN_DIG). -/
  solos    : List Nat
  inDig    : Nat
  /-- OUT_DIG of the hoist built for the next boundary; a stop source entered the last hoist. -/
  stopped  : Bool
  /-- Lease count and a header of the holder checked in the present stride (R503). -/
  leaseRun : Nat
  leaseSeen : Bool
  /-- Uptimes: the last change of holder, the last sign of the peer, the peer's standby without a diagnostic. -/
  changed  : Nat
  heard    : Nat
  standby  : Option Nat
  /-- Handover: proposed boundary, whether acknowledged, whether a drill; boundary acknowledged by this hub; boundary at which the last
  one of this hub completed; uptime from which a failed drill is proposed again (R505, R506). -/
  hoB      : Option Nat
  hoAcked  : Bool
  hoDrill  : Bool
  ackB     : Option Nat
  hoDone   : Option Nat
  drillAt  : Nat
  /-- Open verdict: its stride M (R510). -/
  verdict  : Option Nat
  /-- Boundary at which the peer of a faulty holder claims (R511); the exchange of the last boundary missed the peer's frame (R495). -/
  claimB   : Option Nat
  xsMissed : Bool
  /-- Resynchronisation: OUT_DIG run, adopted, transfer asked for or running, STATE data held (R515 to R517). -/
  goodRun  : Nat
  /-- Strides of the holder's hoists from which the cells have been rebuilt, and the last one's SEQ; the carried part is complete (R515, R516). -/
  rebuilt  : Nat
  rebuildSeq : Nat
  ready    : Bool
  adopted  : Bool
  transfer : Bool
  items    : List (Nat × Nat × Nat × Bytes)
  /-- Mirrored writes waiting for their boundary, sent in this stride, waiting for a place. -/
  mirrors  : List Mirror
  sent     : Nat
  waiting  : List Mirror
  /-- Twin key. -/
  key      : Bytes
  deriving DecidableEq, Repr


/-- A safety output's dark test (R532, R533): on-time in ns since the last test, what is left of a running pulse in ns, a test given up, the
cycle starts until it is made again. -/
structure DarkTest where
  since : Nat
  left  : Nat
  lost  : Bool
  again : Option Nat
  deriving DecidableEq, Repr

/-- An axis monitor beside its registers (R539, R540): counts at the last samples, newest first; extreme in the permitted direction; the
cross-check failed at the sample; cycles since the condition and the feedback fault were last seen. -/
structure AxisMon where
  hist  : List Int
  ext   : Int
  apart : Bool
  clear : Nat
  fbClear : Nat
  deriving DecidableEq, Repr

/-- A Semaphore connection beside its registers (R543 to R546): bytes 3 to 47 last accepted, uptimes of the last accepted copy and of the
last copy from each network, frames in a row of a lost network, SEM_CONN latched, frames accepted since FAULT_ACK, lost and
not delivering again yet. -/
structure SemConn where
  body   : Option Bytes
  okAt   : Nat
  netAt  : List Nat
  netRun : List Nat
  latched : Bool
  since  : Nat
  down   : Bool
  deriving DecidableEq, Repr

/-- The safety island beside the SAF and SEM pages (15). -/
structure SafState where
  /-- Program of the safety processor, as the running image brought it (R636). -/
  prog   : Bytes
  /-- Cycles since reset, and the uptime of the last cycle start. -/
  count  : Nat
  lastAt : Nat
  /-- Cycles in a row with a deviation; a rail outside its window; a self-test failing. -/
  badX   : Nat
  supBad : Bool
  selfBad : Bool
  /-- Input levels at the balls, and after the filter; time in ns for which each ball's level has stood. -/
  pins   : Nat
  acc    : Nat
  runs   : List Nat
  /-- Virtual inputs at the sample. -/
  vi     : Nat
  /-- Test-pulse sources: time in ns since the last pulse; sources dark in the cycle that runs; tests passed in a row per input. -/
  tpWait : List Nat
  dark   : Nat
  passes : List Nat
  /-- Pairs: time in ns of disagreement; after a discrepancy 1 until both are seen open, 2 until both close, with the time since the first
  closed. -/
  apart  : List Nat
  pairSt : List Nat
  shutT  : List Nat
  /-- Start-up inputs seen open (R530); inputs evaluated in the last cycle. -/
  opened : Nat
  /-- RST_SRC's input at the last sample, and at this one; a RESET written in this cycle. -/
  rstWas : Bool
  reset  : Bool
  /-- PERMIT has been off for so many ns; uptime at which T_degr started; cycles since Safe Pulse Block became active, to 2. -/
  offFor : Nat
  degrAt : Nat
  spbFor : Nat
  /-- Levels that the outputs are driven to, before dark tests. -/
  outs   : Nat
  tests  : List DarkTest
  mons   : List AxisMon
  conns  : List SemConn
  deriving DecidableEq, Repr

/-- What outlives power-on reset in the security island's one-time memory (16): the identity and image keys, each wrapped under the PUF key
(R551, R556), empty until burnt; the owner key hash, empty until claimed; the anti-rollback steps burnt; and the owner endorsement. -/
structure Fuses where
  identity    : Bytes
  owner       : Bytes
  imageKey    : Bytes
  svnMin      : Nat
  endorsement : Bytes
  deriving DecidableEq, Repr

/-- A key slot of the secure store (R575): use, algorithm, PTP keyID, key. -/
structure KeySlot where
  use  : Nat
  alg  : Nat
  id   : Nat
  key  : Bytes
  deriving DecidableEq, Repr

/-- A key-agreement operation of the security island (R553, R567), one at a time, in the order they were asked for. -/
inductive SecOp where
  /-- The hub generates and signs its ephemeral key for a ring. -/
  | hubStart (ring : Nat)
  /-- The cell checks HUB_CRED, generates and signs its own. -/
  | cellCred (keyIdx : Nat)
  /-- The hub checks the CELL_CRED of a cell and computes K_pair. -/
  | hubPair (ring cell : Nat)
  deriving DecidableEq, Repr

/-- The security island (16), beside its page and its one-time memory. -/
structure SecState where
  /-- The command that runs: code, input and uptime of its start. -/
  cmd       : Option (Nat × Bytes × Nat)
  slots     : List (Nat × KeySlot)
  /-- Challenge, scope and uptime of the last DBG_CHALLENGE (R578). -/
  challenge : Option (Bytes × Nat × Nat)
  scope     : Nat
  /-- The operations asked for, each with the uptime at which it was; the uptime at which the public-key engine was last free (R553). -/
  ops       : List (SecOp × Nat)
  engineAt  : Nat
  /-- The identity private key in the secure store, and the image key (R551, R556). -/
  identity  : Bytes
  imageKey  : Bytes
  /-- SHA-384 of the envelopes of the running boot image and of the active and staged Chart. -/
  measBoot  : Bytes
  measChart : Bytes
  measStage : Bytes
  /-- OWNER_PUB as the claim or the running image's envelope carried it. -/
  ownerPub  : Bytes
  /-- SVN of the running boot image (R562). -/
  bootSvn   : Nat
  /-- Entropy tests fail. -/
  entropyBad : Bool
  deriving DecidableEq, Repr

/-- One island in the power-budget arbiter (R601 to R607), beside its PWR_ISL fields. -/
structure Island where
  /-- Arbiter cycles that the present request has waited. -/
  waited  : Nat
  /-- Uptime of the last grant. -/
  granted : Nat
  /-- Uptime of the last access or of the end of the keeping condition. -/
  lastUse : Nat
  /-- An access or event has asked for the island. -/
  asked   : Bool
  deriving DecidableEq, Repr

/-- A register access held on the bus (R606, R643, R624, R487). -/
structure Held where
  page  : Nat
  ofs   : Nat
  value : Nat
  write : Bool
  /-- 0 host, 1 SPI, 2 pennant, 3 mirror, 4 boot record. -/
  src   : Nat
  deriving DecidableEq, Repr

/-- Clocks, supplies and the dormant state (17). -/
structure PwrState where
  islands  : List Island
  /-- The Meridian synthesizer has locked since power-on reset (R50). -/
  synthRun : Bool
  /-- Consecutive reference windows outside 1 % and within 0.1 % (R581). -/
  refBad   : Nat
  refGood  : Nat
  /-- Consecutive samples outside the window, per rail: VDD, VDDS, VDDA, VDDAO, VDDIO 0 to 7 (R600). -/
  supOut   : List Nat
  supIn    : Nat
  supWarn  : Bool
  /-- Cause of the power-on reset in progress: 0 cold, 1 WAKE, 2 comparator, 3 RST_N. -/
  porCause : Nat
  /-- Dormant request accepted, at this uptime (R610, R611). -/
  dormant  : Option Nat
  pwren    : Bool
  /-- A wake event latched before PWREN fell (R614). -/
  wakeLatched : Option Nat
  /-- Accesses held on the bus, first in, first out. -/
  held     : List Held
  /-- Pages whose soft reset runs (R643). -/
  resetting : List Nat
  deriving DecidableEq, Repr

/-- A DMA command that an engine runs (R626): its entry, its status and the bytes it moved. -/
structure DmaRun where
  entry  : Bytes
  status : Nat
  moved  : Nat
  deriving DecidableEq, Repr

/-- The host interface beside its pages (18). -/
structure HifState where
  /-- Entries of each host ring whose producer in the device waits (R28), oldest first. -/
  waits   : List (List Bytes)
  /-- Writes of PI held on the bus: ring and value, oldest first (R624). -/
  piWaits : List (Nat × Nat)
  /-- What each of the two DMA engines runs (R626). -/
  dma     : List (Option DmaRun)
  /-- A flash command runs (R648). -/
  flash   : Bool
  /-- The last SPI write has been performed; the last SPI access recorded an error (R633). -/
  spiDone : Bool
  spiErr  : Bool
  /-- The model's own count of failed accesses (R645), by which an access that failed is told. -/
  failed  : Nat
  /-- Page and code of the last failed access. -/
  lastErr : Nat × Nat
  deriving DecidableEq, Repr

/-- The machine: every register, buffer, counter, mode and pin of the spec, and the queue of waiting commands. -/
structure State where
  /-- Levels of the strap balls when they were last sampled (R635). -/
  straps : Straps
  /-- Power-on reset is asserted (R598). -/
  por : Bool
  /-- The register file: the fields that differ from the reset value of their table, by `RegField.key`. -/
  regs : List (Nat × Nat)
  /-- Snapshots of R644: the words of a frozen page, by page and offset. -/
  frozen : List (Nat × Nat)
  /-- The 16 MB SRAM by BAR2 offset (R20): the bytes that differ from 0. -/
  sram : List Host.Cell
  /-- Offsets of the 64-bit words that hold a double-bit error (R24). -/
  sramBad : List Nat
  /-- The model's own counter: how many free values have been taken. -/
  freeCtr : Nat
  /-- The model's own record, newest first, of what has left the balls. -/
  out : List Out
  /-- The Meridian island. -/
  mer : MerState
  /-- The PPS input. -/
  pps : PpsState
  /-- The PTP engines A and B. -/
  ptp : List PtpState
  /-- The MSI-X table in BAR4, four words an entry; an entry not yet written is masked. -/
  msix : List Nat
  /-- The MSI-X pending bits. -/
  msixPending : Nat
  /-- The stride T in force, in 2⁻¹⁶ ns; at reset the 10 µs of CTR_TIMING, in a cell of CEL_TIMING. -/
  strideT : Nat
  /-- Cell: BYPASSED was entered from RUNNING (R213). -/
  bypassFromRunning : Bool
  /-- What the hub keeps of each ring beside BNC_RING_TBL. -/
  rings : List (Nat × Ring)
  /-- The port rings PRT0 to PRT47. -/
  prt : List (Nat × PortRing)
  /-- Outstanding pennant transactions. -/
  txns : List PenTxn
  /-- Pennants accepted and not yet acted on, oldest first. -/
  pens : List HeldPen
  /-- STOP has been written: the stream of the cell image ends after the current chunk (R143). -/
  bootStop : Bool
  /-- The trunks. -/
  trunk : Trunk
  /-- Per Cell table entry, what the hub keeps beside the table. -/
  cells : List (Nat × CellAux)
  /-- The arm groups. -/
  groups : List ArmGroup
  /-- The Contour engine. -/
  ctr : CtrState
  /-- The cell role and the cell's end of the link. -/
  cell : CellState
  /-- The edge scheduler. -/
  edge : EdgeState
  /-- The field die. -/
  gate : GateState
  /-- The graph engine. -/
  graph : GraphState
  /-- The 16 axes. -/
  axes : List AxisState
  /-- The 8 feedback interfaces. -/
  fbk : List FbkState
  /-- The converters, sampled values and the PMU. -/
  meas : MeasState
  /-- Survey capture. -/
  svy : SvyState
  /-- Ethernet frames that wait to be sent, oldest first. -/
  txq : List TxFrame
  /-- Triangulation. -/
  tri : TriState
  /-- Uptime at which each Ethernet port has sent the frame it began last (R670). -/
  txBusy : List Nat
  /-- The duplex pair and its twin link. -/
  pair : PairState
  /-- The safety island. -/
  saf : SafState
  /-- The security island. -/
  security : SecState
  /-- Clocks, supplies, arbiter and dormant state. -/
  pwr : PwrState
  /-- Hub diagnostics raised in the present stride, in the bit order of Table 14-5. -/
  diagNow : Nat
  /-- Instant in ns of the earliest of them; 0 for none. -/
  diagTime : Nat
  /-- One-time memory of the security island. -/
  fuses : Fuses
  /-- The host interface. -/
  hif : HifState
  /-- The model's own record: commands, still in the queue, that another command of their cycle has already carried out (R400, R417, R634). -/
  served : List Instr
  /-- The waiting commands, first in, first out. -/
  pending : List Instr
  deriving DecidableEq, Repr

/-- A ring not yet brought up. -/
def emptyRing : Ring :=
  { key := [], keyIdx := 0, served := 0, nextKey := [], nextIdx := 0, rekey := false, rekeyRun := 0, acked := [], pairs := [],
    eph := [], creds := [], wrapDue := [], ids := [], df := [], dr := [], lf := 0, lr := 0, driftF := 0, driftR := 0, outs := [],
    bootPos := 0, wrapMask := 0, splitDue := false, booting := false }

/-- A PTP engine at reset. -/
def emptyPtp : PtpState :=
  { offsets := [], authRun := 0, master := [], syncSeq := none, syncRx := 0, syncCorr := 0, lastSync := none, lastAnn := none }

/-- A gate channel at reset. -/
def idleChan : Chan :=
  { on := false, von := false, offAt := none, offFree := false, onAt := 0, turnAt := none, due := [], hist := [], tripped := false, phase := 0,
    phaseAt := 0, prof := [], clamp := false }

/-- An empty port ring. -/
def emptyPort : PortRing := { entries := [], held := [], full := 0, written := 0 }

/-- An arm group at reset. -/
def emptyGroup : ArmGroup :=
  { cfg := [], running := false, rot := 0, nPrev := 0, prevEnd := 0, iHist := [], charging := false, wasStop := false,
    noCells := false, vAvg := 0, vMax := 0, vMin := 0, vSum := 0, band := 0, vPred := [], edges := [], start := [], nNow := 0,
    stageMode := 0, flags := [], strides := 0, vsComp := 0, tMode := 0, tRef1 := 0, tRef2 := 0, tI := 0, tSeq := none,
    ret := [] }

/-- A cell of which nothing is known yet. -/
def emptyCell : CellAux :=
  { excl := 0, shown0 := 0, shown1 := 0, landed := 0, lastSeq := 0, everLanded := false, seqs := [], before := none, fresh := false, silent := false,
    silentCnt := 0, suspect := false, utagFails := 0, utagBad := false, utagLast := false, refillByp := false, endStates := [],
    vPred := 0, key := 0, lastEdge := 0, state := 0, cause := 0, edges := 0, swCnt := 0, hist := List.replicate 12 0, sinceBack := 2 }

/-- The islands other than AO and safety that the role leaves powered (Table 0-1, R3). -/
def poweredIslands (role : Nat) : List Nat :=
  if role = 0 then [1, 3, 4, 5, 7, 19, 20]
  else if role = 3 then []
  else (List.range 34).filter fun k => k != 0 && k != 2 && k != 4

/-- The reset divisors of the main PLL outputs (Table 17-2). -/
def outDivReset (n : Nat) : Nat := [5, 10, 10, 16, 10, 16, 20, 32].getD n 0

/-- The reset limits of the warning windows of VDD, VDDS, VDDA and VDDAO, in mV. -/
def supLoReset (n : Nat) : Nat := [0x2F8, 0x357, 0x6AE, 0x6AE].getD n 0

/-- The reset limits of the warning windows of VDD, VDDS, VDDA and VDDAO, in mV. -/
def supHiReset (n : Nat) : Nat := [0x348, 0x3B1, 0x762, 0x762].getD n 0

/-- The field values that depend on the strap, the role or the position in an array, where they differ from the
reset value of the field's table (R635, R139, Tables 0-1, 17-2). -/
def resetOverrides (st : Straps) : List (Nat × Nat) :=
  let put := fun (l : List (Nat × Nat)) (f : RegField) (pg idx v : Nat) =>
    Sparse.put l (f.key pg idx) (if v % 2 ^ f.width = f.reset then none else some (v % 2 ^ f.width))
  let l := put [] PG.EVT_EN 0 0 0x60
  let l := put l SYS.STRAP_ROLE 0 0 st.role
  let l := put l SYS.STRAP_UNIT 0 0 st.unit
  let l := put l SYS.STRAP_LGCY 0 0 st.lgcy
  let l := put l SYS.STRAP_LOCKSEL 0 0 st.locksel
  let l := put l SYS.STRAP_BOOTSRC 0 0 st.bootsrc
  let l := put l PTP.CFG_PORT 1 0 2
  let l := put l CNI.CTL_EN 0 0 (if st.role = 0 then 1 else 0)
  let l := put l SVY.CFG_CH_EN 0 0 (if st.role = 0 then 3 else 0xFF)
  let l := put l PWR.BUDGET 0 0 (if st.role = 0 then 0x28 else 0x3E8)
  let l := put l CLK.CTL_LOCKSEL 0 0 st.locksel
  let l := put l MER.STAT_TIME_OK 0 0 (if st.role = 0 then 0 else 1)
  let l := (poweredIslands st.role).foldl (fun l k => put l PWR.ISL_STATE 0 k 1) l
  let l := (List.range 8).foldl (fun l n => put l CLK.OUT_DIV 0 n (outDivReset n)) l
  let l := (List.range 4).foldl (fun l n => put (put l SUP.WIN_LO 0 n (supLoReset n)) SUP.WIN_HI 0 n (supHiReset n)) l
  (List.range 48).foldl (fun l p => put (put l BNT.PORT_CTL_LEGACY p 0 st.lgcy) BNT.PORT_STAT_LEGACY p 0 st.lgcy) l

/-- The machine at the release of power-on reset with the straps at `st` (R598, R50). -/
def State.afterPor (st : Straps) : State :=
  { straps := st
    por := false
    regs := resetOverrides st
    frozen := []
    sram := []
    sramBad := []
    freeCtr := 0
    out := []
    mer := { mer := 0, uptime := 0, rateRes := 0, freq := 0, phase := 0, snapMer := 0, snapUp := 0, stepDelta := none, stepByReanchor := false, stepFlag := false, largeRun := 0, hoE0 := 0, hoStart := 0, hoLast := 0, lastS := 0, seq := 0, cellLocked := false, sPrev := 0, goodRun := 0, badRun := 0 }
    pps := { last := none, run := 0, qual := false, offsets := [], second := 0, armed := false, ever := false, ignored := 0 }
    ptp := List.replicate 2 emptyPtp
    msix := []
    msixPending := 0
    strideT := 655360000
    bypassFromRunning := false
    rings := []
    prt := []
    txns := []
    pens := []
    bootStop := false
    trunk := { landed := [], delay := 0, service := false, branches := [] }
    cells := []
    groups := List.replicate 12 emptyGroup
    ctr := { slot := 0, la := 1, dl := 60, absent := 0, chartStop := 0, chartNext := 0, cflStop := false, cflNext := false, sorted := false, edgeStarted := false, edgeDone := false, built := false, sortStarted := false, cut := false, edgeAt := 0, stopAll := false }
    cell := { lbp := false, bootState := 0, orphanAt := none, hdrSeen := false, lastHdr := none, flags := [], heads := [], sel := [], dual := false, obeyDir := 0, capFast := false, recRun := 0, lateAt := [], cmdInvAt := [], mismatch := false, refilled := false, capOver := 0, refillOfs := 0xFFFFFFFF, refillCh := 0, survFired := false, tagBad := false, ul := List.replicate 16 0, termC := 0, run := 0, resp := [], key := [], keyIdx := 0, nextKey := [], nextIdx := 0, pair := [], eph := [], hubCred := [], wrapPart := [], credDue := none, keyUnit := 0, ackDue := none, chunks := [], bootEnd := none, verifyAt := 0, ov2Run := 0, temp := 0, bypassAt := none, pulses := 0, hubPub := [], ring := 0, surveyArm := false, split := 0, splitNew := none, deadStop := false }
    edge := { legs := List.replicate 2 { queue := [], lastE := none, hi := false, lo := false, shoot := false, shootAt := none, refill := 0, refillAt := 0 }, chans := List.replicate 4 idleChan, trim := 0, block := true, lcPer := 10000, lcDuty := 0, lcAt := none, lcLast := none, lcPerNext := none, lcDutyNext := none, otTrip := false }
    gate := { genLow := some 0, genHeld := false, account := [0, 0], accountAt := 0, accountUpd := [0, 0], refillDone := false, refillWait := [false, false], badFrames := [0, 0], deckSeen := [false, false], deckBad := [false, false], pumpAt := [none, none], burstAt := [0, 0], burstOn := [false, false] }
    graph := { ops := [], ready := [], rdyAt := List.replicate 32 0, resume := [], plot := List.replicate 16 none, dispAt := none, coefs := [], coefHeld := [], cflClr := false, cflSeq := 0, started := false, fresh := false, opened := false, checkAt := 0, axisErr := [], samples := List.replicate 16 0, atBound := List.replicate 16 0, lastEnd := 0 }
    axes := List.replicate 16 emptyAxis
    fbk := List.replicate 8 emptyFbk
    meas := { scan := false, events := [], starts := List.replicate 17 [], due := List.replicate 17 none, closed := List.replicate 16 none, len := List.replicate 16 0, overed := 0, asked := List.replicate 16 none, sector := List.replicate 16 none, scanAt := none, scanChs := [], slices := List.replicate 8 [0, 1, 2, 3], place := List.replicate 8 [0, 1, 2, 3], calAt := 0, frozeAt := List.replicate 8 none, frozen := [], sv := List.replicate 16 emptySv, pmuInv := 0, utc := 0, leapAt := none, leapNeg := false, step := none }
    svy := { armTime := 0, gseq := 0, pre := 0, post := 0, mask := 0, nrec := 0, trigG := 0, trigSample := 0, src := 0, time := 0, epoch := 0, fireSeq := 0xFFFFFFFF, ring := 0xFFFF, cell := 0, pattern := 0, preShort := false, halved := false, gap := false, ovr := false, frozen := false, epochChg := false, decMax := 0, lost := false, trigNext := false, epochAt := 0, patReady := false, hold := 0, disarm := [], fireCell := false }
    txq := []
    tri := { fifo := [], lost := false, first := none, sent := 0, last := 0, peers := [], waits := [], again := [] }
    txBusy := [0, 0, 0, 0]
    pair := { fseq := 0, lastF := none, miss := 0, got := false, back := 0, delays := [], offsets := [], peerRx := 0, owns := [], peers := [], digs := [], peerDigs := [], late := 0, lateCut := 0, peerLate := none, lateSent := false, solos := [], inDig := 0, stopped := false, leaseRun := 0, leaseSeen := false, changed := 0, heard := 0, standby := none, hoB := none, hoAcked := false, hoDrill := false, ackB := none, hoDone := none, drillAt := 0, verdict := none, claimB := none, xsMissed := false, goodRun := 0, rebuilt := 0, rebuildSeq := 0, ready := false, adopted := false, transfer := false, items := [], mirrors := [], sent := 0, waiting := [], key := [] }
    saf := { prog := [], count := 0, lastAt := 0, badX := 0, supBad := false, selfBad := false, pins := 0, acc := 0, runs := List.replicate 16 0, vi := 0, tpWait := List.replicate 4 0, dark := 0, passes := List.replicate 16 0, apart := List.replicate 8 0, pairSt := List.replicate 8 0, shutT := List.replicate 8 0, opened := 0, rstWas := false, reset := false, offFor := 0, degrAt := 0, spbFor := 2, outs := 0, tests := List.replicate 8 { since := 0, left := 0, lost := false, again := none }, mons := List.replicate 4 { hist := [0], ext := 0, apart := false, clear := 4, fbClear := 4 }, conns := List.replicate 8 { body := none, okAt := 0, netAt := [0, 0], netRun := [0, 0], latched := false, since := 2, down := false } }
    security := { cmd := none, slots := [], challenge := none, scope := 0, ops := [], engineAt := 0, identity := [], imageKey := [], measBoot := [], measChart := [], measStage := [], ownerPub := [], bootSvn := 0, entropyBad := false }
    pwr := { islands := List.replicate 34 { waited := 0, granted := 0, lastUse := 0, asked := false }, synthRun := false, refBad := 0, refGood := 0, supOut := List.replicate 12 0, supIn := 0, supWarn := false, porCause := 0, dormant := none, pwren := true, wakeLatched := none, held := [], resetting := [] }
    diagNow := 0
    diagTime := 0
    fuses := { identity := [], owner := [], imageKey := [], svnMin := 0, endorsement := [] }
    hif := { waits := List.replicate 16 [], piWaits := [], dma := [none, none], flash := false, spiDone := false, spiErr := false, failed := 0, lastErr := (0, 0) }
    served := []
    pending := [] }

/-- The machine right after reset: released from power-on reset, strapped as a lead hub that boots from the QSPI flash
(assumption 1), time at zero (R50), every register at its reset value, no command waiting. -/
def State.reset : State := State.afterPor ⟨1, 0, 0, 0, 0⟩

end Sys2Proof.Machine
end

