-- ==== Sys2Proof/Machine/Ops.lean ====
section
/-! DEFINITION. The named operations on the state: register fields, events and interrupt lines (R629, R630), failed
accesses (R645), the SRAM (R20 to R24), free values, what leaves the balls, and the passage of time (R48, R51). -/

namespace Sys2Proof.Machine

/-- The value of field `f` in page instance `pg`, position `idx` of its array. -/
def State.rdA (s : State) (f : RegField) (pg idx : Nat) : Nat :=
  (Sparse.get s.regs (f.key pg idx)).getD f.reset

/-- The value of a field in page instance `pg`. -/
def State.rdI (s : State) (f : RegField) (pg : Nat) : Nat := s.rdA f pg 0

/-- The value of a field. -/
def State.rd (s : State) (f : RegField) : Nat := s.rdA f 0 0

/-- The field is not 0. -/
def State.onA (s : State) (f : RegField) (pg idx : Nat) : Bool := s.rdA f pg idx != 0

/-- The field is not 0. -/
def State.onI (s : State) (f : RegField) (pg : Nat) : Bool := s.rdA f pg 0 != 0

/-- The field is not 0. -/
def State.on (s : State) (f : RegField) : Bool := s.rdA f 0 0 != 0

/-- A field read as a signed number of its width. -/
def State.rdS (s : State) (f : RegField) (pg : Nat) : Int := sext f.width (s.rdA f pg 0)

/-- The register file with a field given a value, cut to the field's width. -/
def regsPut (regs : List (Nat × Nat)) (f : RegField) (pg idx v : Nat) : List (Nat × Nat) :=
  Sparse.put regs (f.key pg idx) (if v % 2 ^ f.width = f.reset then none else some (v % 2 ^ f.width))

/-- Field `f` of page instance `pg`, position `idx`, given a value. -/
def State.wrA (s : State) (f : RegField) (pg idx v : Nat) : State :=
  { s with regs := regsPut s.regs f pg idx v }

/-- A field of page instance `pg` given a value. -/
def State.wrI (s : State) (f : RegField) (pg v : Nat) : State := s.wrA f pg 0 v

/-- A field given a value. -/
def State.wr (s : State) (f : RegField) (v : Nat) : State := s.wrA f 0 0 v

/-- A one-bit field set or cleared. -/
def State.wrB (s : State) (f : RegField) (b : Bool) : State := s.wrA f 0 0 (ofBool b)

/-- A field given a signed value, wrapped to its width. -/
def State.wrS (s : State) (f : RegField) (pg : Nat) (i : Int) : State := s.wrA f pg 0 (wrapTo f.width i)

/-- A saturating counter raised by `n`. -/
def State.addCntA (s : State) (f : RegField) (pg idx n : Nat) : State :=
  s.wrA f pg idx (satNat f.width (s.rdA f pg idx + n))

/-- A saturating counter of a page instance raised by one. -/
def State.incI (s : State) (f : RegField) (pg : Nat) : State := s.addCntA f pg 0 1

/-- A saturating counter raised by one. -/
def State.inc (s : State) (f : RegField) : State := s.addCntA f 0 0 1

/-- Bit `i` of a field given a level. -/
def State.wrBitI (s : State) (f : RegField) (pg i : Nat) (b : Bool) : State :=
  s.wrA f pg 0 (putBit (s.rdA f pg 0) i b)

/-- Bit `i` of a field given a level. -/
def State.wrBit (s : State) (f : RegField) (i : Nat) (b : Bool) : State := s.wrBitI f 0 i b

/-- Bit `i` of a field. -/
def State.bitI (s : State) (f : RegField) (pg i : Nat) : Bool := bitOf (s.rdA f pg 0) i

/-- Bit `i` of a field. -/
def State.bit (s : State) (f : RegField) (i : Nat) : Bool := bitOf (s.rdA f 0 0) i

/-- The device runs in Cell role (R1, R2). -/
def State.isCell (s : State) : Bool := s.rd SYS.STRAP_ROLE == 0

/-- The device runs in Hub role, lead or branch. -/
def State.isHub (s : State) : Bool := s.rd SYS.STRAP_ROLE == 1 || s.rd SYS.STRAP_ROLE == 2

/-- The device is a branch hub. -/
def State.isBranch (s : State) : Bool := s.rd SYS.STRAP_ROLE == 2

/-- Something is recorded as having left the balls. -/
def State.emit (s : State) (o : Out) : State := { s with out := o :: s.out }

/-- The line of a page: a bit of its EVT_PEND is 1 (R629). -/
def State.line (s : State) (page : Nat) : Bool := s.onI PG.EVT_PEND page

/-- The pages whose lines stand. -/
def State.lines (s : State) : List Nat := (List.range 256).filter s.line

/-- Vector `v` is asserted: a line mapped to it with EN set stands (R630). -/
def State.vecAsserted (s : State) (v : Nat) : Bool :=
  s.lines.any fun p => s.onA EVT.MAP_EN 0 p && s.rdA EVT.MAP_VEC 0 p == v

/-- The level of IRQ_N: low while a vector selected in EVT_IRQ_MASK is asserted (R631). -/
def State.irqN (s : State) : Bool :=
  !(List.range 64).any fun v =>
    bitOf (s.rdA EVT.IRQ_MASK 0 (v / 32)) (v % 32) && s.vecAsserted v

/-- MSI-X vector `v` is masked in the MSI-X table (word 3 bit 0 of its entry). -/
def State.msixMasked (s : State) (v : Nat) : Bool := bitOf (s.msix.getD (4 * v + 3) 1) 0

/-- A message of vector `v`: sent, or kept pending while the vector is masked (R630). -/
def State.sendMsix (s : State) (v : Nat) : State :=
  if s.on HIF.PCIE_MSIX_EN then
    if s.msixMasked v then { s with msixPending := putBit s.msixPending v true } else s.emit (.msix v)
  else s

/-- Bits of a page's EVT_PEND set, with the MSI-X message of a rising line (R629, R630). -/
def State.pend (s : State) (page : Nat) (mask : Nat) : State :=
  let was := s.line page
  let s := s.wrI PG.EVT_PEND page (s.rdI PG.EVT_PEND page ||| mask)
  if !was && s.line page && s.onA EVT.MAP_EN 0 page then s.sendMsix (s.rdA EVT.MAP_VEC 0 page) else s

/-- Event `n` of a page raised (R629). -/
def State.raise (s : State) (page n : Nat) : State :=
  let s := s.wrBitI PG.EVT_RAW page n true
  if s.bitI PG.EVT_EN page n then s.pend page (2 ^ n) else s

/-- Event `n` of a page raised when a condition holds. -/
def State.raiseIf (s : State) (c : Bool) (page n : Nat) : State := if c then s.raise page n else s

/-- A failed access to a page recorded in its PG_ERR (R645); one on the HIF page raises ACCESS_ERR (R648, assumption 6). -/
def State.accessErr (s : State) (page ofs code : Nat) : State :=
  let s := s.wrI PG.ERR_OFFSET page ofs
  let s := s.wrI PG.ERR_CODE page code
  let s := s.incI PG.ERR_COUNT page
  { s.raiseIf (page == 0xB0) 0xB0 3 with hif := { s.hif with failed := s.hif.failed + 1, lastErr := (page, code) } }

/-- One byte of SRAM. -/
def State.byte (s : State) (a : Nat) : Byte := (Sparse.get s.sram a).getD 0

/-- One byte of SRAM written; the value 0 takes the address off the list. -/
def sramPut (m : List Host.Cell) (a : Nat) (b : Byte) : List Host.Cell :=
  Sparse.put m a (if b = 0 then none else some b)

/-- Bytes written to SRAM from an address. -/
def sramPutAll (m : List Host.Cell) (a : Nat) : Bytes → List Host.Cell
  | [] => m
  | b :: bs => sramPutAll (sramPut m a b) (a + 1) bs

/-- Bytes of SRAM from an address. -/
def State.bytesAt (s : State) (a n : Nat) : Bytes := (List.range n).map fun i => s.byte (a + i)

/-- A byte range touches a word that holds a double-bit error (R24). -/
def State.memBad (s : State) (a n : Nat) : Bool := s.sramBad.any fun w => decide (w < a + n ∧ a < w + 8)

/-- Bytes as a reader gets them: those of a word that holds a double-bit error are free (R24, assumption 153). -/
def State.bytesRead (s : State) (a n : Nat) : Bytes :=
  (List.range n).map fun i => if s.memBad (a + i) 1 then Config.badByte s.freeCtr (a + i) else s.byte (a + i)

/-- A little-endian number as a reader of the SRAM gets it (R9, R24). -/
def State.memLe (s : State) (a n : Nat) : Nat := ofLe (s.bytesRead a n)

/-- The offsets of the 64-bit words that a write of `n` bytes at `a` covers whole. -/
def wholeWords (a n : Nat) : List Nat :=
  (List.range ((n + 7) / 8 + 1)).map (fun i => (a / 8 + i) * 8) |>.filter fun w => a ≤ w && w + 8 ≤ a + n

/-- Bytes written to SRAM; a 64-bit word written whole holds no error any more (R24). -/
def State.memPut (s : State) (a : Nat) (bs : Bytes) : State :=
  { s with
    sram := sramPutAll s.sram a bs
    sramBad := s.sramBad.filter fun w => !(wholeWords a bs.length).contains w }

/-- A little-endian number of `n` bytes written to SRAM. -/
def State.memPutLe (s : State) (a n v : Nat) : State := s.memPut a (leBytes n v)

/-- A hub diagnostic of Table 14-5 raised: its bit, and the instant of the first of the stride. -/
def State.diagnose (s : State) (bit : Nat) : State :=
  { s with
    diagNow := putBit s.diagNow bit true
    diagTime := if s.diagTime = 0 then s.mer.mer / 65536 % 2 ^ 64 else s.diagTime }

/-- A read that meets a double-bit error: SRAM_DED counted and raised with the address (R24). -/
def State.noteDed (s : State) (w : Nat) : State :=
  (((s.wr SYS.SRAM_ERR_ADDR (w / 8)).inc SYS.CNT_SRAM_DED).raise 0 1).diagnose 0

/-- A functional read of bytes of SRAM: every word of them that holds a double-bit error is reported, and the free value that its reader got
is spent (R24). -/
def State.noteRead (s : State) (a n : Nat) : State :=
  if s.memBad a n then
    let s := (s.sramBad.filter fun w => decide (w < a + n ∧ a < w + 8)).foldl State.noteDed s
    { s with freeCtr := s.freeCtr + 1 }
  else s

/-- Two instants lie in the same cycle of an island whose cycle takes `p`; cycles are counted from Meridian 0 (assumption 154). -/
def sameCycle (p a b : Nat) : Bool := a / p == b / p

/-- The last instant of the cycle that an instant lies in. -/
def cycleEnd (p t : Nat) : Nat := t / p * p + (p - 1)

/-- The cycle of the Bunting ports, 161.1328 MHz (Table 1-2). -/
def cycPort : Nat := 406720

/-- The cycle of the 400 MHz islands (Table 1-2). -/
def cyc400 : Nat := 163840

/-- The cycle of the Meridian and the edge scheduler, 500 MHz (Table 1-2). -/
def cyc500 : Nat := 131072

/-- The memory holds its canonical form: addresses rise strictly and no listed byte is 0. -/
def Memory.wf (m : List Host.Cell) : Bool := Sparse.rising none m && m.all fun c => c.2 != 0

/-- A fresh number for a free value. -/
def State.nextFree (s : State) : State := { s with freeCtr := s.freeCtr + 1 }

/-- One nanosecond, in units of 2⁻¹⁶ ns. -/
def ns : Nat := 65536

/-- One microsecond, in units of 2⁻¹⁶ ns. -/
def us : Nat := 65536000

/-- One millisecond, in units of 2⁻¹⁶ ns. -/
def ms : Nat := 65536000000

/-- One second, in units of 2⁻¹⁶ ns. -/
def sec : Nat := 65536000000000

/-- The range of the Meridian, 48-bit seconds (R47). -/
def merRange : Nat := 2 ^ 48 * sec

/-- The Meridian and the uptime counter moved on by `d` (R48, R51). -/
def State.advance (s : State) (d : Nat) : State :=
  { s with mer := { s.mer with mer := (s.mer.mer + d) % merRange, uptime := s.mer.uptime + d } }

/-- Time moved on to Meridian instant `t`, if it has not passed. -/
def State.advanceTo (s : State) (t : Nat) : State :=
  if s.mer.mer < t then s.advance (t - s.mer.mer) else s

/-- Time moved on to uptime instant `t`, if it has not passed. -/
def State.advanceUp (s : State) (t : Nat) : State :=
  if s.mer.uptime < t then s.advance (t - s.mer.uptime) else s

/-- An integer limited between minus and plus a bound. -/
def clampInt (b i : Int) : Int := max (-b) (min b i)

/-- The rate correction in force, 2⁻⁸ ppb: frequency and phase term (R56, R82) within the range of the synthesizer, ±600 ppm (R57). -/
def State.rate (s : State) : Int := clampInt (600 * 256000) (s.mer.freq + s.mer.phase)

/-- One cycle of the Meridian: 2 ns adjusted by the rate correction on the synthesizer, 40 ns of REFCLK before its lock
(R48, R50); what does not fill a unit is carried. -/
def State.tick (s : State) : State :=
  if s.pwr.synthRun then
    let r := s.mer.rateRes + 131072 * s.rate
    let d := r / 256000000000
    let s := { s with mer := { s.mer with rateRes := r % 256000000000 } }
    s.advance (131072 + d).toNat
  else s.advance (40 * ns)

/-- The Meridian as a 64-bit number of nanoseconds (R49). -/
def State.merNs (s : State) : Nat := s.mer.mer / ns % 2 ^ 64

/-- The Meridian instant `t` as a 64-bit number of nanoseconds (R49). -/
def nsOf (t : Nat) : Nat := t / ns % 2 ^ 64

/-- A Meridian instant moved by a signed amount, within the range of the Meridian and not below its zero. -/
def shiftTime (d : Int) (t : Nat) : Nat := ((t : Int) + d).toNat % merRange

/-! The operation times of the security island (R553, Table 16-1). -/

/-- SHA-384 over `n` bytes at 400 MB/s. -/
def shaTime (n : Nat) : Nat := n * 5 * ns / 2

/-- AES-256-GCM decryption of `n` bytes at 1.6 GB/s. -/
def gcmTime (n : Nat) : Nat := n * 5 * ns / 8

/-- P-384 key generation, or ECDH. -/
def curveTime : Nat := 800 * us

/-- An ECDSA P-384 signature. -/
def signTime : Nat := 900 * us

/-- An ECDSA P-384 verification. -/
def verifyTime : Nat := 1600 * us

/-- The security island's work of length `d`, asked for at uptime `asked`, ends: it began when it was asked for and the work before it had
ended, one at a time for all that share the engine (R553). -/
def State.engineDone (s : State) (asked d : Nat) : State :=
  if d = 0 then s
  else
    let e := max s.security.engineAt asked + d
    { s with security := { s.security with engineAt := e } }.advanceUp e

/-- A key-agreement operation asked of the security island. -/
def State.askOp (s : State) (op : SecOp) : State :=
  { s with security := { s.security with ops := s.security.ops ++ [(op, s.mer.uptime)] } }

/-- An operation waits in the security island already. -/
def State.opAsked (s : State) (op : SecOp) : Bool := s.security.ops.any fun x => x.1 == op

/-- A command carried out in its turn, unless another command of its cycle has done so already. -/
def State.inTurn (s : State) (i : Instr) (eff : State → State) : State :=
  if s.served.contains i then { s with served := s.served.erase i } else eff s

/-- The CNF channels scan: CNF_CTL.MODE as the last boundary left it (R437). -/
def State.cnfScan (s : State) : Bool := s.meas.scan

/-- The stride T in force, in units of 2⁻¹⁶ ns; CTR_TIMING counts 10 ns. -/
def State.stride (s : State) : Nat := s.strideT

end Sys2Proof.Machine
end

