-- ==== Sys2Proof/Machine/Signals.lean ====
section
/-! DEFINITION. The Signal store (R289 to R292, Table 8-2): slots of 16 bytes from BAR2 offset 0x0020_0000. -/

namespace Sys2Proof.Machine

/-- The offset of a signal's slot. -/
def sigAddr (i : Nat) : Nat := 0x200000 + 16 * i

/-- A signal read; a word that holds a double-bit error reads as invalid (R24). -/
def State.sig (s : State) (i : Nat) : Sig :=
  let a := sigAddr i
  let fl := (s.byte (a + 8)).toNat
  { bits := if bitOf fl 2 then s.memLe a 8 else s.memLe a 4
    valid := bitOf fl 0 && i != 0xFFFF && !s.memBad a 16
    stale := bitOf fl 1
    isTime := bitOf fl 2
    writer := s.memLe (a + 10) 2
    seq := s.memLe (a + 12) 4 }

/-- A signal's value can be used: VALID set and STALE clear. -/
def Sig.ok (g : Sig) : Bool := g.valid && !g.stale

/-- The stride that a write belongs to now: one that lands at the very instant of the next boundary belongs to the stride that begins
there (R35). -/
def State.presentSeq (s : State) : Nat :=
  if s.mer.mer = s.mer.lastS + s.strideT then (s.mer.seq + 1) % 2 ^ 32 else s.mer.seq

/-- A slot written: value, VALID, TIME and HOST flags, STALE 0, the writer and the present stride. -/
def State.putSig (s : State) (i bits : Nat) (valid isTime host : Bool) (writer : Nat) : State :=
  if i = 0xFFFF then s
  else
    let fl := ofBool valid + 4 * ofBool isTime + 8 * ofBool host
    s.memPut (sigAddr i) (leBytes 8 (if isTime then bits else bits % 2 ^ 32) ++ leBytes 2 fl ++ leBytes 2 writer ++ leBytes 4 s.presentSeq)

/-- A hardware writer's number signal: WRITER 0xFFFF. -/
def State.hwSig (s : State) (i bits : Nat) (valid : Bool) : State := s.putSig i bits valid false false 0xFFFF

/-- A hardware writer's time signal. -/
def State.hwTime (s : State) (i t : Nat) (valid : Bool) : State := s.putSig i t valid true false 0xFFFF

/-- STALE set in a slot that keeps its value (R292). -/
def State.staleSig (s : State) (i : Nat) : State :=
  if i = 0xFFFF then s
  else s.memPut (sigAddr i + 8) [BitVec.ofNat 8 (putBit (s.byte (sigAddr i + 8)).toNat 1 true)]

/-- VALID cleared in a slot that keeps its value. -/
def State.invalidSig (s : State) (i : Nat) : State :=
  if i = 0xFFFF then s
  else s.memPut (sigAddr i + 8) [BitVec.ofNat 8 (putBit (s.byte (sigAddr i + 8)).toNat 0 false)]

/-- The signal as a binary64 value; a time as its number of nanoseconds. -/
def Sig.num (g : Sig) : Num := if g.isTime then numNat g.bits else num32 g.bits

/-- The Cell table cutoff of the present stride (R33). -/
def State.cutoffAt (s : State) : Nat := s.mer.lastS + s.strideT - 200 * ns

/-- The slot in which an uplink lands now: past the cutoff it belongs to the next compute stride, whose landing slot the flip makes of the
other one (R33 to R35, R125); one that arrives in the cycle of the cutoff is in time. -/
def State.landingSlot (s : State) : Nat := if cycleEnd cyc400 s.cutoffAt < s.mer.mer then 1 - s.ctr.slot else s.ctr.slot

end Sys2Proof.Machine
end

