-- ==== Sys2Proof/Machine/Legend.lean ====
section
/-! DEFINITION. The Legend (R326 to R355, Table 9-1): what each operation computes from its inputs, its coefficients and its state. -/

namespace Sys2Proof.Machine

/-! Arithmetic (R327). -/

/-- A value rounded to binary32, a subnormal one to zero. -/
def to32 (x : Num) : Num := (x.round fmt32).flush fmt32

/-- A value rounded to binary64, a subnormal one to zero. -/
def to64 (x : Num) : Num := (x.round fmt64).flush fmt64

/-- Sum, difference, product and quotient in binary32. -/
def add32 (a b : Num) : Num := to32 (a.addX b)

/-- The difference in binary32. -/
def sub32 (a b : Num) : Num := to32 (a.subX b)

/-- The product in binary32. -/
def mul32 (a b : Num) : Num := to32 (a.mulX b)

/-- The quotient in binary32. -/
def div32 (a b : Num) : Num := to32 (a.divX b)

/-- The square root: the binary64 result, taken to binary32. -/
def sqrt32 (a : Num) : Num := to32 a.sqrt

/-- The sum in binary64. -/
def add64 (a b : Num) : Num := to64 (a.addX b)

/-- The difference in binary64. -/
def sub64 (a b : Num) : Num := to64 (a.subX b)

/-- The product in binary64. -/
def mul64 (a b : Num) : Num := to64 (a.mulX b)

/-- The quotient in binary64. -/
def div64 (a b : Num) : Num := to64 (a.divX b)

/-- clamp(x, lo, hi) = max(min(x, hi), lo) (R328). -/
def clampN (x lo hi : Num) : Num := (x.min hi).max lo

/-- 2π as a binary64 number. -/
def twoPi : Num := num64 0x401921FB54442D18

/-- An angle reduced modulo 2π in binary64 (R346, R348). -/
def modTwoPi (x : Num) : Num :=
  if x.isFinite then sub64 x (mul64 twoPi (numInt (div64 x twoPi).floor)) else x

/-- A series of alternating terms: each is the one before times −x²/((k+1)(k+2)), in units of 2⁻⁵¹². -/
def trigSeries (x2 : Nat) : Nat → Nat → Int → Int → Int
  | 0, _, _, acc => acc
  | n + 1, k, t, acc =>
    let t' := -(t * (x2 : Int) / (2 ^ 512 : Nat)) / (((k + 1) * (k + 2) : Nat) : Int)
    trigSeries x2 n (k + 2) t' (acc + t')

/-- A signed number of units of 2⁻⁵¹² rounded to binary64. -/
def fromUnits (i : Int) : Num := (Num.fin (decide (i < 0)) i.natAbs (-512)).round fmt64

/-- The magnitude of a value of at most a few turns, in units of 2⁻⁵¹². -/
def toUnits (m : Nat) (e : Int) : Nat :=
  if 0 ≤ e + 512 then m * 2 ^ (e + 512).toNat else m / 2 ^ (-(e + 512)).toNat

/-- The sine, the binary64 result correctly rounded (R327). -/
def Num.sin : Num → Num
  | .fin s m e =>
    if (bitLen m : Int) + e < -30 then .fin s m e
    else
      let x := toUnits m e
      let r := fromUnits (trigSeries (x * x / 2 ^ 512) 90 1 x x)
      if s then r.neg else r
  | _ => .nan

/-- The cosine, the binary64 result correctly rounded (R327). -/
def Num.cos : Num → Num
  | .fin _ m e =>
    if (bitLen m : Int) + e < -30 then .one
    else
      let x := toUnits m e
      fromUnits (trigSeries (x * x / 2 ^ 512) 90 0 (2 ^ 512) (2 ^ 512))
  | _ => .nan

/-- The sine as a binary32 operand. -/
def sin32 (x : Num) : Num := to32 x.sin

/-- The cosine as a binary32 operand. -/
def cos32 (x : Num) : Num := to32 x.cos

/-- The square root of 3 as a binary32 operand. -/
def sqrt3 : Num := sqrt32 (numNat 3)

/-! Operands (R329). -/

/-- What an operation works on: its inputs (`none`: unused), PARAM, its coefficient words and how many its bank has from there, its state
words, its time step (R330), the Meridian in ns as it starts, the hold limit, and whether a coefficient or state
word that it reads holds a double-bit error (R24). -/
structure OpIn where
  ins   : List (Option Sig)
  param : Nat
  coef  : Nat → Nat
  room  : Nat
  st    : List Nat
  h     : Num
  now   : Nat
  hold  : Nat
  bad   : Bool

/-- Input `i`, if it is used. -/
def OpIn.at (o : OpIn) (i : Nat) : Option Sig := o.ins.getD i none

/-- An input slot is used. -/
def OpIn.used (o : OpIn) (i : Nat) : Bool := (o.at i).isSome

/-- A slot's value is usable: VALID 1, STALE 0, TIME 0 and finite (R329). -/
def Sig.usable (g : Sig) : Bool := g.ok && !g.isTime && (num32 g.bits).isFinite

/-- An input is usable. -/
def OpIn.usable (o : OpIn) (i : Nat) : Bool := ((o.at i).map Sig.usable).getD false

/-- An optional input is unused or usable. -/
def OpIn.optOk (o : OpIn) (i : Nat) : Bool := !o.used i || o.usable i

/-- The value of an input; an unused one reads as 0. -/
def OpIn.val (o : OpIn) (i : Nat) : Num := ((o.at i).map fun g => to32 (num32 g.bits)).getD .zero

/-- The value of an input that is usable, else 0. -/
def OpIn.valOk (o : OpIn) (i : Nat) : Num := if o.usable i then o.val i else .zero

/-- The input is usable and not zero. -/
def OpIn.isSet (o : OpIn) (i : Nat) : Bool := o.usable i && !(o.val i).isZero

/-- The input is usable and zero. -/
def OpIn.isClear (o : OpIn) (i : Nat) : Bool := o.usable i && (o.val i).isZero

/-- Every required input is usable, every optional one unused or usable, and no word read was bad. -/
def OpIn.fit (o : OpIn) (req opt : List Nat) : Bool := req.all o.usable && opt.all o.optOk && !o.bad

/-- Coefficient `k` as a binary32 number. -/
def OpIn.k (o : OpIn) (k : Nat) : Num := to32 (num32 (o.coef k))

/-- Coefficient `k` as a signed 32-bit integer. -/
def OpIn.kInt (o : OpIn) (k : Nat) : Int := sext 32 (o.coef k)

/-- State word `k`. -/
def OpIn.w (o : OpIn) (k : Nat) : Nat := o.st.getD k 0

/-- State word `k` as a binary64 number. -/
def OpIn.w64 (o : OpIn) (k : Nat) : Num := num64 (o.w k)

/-- The low half of state word `k` as a binary32 number. -/
def OpIn.w32 (o : OpIn) (k : Nat) : Num := num32 (o.w k % 2 ^ 32)

/-- Bit `b` of PARAM. -/
def OpIn.p (o : OpIn) (b : Nat) : Bool := bitOf o.param b

/-- The time step as a binary32 operand. -/
def OpIn.h32 (o : OpIn) : Num := to32 o.h

/-! Results (R331, R332). -/

/-- A result that changes nothing. -/
def OpIn.none (o : OpIn) : OpRes :=
  { outs := [], st := o.st, faults := 0, cfl := false, event := false, stop := Option.none, coef := Option.none, axis := Option.none }

/-- The output of a number: VALID as given; one that is not finite keeps the slot's VALUE with VALID 0 (R332). -/
def outNum (valid : Bool) (x : Num) : OutV :=
  if (to32 x).isFinite then .val (bits32 (to32 x)) valid false else .keep false

/-- Results that are not finite. -/
def countFaults (xs : List Num) : Nat := (xs.filter fun x => !(to32 x).isFinite).length

/-- Outputs with VALID 1 and a new state. -/
def OpIn.give (o : OpIn) (xs : List Num) (st : List Nat) : OpRes :=
  { o.none with outs := xs.map fun x => some (outNum true x), st := st, faults := countFaults xs }

/-- Class F (Table 9-2): the outputs keep their VALUE with VALID 0; the state is unchanged. -/
def OpIn.classF (o : OpIn) (n : Nat) : OpRes :=
  { o.none with outs := List.replicate n (some (.keep false)) }

/-- A binary64 state variable; one that is not finite takes its initial value (R332). -/
def put64 (init : Nat) (x : Num) : Nat := if x.isFinite then bits64 x else init

/-- A binary32 state variable; one that is not finite takes its initial value (R332). -/
def put32 (init : Nat) (x : Num) : Nat := if x.isFinite then bits32 x else init

/-- The mark in a state word of a variable that waits to be set from the first usable input (R333). -/
def fresh : Nat := 2 ^ 32

/-- A status word as a value: a small integer. -/
def statusNum (bs : List (Nat × Bool)) : Num := numNat (bs.foldl (fun a b => if b.2 then a + 2 ^ b.1 else a) 0)

/-- Class H while an input is unusable (R355): the outputs keep their VALUE, HELD is set in the status output; beyond the hold limit they
take VALID 0 and LOST, and CONTROL_FEEDBACK_LOST is raised unless PARAM bit 31 is set. `n` values precede the status; the state word
`k` carries the hold count in 9 bits from bit `lo`. -/
def OpIn.holds (o : OpIn) (n heldBit k lo : Nat) : OpRes :=
  let c := min 256 (bitsOf (o.w k) lo 9 + 1)
  let lost := decide (o.hold < c)
  { o.none with
    outs := List.replicate n (some (.keep (!lost))) ++ [some (.mark (2 ^ heldBit + (if lost then 8 else 0)) (!lost))]
    st := o.st.set k (putBits (o.w k) lo 9 c)
    cfl := lost && !o.p 31 }

/-! Arithmetic and selection (R334 to R339). -/

/-- The inputs of the list that are used. -/
def OpIn.usedIn (o : OpIn) : List Nat := (List.range 8).filter o.used

/-- The inputs that are usable. -/
def OpIn.usableIn (o : OpIn) : List Nat := (List.range 8).filter o.usable

/-- WSUM (R334): C plus the weighted inputs, in binary64. -/
def opWsum (o : OpIn) : OpRes :=
  if o.usedIn.isEmpty || !o.fit o.usedIn [] then o.classF 1
  else o.give [o.usedIn.foldl (fun a i => add64 a (mul64 (o.k i) (o.val i))) (o.k 8)] []

/-- MUL (R334): K × a × b, or K × a / b. -/
def opMul (o : OpIn) : OpRes :=
  if !o.fit [0, 1] [] then o.classF 1
  else
    let ka := mul32 (o.k 0) (o.val 0)
    o.give [if o.p 0 then div32 ka (o.val 1) else mul32 ka (o.val 1)] []

/-- The values in rising order. -/
def sortNums (xs : List Num) : List Num := xs.foldl (fun l x => l.takeWhile (fun y => !x.lt y) ++ x :: l.dropWhile fun y => !x.lt y) []

/-- Class V (Table 9-2): a value formed over the usable inputs, VALID when at least `need` are usable, and their number. -/
def OpIn.select (o : OpIn) (need : Int) (f : List Num → Num) : OpRes :=
  let xs := o.usableIn.map o.val
  let n := xs.length
  let v := decide (need ≤ (n : Int)) && !o.bad
  { o.none with
    outs := [if n = 0 then some (.keep false) else some (outNum v (f xs)), some (outNum true (numNat n))]
    faults := if n = 0 then 0 else countFaults [f xs] }

/-- MIN (R335). -/
def opMin (o : OpIn) : OpRes := o.select 1 fun xs => (sortNums xs).headD .zero

/-- MAX (R335). -/
def opMax (o : OpIn) : OpRes := o.select 1 fun xs => (sortNums xs).getLastD .zero

/-- MED (R335): the median, or the mean of the two middle values. -/
def opMed (o : OpIn) : OpRes :=
  o.select (max 1 (o.kInt 0)) fun xs =>
    let l := sortNums xs
    let n := l.length
    if n % 2 = 1 then l.getD (n / 2) .zero
    else div32 (add32 (l.getD (n / 2 - 1) .zero) (l.getD (n / 2) .zero)) (numNat 2)

/-- LIM (R336). -/
def opLim (o : OpIn) : OpRes :=
  if !o.fit [0] [1, 2] then o.classF 2
  else
    let x := o.val 0
    let lo := if o.used 1 then o.val 1 else o.k 0
    let hi := if o.used 2 then o.val 2 else o.k 1
    let y := clampN x lo hi
    let status : Int := if y.eqv x then 0 else if y.eqv hi then 1 else if y.eqv lo then -1 else 0
    o.give [y, numInt status] []

/-- The value that a rate-limited variable takes on its way from `from0` to `x` in one run (R337, R341, R342). -/
def moveTo (from0 x up dn h : Num) : Num := add32 from0 (clampN (sub32 x from0) (mul32 dn.abs h).neg (mul32 up.abs h))

/-- RLIM (R337). -/
def opRlim (o : OpIn) : OpRes :=
  let w := o.w 0
  if !o.fit [0] [] then { o.classF 1 with st := [w] }
  else
    let prev := if bitOf w 32 then o.val 0 else num32 (w % 2 ^ 32)
    let y := moveTo prev (o.val 0) (o.k 0) (o.k 1) o.h32
    o.give [y] [put32 fresh y]

/-- Linear interpolation on the segment from point `i` of a table of `n` points (R338). -/
def OpIn.segment (o : OpIn) (n i : Nat) (x : Num) : Num :=
  let x0 := o.k (1 + i)
  let y0 := o.k (1 + n + i)
  add32 y0 (mul32 (div32 (sub32 x x0) (sub32 (o.k (2 + i)) x0)) (sub32 (o.k (2 + n + i)) y0))

/-- LUT (R338). -/
def opLut (o : OpIn) : OpRes :=
  if !o.fit [0] [] then o.classF 1
  else
    let n := (o.kInt 0).toNat
    let x := o.val 0
    if o.kInt 0 < 2 ∨ 1024 < o.kInt 0 ∨ o.room < 1 + 2 * n then o.give [.nan] []
    else
      let below := (List.range n).filter fun i => (o.k (1 + i)).le x
      match below.getLast? with
      | Option.none => o.give [if o.p 0 then o.segment n 0 x else o.k (1 + n)] []
      | some i =>
        if i + 1 < n then o.give [o.segment n i x] []
        else o.give [if o.p 0 then o.segment n (n - 2) x else o.k (2 * n)] []

/-- GEAR (R339). -/
def opGear (o : OpIn) : OpRes :=
  if !o.fit [0] [] then o.classF 1
  else
    let w := o.k 2
    if o.kInt 1 = 0 ∨ (o.p 0 ∧ !Num.zero.lt w) then o.give [.nan] []
    else
      let r := div64 (mul64 (o.val 0) (numInt (o.kInt 0))) (numInt (o.kInt 1))
      if o.p 0 then
        let y := to32 (sub64 r (mul64 w (numInt (div64 r w).floor)))
        o.give [if y.eqv w then .zero else y] []
      else o.give [r] []

/-! Controllers (R340 to R342). -/

/-- One run of the control law of R340 from the reference, with the integrator's value before it: output, integrator, and the status bits
I_CLAMP and U_CLAMP. -/
def OpIn.piLaw (o : OpIn) (r i0 : Num) : Num × Num × Bool × Bool :=
  let e := sub32 r (o.val 1)
  let p := mul32 (o.k 0) e
  let ff := o.val 2
  let raw := add64 i0 (mul64 (mul64 (o.k 1) o.h) e)
  let iTry := clampN raw (o.k 2) (o.k 3)
  let uTry := add32 (add32 p (to32 iTry)) ff
  let ke := mul32 (o.k 1) e
  let hold := ((o.k 5).lt uTry && Num.zero.lt ke) || (uTry.lt (o.k 4) && ke.lt .zero)
  let i := if hold then i0 else iTry
  let u0 := add32 (add32 p (to32 i)) ff
  let u := clampN u0 (o.k 4) (o.k 5)
  (u, i, !iTry.eqv raw, !u.eqv u0)

/-- PI (R340, R355): state word 0 the integrator, word 1 the hold count. -/
def opPi (o : OpIn) : OpRes :=
  if !o.fit [0, 1] [2, 3] then o.holds 1 0 1 0
  else
    let i0 := if o.isSet 3 then clampN .zero (o.k 2) (o.k 3) else o.w64 0
    let (u, i, ic, uc) := o.piLaw (o.val 0) i0
    o.give [u, statusNum [(1, ic), (2, uc)]] [put64 0 i, 0]

/-- PI_RS (R341): word 0 the integrator, word 1 r*, with the mark of a state that enters tracking (R333), word 2 the hold count. -/
def opPiRs (o : OpIn) : OpRes :=
  if !o.fit [0, 1, 3] [2, 4] then o.holds 1 0 2 0
  else
    let y := o.val 1
    let trackRaw := sub64 (o.val 4) (o.val 2)
    let track := clampN trackRaw (o.k 2) (o.k 3)
    let enter := bitOf (o.w 1) 32
    if o.isClear 3 then
      let u0 := add32 (to32 track) (o.val 2)
      let u := clampN u0 (o.k 4) (o.k 5)
      o.give [u, statusNum [(1, !track.eqv trackRaw), (2, !u.eqv u0), (4, !y.eqv (o.val 0))]] [put64 0 track, put32 fresh y, 0]
    else
      let i0 := if enter then track else o.w64 0
      let r0 := if enter then y else o.w32 1
      let r := moveTo r0 (o.val 0) (o.k 6) (o.k 6) o.h32
      let (u, i, ic, uc) := o.piLaw r i0
      o.give [u, statusNum [(1, ic), (2, uc), (4, !r.eqv (o.val 0))]] [put64 0 i, put32 fresh r, 0]

/-- RAMP (R342): word 0 the output, word 1 bit 0: running. -/
def opRamp (o : OpIn) : OpRes :=
  let done := fun (y : Num) => o.usable 0 && y.eqv (o.val 0)
  if o.bad || !o.usable 2 then o.classF 2
  else if o.isClear 2 then
    match o.at 1 with
    | Option.none => { o.classF 2 with st := [o.w 0, 0] }
    | some g =>
      let y := num32 g.bits
      { o.none with
        outs := [some (outNum g.usable y), some (outNum true (statusNum [(0, g.usable && done (o.val 1))]))]
        st := [if g.usable then put32 0 y else o.w 0, 0]
        faults := countFaults [y] }
  else if !bitOf (o.w 1) 0 then
    if o.usable 1 then o.give [o.val 1, statusNum [(0, done (o.val 1))]] [put32 0 (o.val 1), 1]
    else { o.none with outs := [some (.keep false), some (outNum true (statusNum [(1, true)]))] }
  else if !o.usable 0 then o.classF 2
  else
    let y := moveTo (o.w32 0) (o.val 0) (o.k 0) (o.k 1) o.h32
    o.give [y, statusNum [(0, done y)]] [put32 0 y, 1]

/-! Filters and transforms (R343 to R347). -/

/-- One step of a first-order filter. -/
def lpStep (y x a : Num) : Num := add32 y (mul32 (clampN a .zero .one) (sub32 x y))

/-- LPF1 (R343). -/
def opLpf1 (o : OpIn) : OpRes :=
  let w := o.w 0
  if !o.fit [0] [] then { o.classF 1 with st := [w] }
  else
    let x := o.val 0
    let y := lpStep (if bitOf w 32 then x else num32 (w % 2 ^ 32)) x (o.k 0)
    o.give [if o.p 0 then sub32 x y else y] [put32 fresh y]

/-- BIQ2 (R344): words 0 and 1 the states, word 2 bits 0 and 1: with PRIME, the state waits for the first usable input; one that would become
non-finite waits for it again (R332). -/
def opBiq2 (o : OpIn) : OpRes :=
  if !o.fit [0] [] then { o.classF 1 with st := o.st }
  else
    let x := o.val 0
    let b0 := o.k 0
    let b1 := o.k 1
    let b2 := o.k 2
    let a1 := o.k 3
    let a2 := o.k 4
    let den := add64 (add64 .one a1) a2
    let g := div64 (add64 (add64 b0 b1) b2) den
    let s1 := if bitOf (o.w 2) 0 then (if den.isZero then .zero else mul64 (sub64 g b0) x) else o.w64 0
    let s2 := if bitOf (o.w 2) 1 then (if den.isZero then .zero else mul64 (sub64 b2 (mul64 a2 g)) x) else o.w64 1
    let y := add32 (mul32 b0 x) (to32 s1)
    let n1 := add64 (sub64 (mul64 b1 x) (mul64 a1 y)) s2
    let n2 := sub64 (mul64 b2 x) (mul64 a2 y)
    o.give [y] [put64 0 n1, put64 0 n2, if o.p 0 then ofBool (!n1.isFinite) + 2 * ofBool (!n2.isFinite) else 0]

/-- The Clarke transform (R345). -/
def clarke (a b c : Num) : Num × Num × Num :=
  (div32 (sub32 (sub32 (mul32 (numNat 2) a) b) c) (numNat 3), div32 (sub32 b c) sqrt3, div32 (add32 (add32 a b) c) (numNat 3))

/-- The inverse Clarke transform (R345). -/
def iclarke (al be z : Num) : Num × Num × Num :=
  let half := div32 al.neg (numNat 2)
  let q := mul32 (div32 sqrt3 (numNat 2)) be
  (add32 al z, add32 (add32 half q) z, add32 (sub32 half q) z)

/-- The Park transform at an angle (R346). -/
def park (al be phi : Num) : Num × Num :=
  let c := cos32 phi
  let s := sin32 phi
  (add32 (mul32 al c) (mul32 be s), add32 (mul32 al.neg s) (mul32 be c))

/-- The inverse Park transform at an angle (R346). -/
def ipark (d q phi : Num) : Num × Num :=
  let c := cos32 phi
  let s := sin32 phi
  (sub32 (mul32 d c) (mul32 q s), add32 (mul32 d s) (mul32 q c))

/-- The angle K × θ + offset, reduced modulo 2π in binary64 (R346). -/
def parkAngle (k : Int) (theta ofs : Num) : Num := modTwoPi (add64 (mul64 (numInt k) theta) ofs)

/-- K of PARK and IPARK: PARAM bits 7:0, signed, 0 read as 1 (R346). -/
def OpIn.parkK (o : OpIn) : Int := if o.param % 256 = 0 then 1 else sext 8 o.param

/-- CLARKE (R345). -/
def opClarke (o : OpIn) : OpRes :=
  if !o.fit [0, 1] [2] then o.classF 3
  else
    let a := o.val 0
    let b := o.val 1
    let (x, y, z) := clarke a b (if o.used 2 then o.val 2 else sub32 a.neg b)
    o.give [x, y, z] []

/-- ICLARKE (R345). -/
def opIclarke (o : OpIn) : OpRes :=
  if !o.fit [0, 1] [2] then o.classF 3
  else
    let (x, y, z) := iclarke (o.val 0) (o.val 1) (o.val 2)
    o.give [x, y, z] []

/-- PARK (R346). -/
def opPark (o : OpIn) : OpRes :=
  if !o.fit [0, 1, 2] [3] then o.classF 2
  else
    let (d, q) := park (o.val 0) (o.val 1) (parkAngle o.parkK (o.val 2) (o.val 3))
    o.give [d, q] []

/-- IPARK (R346). -/
def opIpark (o : OpIn) : OpRes :=
  if !o.fit [0, 1, 2] [3] then o.classF 2
  else
    let (x, y) := ipark (o.val 0) (o.val 1) (parkAngle o.parkK (o.val 2) (o.val 3))
    o.give [x, y] []

/-- The half `hi` of state word `k` as a binary32 number. -/
def OpIn.whalf (o : OpIn) (k : Nat) (hi : Bool) : Num := num32 (bitsOf (o.w k) (if hi then 32 else 0) 32)

/-- SEQ (R347): words 0 and 1 the four filtered values, word 2 bits 0 to 3: the value waits for the first usable input. -/
def opSeq (o : OpIn) : OpRes :=
  if !o.fit [0, 1, 2] [] then { o.classF 4 with st := o.st }
  else
    let al := o.val 0
    let be := o.val 1
    let th := o.val 2
    let (dp, qp) := park al be (parkAngle 1 th .zero)
    let (dn, qn) := park al be (parkAngle (-1) th .zero)
    let c := cos32 (parkAngle 2 th .zero)
    let s := sin32 (parkAngle 2 th .zero)
    let fdp := o.whalf 0 false
    let fqp := o.whalf 0 true
    let fdn := o.whalf 1 false
    let fqn := o.whalf 1 true
    let xdp := sub32 (sub32 dp (mul32 fdn c)) (mul32 fqn s)
    let xqp := sub32 (add32 qp (mul32 fdn s)) (mul32 fqn c)
    let xdn := add32 (sub32 dn (mul32 fdp c)) (mul32 fqp s)
    let xqn := sub32 (sub32 qn (mul32 fdp s)) (mul32 fqp c)
    let lp := fun (k : Nat) (y x : Num) => (if bitOf (o.w 2) k then x else lpStep y x (o.k 0))
    let a := lp 0 fdp xdp
    let b := lp 1 fqp xqp
    let d := lp 2 fdn xdn
    let q := lp 3 fqn xqn
    o.give [a, b, d, q]
      [put32 0 a + 2 ^ 32 * put32 0 b, put32 0 d + 2 ^ 32 * put32 0 q,
        maskOf ((List.range 4).filter fun k => !([a, b, d, q].getD k .zero).isFinite)]

/-! Phase tracking and circulating-current suppression (R348 to R350). -/

/-- The lock counter's range in the PLL's state. -/
def lockTop : Nat := 2 ^ 23 - 1

/-- The PLL's third state word: ω, the hold count and the lock count. -/
def pllWord (omega hold lock : Nat) : Nat := omega + 2 ^ 32 * hold + 2 ^ 41 * min lock lockTop

/-- θ turned on by ω × h, modulo 2π, in binary64. -/
def OpIn.turn (o : OpIn) (th om : Num) : Num := modTwoPi (add64 th (mul64 om o.h))

/-- PLL while an input is unusable (R355): it holds, and θ goes on at the held ω. -/
def OpIn.pllHold (o : OpIn) : OpRes :=
  let r := o.holds 3 1 2 32
  let lost := bitsOf (r.st.getD 2 0) 32 9 > o.hold
  { r with
    outs := some (outNum (!lost) (o.w64 0)) :: r.outs.drop 1
    st := r.st.set 0 (put64 0 (o.turn (o.w64 0) (o.w32 2)))
    axis := if o.p 4 then some (o.w 0, bitsOf (o.w 2) 0 32) else Option.none }

/-- PLL (R348, R349): word 0 θ, word 1 I, word 2 ω and the counters. -/
def opPll (o : OpIn) : OpRes :=
  let al := o.val 0
  let be := o.val 1
  let amp := sqrt32 (add32 (mul32 al al) (mul32 be be))
  if !o.fit [0, 1] [2] || amp.lt (o.k 5) then o.pllHold
  else
    let th := o.w64 0
    let i := o.w64 1
    let ff := o.val 2
    let e := div32 (add32 (mul32 al.neg (sin32 th)) (mul32 be (cos32 th))) amp
    let kpe := mul32 (o.k 0) e
    let kie := mul64 (mul64 (o.k 1) o.h) e
    let base := add32 (add32 (o.k 2) ff) kpe
    let omU := add32 (add32 base (to32 i)) (to32 kie)
    let i' := if (o.k 3).le omU && omU.le (o.k 4) then add64 i kie else i
    let om := clampN (add32 base (to32 i')) (o.k 3) (o.k 4)
    let inTol := e.abs.le (o.k 6)
    let n := if inTol then bitsOf (o.w 2) 41 23 + 1 else 0
    let lock := inTol && decide (min (o.kInt 7) lockTop ≤ (n : Int))
    let rev := (o.w32 2).lt .zero != om.lt .zero
    let r := o.give [th, om, amp, statusNum [(0, lock), (2, rev)]]
      [put64 0 (o.turn th om), put64 0 i', pllWord (put32 (put32 0 (o.k 2)) om) 0 n]
    { r with axis := if o.p 4 then some (o.w 0, put32 0 om) else Option.none }

/-- CCSC (R350): words 0 and 1 Id and Iq, word 2 the hold count. -/
def opCcsc (o : OpIn) : OpRes :=
  if o.isClear 7 then o.give [.zero, .zero, .zero, .zero] [0, 0, o.w 2]
  else if !o.fit [0, 1, 2, 3, 4, 5, 6] [7] then o.holds 3 0 2 0
  else
    let ic := fun (x : Nat) => div32 (add32 (o.val x) (o.val (x + 3))) (numNat 2)
    let (al, be, _) := clarke (ic 0) (ic 1) (ic 2)
    let phi := parkAngle (-2) (o.val 6) .zero
    let (d, q) := park al be phi
    let vd := add32 (mul32 (o.k 0) (sub32 .zero d)) (to32 (o.w64 0))
    let vq := add32 (mul32 (o.k 0) (sub32 .zero q)) (to32 (o.w64 1))
    let mag := sqrt32 (add32 (mul32 vd vd) (mul32 vq vq))
    let sat := (o.k 2).lt mag
    let scale := fun (v : Num) => (if sat then div32 (mul32 v (o.k 2)) mag else v)
    let step := fun (i x : Num) => (if sat then i else sub64 i (mul64 (mul64 (o.k 1) o.h) x))
    let (x, y) := ipark (scale vd) (scale vq) phi
    let (ua, ub, uc) := iclarke x y .zero
    o.give [ua, ub, uc, statusNum [(2, sat)]] [put64 0 (step (o.w64 0) d), put64 0 (step (o.w64 1) q), 0]

/-! Events, stops and copies (R352 to R354, R361). -/

/-- CMP (R352): word 0 bit 0 the output. -/
def opCmp (o : OpIn) : OpRes :=
  if !o.fit [0] [1] then { o.classF 1 with st := o.st }
  else
    let x := o.val 0
    let thr := if o.used 1 then o.val 1 else o.k 0
    let above := (add32 thr (o.k 1)).lt x
    let below := x.lt (sub32 thr (o.k 1))
    let was := bitOf (o.w 0) 0
    let y := if o.p 0 then (if below then true else if above then false else was)
      else (if above then true else if below then false else was)
    { o.give [numNat (ofBool y)] [ofBool y] with event := (y && !was) || (o.p 1 && was && !y) }

/-- STOPREQ (R353): the condition sets the stop source when it is not zero or unusable. -/
def opStopreq (o : OpIn) : OpRes := { o.none with stop := some !(o.isClear 0 && !o.bad) }

/-- COEF_WR (R361): the value that it offers to the queue. -/
def opCoefWr (o : OpIn) : OpRes :=
  { o.none with coef := if o.usable 0 && !o.bad then (o.at 0).map Sig.bits else Option.none }

/-- XCOPY of one input (R354, class P): VALUE, TIME and VALID; a number that is not finite follows R332. -/
def copyOut (g : Sig) : OutV :=
  if g.isTime || (num32 g.bits).isFinite then .val g.bits g.ok g.isTime else .keep false

/-- XCOPY (R354). -/
def opXcopy (o : OpIn) : OpRes :=
  let snap := o.p 0
  let outs := (List.range 4).map fun i =>
    if snap && i == 3 then some (OutV.val o.now true true) else (o.at i).map copyOut
  { o.none with
    outs := outs
    faults := ((List.range 4).filter fun i => !(snap && i == 3) && (o.at i).any fun g => copyOut g == .keep false).length }

/-! The catalogue (Table 9-1). -/

/-- A row of the catalogue: opcode, the greatest number of inputs it uses, outputs, coefficient words, state words, and the PARAM bits assigned. -/
structure LegendRow where
  code  : Nat
  ins   : Nat
  outs  : Nat
  coefs : Nat
  state : Nat
  param : Nat
  deriving DecidableEq, Repr

/-- The catalogue of Legend 0x0100. -/
def legend : List LegendRow :=
  [⟨0x01, 4, 4, 0, 0, 1⟩, ⟨0x08, 8, 1, 9, 0, 0⟩, ⟨0x09, 2, 1, 1, 0, 1⟩, ⟨0x10, 4, 2, 6, 2, 0x80000000⟩, ⟨0x11, 5, 2, 7, 3, 0x80000000⟩,
   ⟨0x18, 3, 2, 2, 2, 0⟩, ⟨0x20, 1, 1, 1, 1, 1⟩, ⟨0x21, 1, 1, 5, 3, 1⟩, ⟨0x30, 3, 3, 0, 0, 0⟩, ⟨0x31, 3, 3, 0, 0, 0⟩,
   ⟨0x32, 4, 2, 0, 0, 0xFF⟩, ⟨0x33, 4, 2, 0, 0, 0xFF⟩, ⟨0x34, 3, 4, 1, 3, 0⟩, ⟨0x38, 3, 4, 8, 3, 0x8000001F⟩]
  ++ [⟨0x40, 3, 2, 2, 0, 0⟩, ⟨0x41, 1, 1, 2, 1, 0⟩, ⟨0x48, 1, 1, 1, 0, 1⟩, ⟨0x50, 8, 4, 3, 3, 0x80000000⟩, ⟨0x58, 8, 2, 0, 0, 0⟩,
   ⟨0x59, 8, 2, 0, 0, 0⟩, ⟨0x5A, 8, 2, 1, 0, 0⟩, ⟨0x60, 1, 1, 3, 0, 1⟩, ⟨0x68, 2, 1, 2, 1, 0xFFFF000F⟩, ⟨0x69, 1, 0, 0, 1, 0xFFF⟩,
   ⟨0x78, 1, 0, 0, 1, 0xFFFF⟩]

/-- The row of an opcode. -/
def legendRow (op : Nat) : Option LegendRow := legend.find? fun r => r.code == op

/-- The cycle cost of an operation with `n` inputs used and, for LUT, N points (Table 9-1). -/
def legendCost (op n : Nat) (div : Bool) (points : Int) : Nat :=
  match op with
  | 0x01 => 16 | 0x08 => 10 + 3 * n | 0x09 => if div then 30 else 14 | 0x10 => 36 | 0x11 => 48 | 0x18 => 28 | 0x20 => 20 | 0x21 => 30
  | 0x30 => 18 | 0x31 => 18 | 0x32 => 40 | 0x33 => 40 | 0x34 => 180 | 0x38 => 140 | 0x40 => 14 | 0x41 => 18
  | 0x48 => 24 + 4 * (if points < 2 then 0 else Nat.log2 (points.toNat - 1) + 1)
  | 0x50 => 300 | 0x58 => 12 + 2 * n | 0x59 => 12 + 2 * n | 0x5A => 40 | 0x60 => 24 | 0x68 => 16 | 0x69 => 12 | 0x78 => 20
  | _ => 0

end Sys2Proof.Machine
end

