-- ==== Sys2Proof/Machine/Planner.lean ====
section
/-! DEFINITION. The path planner of the Traverse (R371 to R377): time-optimal paths with piecewise-constant jerk under the limits V, A
(acceleration), D (deceleration) and J, in binary64. A path is a list of segments, each a jerk and a duration; a position is reached
by way of a peak velocity, which is found by bisection. -/

namespace Sys2Proof.Machine

/-- The limits of a move. -/
structure Lims where
  v : Num
  a : Num
  d : Num
  j : Num

/-- A point of a profile: position, velocity, acceleration. -/
structure Pt where
  x : Num
  v : Num
  a : Num
  deriving DecidableEq, Repr

/-- A segment: jerk and duration. -/
abbrev Seg := Num × Num

/-- One half. -/
def half : Num := .fin false 1 (-1)

/-- The square. -/
def sq (x : Num) : Num := x.mul x

/-- A value below zero. -/
def Num.isNeg (x : Num) : Bool := x.lt .zero

/-- The point after time `t` at jerk `j`, integrated exactly between switching instants (R371). -/
def Pt.run (p : Pt) (j t : Num) : Pt :=
  { x := (((((j.mul t).div (numNat 6)).add (p.a.mul half)).mul t).add p.v).mul t |>.add p.x
    v := ((((j.mul half).mul t).add p.a).mul t).add p.v
    a := (j.mul t).add p.a }

/-- The point at the end of a path. -/
def Pt.follow (p : Pt) (path : List Seg) : Pt := path.foldl (fun p s => p.run s.1 s.2) p

/-- The duration of a path. -/
def pathTime (path : List Seg) : Num := path.foldl (fun t s => t.add s.2) .zero

/-- The point of a path at time `t` from its start, and whether the path ends by then. -/
def Pt.at (p : Pt) : List Seg → Num → Pt × Bool
  | [], _ => (p, true)
  | s :: rest, t => if s.2.le t then (p.run s.1 s.2).at rest (t.sub s.2) else (p.run s.1 t, false)

/-- A path with its segments' jerks negated: the mirror image. -/
def mirror (path : List Seg) : List Seg := path.map fun s => (s.1.neg, s.2)

/-- From (v, a) with a ≥ 0 up to (vt, 0) under one acceleration limit `l`: raise, hold, lower; above the limit, lower first. -/
def riseOne (l j v a vt : Num) : List Seg :=
  if l.lt a then
    let t := (a.sub l).div j
    let v1 := v.add (((sq a).sub (sq l)).div (j.mul (numNat 2)))
    let hold := (((vt.sub v1).sub ((sq l).div (j.mul (numNat 2)))).div l).max .zero
    [(j.neg, t), (.zero, hold), (j.neg, l.div j)]
  else
    let top := (((vt.sub v).mul j).add ((sq a).mul half)).max (sq a) |>.sqrt
    let pk := top.min l
    let gain := ((sq pk).mul (numNat 2)).sub (sq a) |>.div (j.mul (numNat 2))
    let hold := if pk.isZero then .zero else (((vt.sub v).sub gain).div pk).max .zero
    [(j, (pk.sub a).div j), (.zero, if l.lt top then hold else .zero), (j.neg, pk.div j)]

/-- From (v, a) with v < 0 and a ≥ 0 to velocity 0 as fast as the limit `d` allows, ending with at most the acceleration `cap`: the path and
the acceleration at its end. -/
def riseToZero (d cap j v a : Num) : List Seg × Num :=
  let need := v.neg
  let free := ((sq a).add ((need.mul j).mul (numNat 2))).sqrt
  if free.le (d.min cap) then ([(j, (free.sub a).div j)], free)
  else if d.le cap then
    let up := ((sq d).sub (sq a)).div (j.mul (numNat 2))
    ([(j, (d.sub a).div j), (.zero, ((need.sub up).div d).max .zero)], d)
  else
    let pk := (((((sq a).add (sq cap)).mul half).add (need.mul j)).sqrt).min d
    let used := ((((sq pk).mul (numNat 2)).sub (sq a)).sub (sq cap)).div (j.mul (numNat 2))
    ([(j, ((pk.sub a).div j).max .zero), (.zero, ((need.sub used).div pk).max .zero), (j.neg, (pk.sub cap).div j)], cap)

/-- From (v, a) with a ≥ 0 up to (vt, 0): the limit is D below velocity 0 and A from it on (R371). -/
def riseTo (l : Lims) (v a vt : Num) : List Seg :=
  if !v.isNeg then riseOne l.a l.j v a vt
  else if vt.le .zero then riseOne l.d l.j v a vt
  else
    let back := (vt.mul l.j).mul (numNat 2)
    let reach := (l.d.min ((sq a).add ((v.neg.mul l.j).mul (numNat 2))).sqrt)
    if back.le (sq (if l.d.le l.a then reach else l.a)) then riseOne l.d l.j v a vt
    else
      let (p, a0) := riseToZero l.d l.a l.j v a
      p ++ riseOne l.a l.j .zero a0 vt

/-- From (v, a) up to (vt, 0); a negative acceleration is lowered to 0 first. -/
def stepUp (l : Lims) (v a vt : Num) : List Seg :=
  if a.isNeg then
    let t := a.neg.div l.j
    (l.j, t) :: riseTo l (v.sub ((sq a).div (l.j.mul (numNat 2)))) .zero vt
  else riseTo l v a vt

/-- The velocity at which the acceleration has been brought to 0. -/
def settled (j v a : Num) : Num := v.add ((a.mul a.abs).div (j.mul (numNat 2)))

/-- The time-optimal path from (v, a) to (vt, 0). -/
def velPath (l : Lims) (v a vt : Num) : List Seg :=
  let v0 := settled l.j v a
  if v0.lt vt then stepUp l v a vt
  else if vt.lt v0 then mirror (stepUp l v.neg a.neg vt.neg)
  else [(if a.isNeg then l.j else l.j.neg, a.abs.div l.j)]

/-- The distance of a path from (v, a). -/
def pathDist (v a : Num) (path : List Seg) : Num := (Pt.follow ⟨.zero, v, a⟩ path).x

/-- By way of the peak velocity `vp` to (ve, 0), with a cruise of time `c` at it. -/
def viaPeak (l : Lims) (v a ve vp c : Num) : List Seg := velPath l v a vp ++ [(.zero, c)] ++ velPath l vp .zero ve

/-- By way of the acceleration `a1`, between a present deceleration and 0, and from there to (ve, 0). -/
def viaEase (l : Lims) (v a ve a1 : Num) : List Seg :=
  let t := (a1.sub a).div l.j
  let p := Pt.run ⟨.zero, v, a⟩ l.j t
  (l.j, t) :: velPath l p.v p.a ve

/-- `n` halvings of an interval at whose lower end the distance is at most the one wanted. -/
def bisect (f : Num → Num) (want : Num) : Nat → Num → Num → Num
  | 0, lo, _ => lo
  | n + 1, lo, hi =>
    let m := (lo.add hi).mul half
    if (f m).le want then bisect f want n m hi else bisect f want n lo m

/-- The path from (v, a) to (ve, 0) over a distance of at least that of the direct change of velocity. -/
def pathFar (l : Lims) (v a ve dist : Num) : List Seg :=
  let v0 := settled l.j v a
  let eased := viaEase l v a ve .zero
  if a.isNeg && ve.lt v0 && dist.lt (pathDist v a eased) then
    viaEase l v a ve (bisect (fun a1 => pathDist v a (viaEase l v a ve a1)) dist 64 a .zero)
  else
    let top := viaPeak l v a ve l.v .zero
    let room := dist.sub (pathDist v a top)
    if !room.isNeg then viaPeak l v a ve l.v (room.div l.v)
    else
      let vp := bisect (fun vp => pathDist v a (viaPeak l v a ve vp .zero)) dist 64 ((v0.max ve).min l.v) l.v
      viaPeak l v a ve vp .zero

/-- The path from (x, v, a) to (xt, ve, 0) (R371). -/
def posPath (l : Lims) (p : Pt) (xt ve : Num) : List Seg :=
  let dist := xt.sub p.x
  let direct := velPath l p.v p.a ve
  let d0 := pathDist p.v p.a direct
  if d0.eqv dist then direct
  else if d0.lt dist then pathFar l p.v p.a ve dist
  else mirror (pathFar l p.v.neg p.a.neg ve.neg dist.neg)

/-- The signed stopping distance from (v, a). -/
def stopDist (l : Lims) (v a : Num) : Num := pathDist v a (velPath l v a .zero)

/-- The direction of travel: of the velocity, or at standstill of the acceleration. -/
def Pt.travel (p : Pt) : Int := if p.v.isNeg then -1 else if !p.v.isZero then 1 else if p.a.isNeg then -1 else if p.a.isZero then 0 else 1

/-- The target lies ahead but within the stopping distance, and also within the distance of the change to the end velocity `ve`: the path
overshoots it (R374; a blended move passes its target at v_j, R381). -/
def overshoots (l : Lims) (p : Pt) (xt ve : Num) : Bool :=
  let dist := xt.sub p.x
  let s := stopDist l p.v p.a
  let c := pathDist p.v p.a (velPath l p.v p.a ve)
  if p.travel = 0 then false
  else if p.travel < 0 then dist.isNeg && s.lt dist && c.lt dist
  else !dist.isNeg && !dist.isZero && dist.lt s && dist.lt c

/-- The velocity at the ends of the segments of a path and where the acceleration passes 0 within one. -/
def pathSpeeds (p : Pt) : List Seg → List Num
  | [] => [p.v]
  | s :: rest =>
    let q := p.run s.1 s.2
    let turn := if s.1.isZero then [] else
      let t := (p.a.div s.1).neg
      if Num.zero.lt t && t.lt s.2 then [(p.run s.1 t).v] else []
    p.v :: turn ++ pathSpeeds q rest

/-- The path holds a change of sign of v (R374): from a velocity of one sign to one of the other. -/
def reverses (p : Pt) (path : List Seg) : Bool :=
  let vs := pathSpeeds p path
  vs.any Num.isNeg && vs.any fun v => Num.zero.lt v

end Sys2Proof.Machine
end

