-- ==== Sys2Proof/Machine/Pages.lean ====
section
/-! DEFINITION. The page map (R646, Table 18-4, Table 5-5) and what an access meets before it reaches a block: an absent page
(R620), the time before boot (R640), an island without a grant (R606) and a soft reset (R643). -/

namespace Sys2Proof.Machine

/-- A block of the page map: its first page and count, its events, whether it has RWL fields and whether a cell serves it. -/
structure BlockInfo where
  first    : Nat
  count    : Nat
  events   : Nat
  lockable : Bool
  cell     : Bool
  fields   : List RegField

/-- The blocks of Table 18-4, with the event counts of R88 to R671 and the cell pages of Table 5-5. -/
def blocks : List BlockInfo :=
  [⟨0x00, 1, 7, false, true, SYS.fields⟩, ⟨0x01, 1, 5, true, true, PWR.fields⟩,
   ⟨0x02, 1, 6, false, true, CLK.fields⟩, ⟨0x03, 1, 2, true, true, SUP.fields⟩,
   ⟨0x08, 1, 13, true, true, MER.fields⟩, ⟨0x09, 2, 0, true, false, PTP.fields⟩,
   ⟨0x10, 48, 10, true, true, BNT.fields⟩, ⟨0x40, 1, 9, true, true, BNC.fields⟩,
   ⟨0x41, 1, 7, true, false, TWN.fields⟩, ⟨0x48, 1, 5, true, false, CTR.fields⟩,
   ⟨0x49, 12, 10, true, false, CTG.fields⟩, ⟨0x58, 1, 13, true, true, EDG.fields⟩,
   ⟨0x59, 1, 14, true, true, GDR.fields⟩, ⟨0x5A, 1, 15, true, true, CEL.fields⟩]
  ++ [⟨0x60, 1, 8, false, false, GRF.fields⟩, ⟨0x61, 1, 5, false, false, GRS.fields⟩,
   ⟨0x68, 16, 22, true, false, AXS.fields⟩, ⟨0x78, 8, 8, true, false, FBK.fields⟩,
   ⟨0x80, 1, 5, true, true, CNI.fields⟩, ⟨0x81, 1, 8, true, true, CNF.fields⟩,
   ⟨0x82, 1, 6, true, false, SVS.fields⟩, ⟨0x83, 1, 5, true, false, PMU.fields⟩,
   ⟨0x88, 1, 7, true, true, SVY.fields⟩, ⟨0x89, 1, 5, true, false, TRI.fields⟩,
   ⟨0x90, 1, 11, true, false, CLR.fields⟩, ⟨0x98, 1, 15, true, true, SAF.fields⟩,
   ⟨0x99, 1, 7, true, false, SEM.fields⟩, ⟨0xA0, 1, 7, true, true, SEC.fields⟩,
   ⟨0xA8, 4, 4, true, false, ETH.fields⟩, ⟨0xB0, 1, 7, true, false, HIF.fields⟩,
   ⟨0xB1, 1, 5, false, false, EVT.fields⟩, ⟨0xB2, 1, 2, false, false, AUX.fields⟩]

/-- The block that a page belongs to. -/
def blockOf (page : Nat) : Option BlockInfo :=
  blocks.find? fun b => decide (b.first ≤ page ∧ page < b.first + b.count)

/-- The home islands of a page (R677): none for a block without one. -/
def homeIslands (cell : Bool) (page : Nat) : List Nat :=
  if page = 0x08 then [1]
  else if page = 0x09 ∨ page = 0x0A then [32]
  else if 0x10 ≤ page ∧ page < 0x40 then [7 + (page - 0x10) / 4]
  else if page = 0x40 then (if cell then [7] else (List.range 12).map (· + 7))
  else if page = 0x41 then [18]
  else if 0x48 ≤ page ∧ page < 0x55 then [6]
  else if page = 0x58 then [5]
  else if page = 0x59 then [4]
  else if page = 0x60 ∨ page = 0x61 then [25]
  else if 0x68 ≤ page ∧ page < 0x80 then [31]
  else if page = 0x80 then [19]
  else if page = 0x81 then [20]
  else if page = 0x82 ∨ page = 0x83 then [32]
  else if page = 0x88 then (if cell then [20] else [30])
  else if page = 0x89 then [30]
  else if page = 0x98 ∨ page = 0x99 then [2]
  else if page = 0xA0 then [3]
  else if 0xA8 ≤ page ∧ page < 0xAC then [32]
  else if 0xB0 ≤ page ∧ page < 0xB3 then [33]
  else []

/-- A page that a cell serves by its life state (Table 5-5); a bypassed cell by the state it left (R213). -/
def State.cellServes (s : State) (page : Nat) : Bool :=
  let life := s.rd CEL.STAT_LIFE
  let running := life == 4 || (life == 6 && s.bypassFromRunning)
  if page = 0x00 ∨ page = 0x08 ∨ page = 0x10 ∨ page = 0x11 ∨ page = 0x40 ∨ page = 0x5A ∨ page = 0xA0 then true
  else if page ∈ [0x01, 0x02, 0x03, 0x58, 0x59, 0x80, 0x81, 0x88, 0x98] then running
  else false

/-- The page exists in the device's role: Table 18-4, without the pages of islands that the role leaves unpowered (R3, R620). For the
reserved role the spec says only that the always-on island has power: that pages 0x00 and 0x01 answer then is a DESIGN CHOICE (assumption 166). -/
def State.pagePresent (s : State) (page : Nat) : Bool :=
  (blockOf page).isSome &&
    (if s.isCell then s.cellServes page
     else if s.isHub then page != 0x59
     else page == 0x00 || page == 0x01)

/-- The state of an island, as PWR_ISL reports it: 0 off, 1 retain, 2 active, 3 waiting (R601). -/
def State.isl (s : State) (k : Nat) : Nat := s.rdA PWR.ISL_STATE 0 k

/-- The block's home island is active, or the block needs none (R677). -/
def State.pageActive (s : State) (page : Nat) : Bool :=
  let h := homeIslands s.isCell page
  h.isEmpty || h.contains 2 || h.any fun k => s.isl k == 2

/-- An access or event asks for the home islands of a page (R606). -/
def State.askIsland (s : State) (k : Nat) : State :=
  let s := { s with pwr := { s.pwr with islands := modAt s.pwr.islands k fun i => { i with asked := true, lastUse := s.mer.uptime } } }
  if s.isl k = 1 then s.wrA PWR.ISL_STATE 0 k 3 else s

/-- The islands of a page are used now (R607). -/
def State.useIslands (s : State) (ks : List Nat) : State :=
  { s with pwr := { s.pwr with islands := ks.foldl (fun l k => modAt l k fun i => { i with lastUse := s.mer.uptime }) s.pwr.islands } }

/-- The pages that accept host writes before BOOT_DONE (R640). -/
def earlyPages : List Nat := [0x00, 0x01, 0x02, 0x03, 0xA0, 0xB0, 0xB1, 0xB2]

/-- A host write to a page is accepted at this point of the boot (R640). -/
def State.bootAllows (s : State) (page : Nat) : Bool :=
  s.isCell || s.rd SYS.BOOT_STATE == 4 || earlyPages.contains page

/-- An access is performed, held on the bus, or fails with a code. -/
inductive BusVerdict where
  | perform
  | hold
  | fail (page code : Nat)
  deriving DecidableEq, Repr

/-- What an access to a register meets before it reaches its block: R619, R620, R640, R606, R643, R677. -/
def State.busVerdict (s : State) (page ofs : Nat) (write : Bool) : BusVerdict :=
  if ofs % 4 ≠ 0 then .fail 0xB0 5
  else if !s.pagePresent page then .fail 0xB0 6
  else if write && !s.bootAllows page then .fail page 4
  else if ofs < 0x40 then .perform
  else if s.pwr.resetting.contains page then .hold
  else if s.pageActive page then .perform
  else .hold

/-- An access held on the bus, with the request for its island's grant (R606). -/
def State.hold (s : State) (h : Held) : State :=
  let s := (homeIslands s.isCell h.page).foldl (fun s k => s.askIsland k) s
  { s with pwr := { s.pwr with held := s.pwr.held ++ [h] } }

/-- The pages of the mirrored set (R487). -/
def mirroredPage (page : Nat) : Bool :=
  decide (0x48 ≤ page ∧ page < 0x55) || page == 0x60 || page == 0x61 || decide (0x68 ≤ page ∧ page < 0x78)

/-- Writes of the mirrored set are mirrored now (R485, R487). -/
def State.mirroring (s : State) : Bool := s.onI PG.ENABLE 0x90 && s.rd SYS.STRAP_ROLE == 1 && s.on TWN.CTL_MIRROR_EN

/-- A mirrored write is applied at this hub only: the twin link is lost, or the peer is in OFF, JOINING or FAULTY (R487). -/
def State.mirrorLocal (s : State) : Bool := s.on TWN.STAT_TWIN_LOST || [0, 1, 5].contains (s.rd CLR.PEER_PEER_STATE)

/-- A mirrored write held until its boundary: the next one plus one stride (R487). -/
def State.mirrorWrite (s : State) (m : Mirror) : State :=
  let m := { m with b := (s.mer.seq + 2) % 2 ^ 32, unit := s.rd SYS.STRAP_UNIT }
  if s.mirrorLocal then { s.inc TWN.CNT3_MIRROR_LOCAL with pair := { s.pair with mirrors := s.pair.mirrors ++ [m] } }
  else if s.pair.sent < 32 ∧ s.pair.waiting = [] then
    { s with pair := { s.pair with mirrors := s.pair.mirrors ++ [m], sent := s.pair.sent + 1 } }
  else { s.inc TWN.CNT3_MIRROR_WAIT with pair := { s.pair with waiting := s.pair.waiting ++ [m] } }

/-- A write that has reached its block: held for its boundary in a pair that mirrors, or given its effect. -/
def State.present (s : State) (page ofs value : Nat) (eff : State → State) : State :=
  if s.mirroring && mirroredPage page then s.mirrorWrite { b := 0, page := page, bar2 := false, ofs := ofs, data := leBytes 4 value, unit := 0 }
  else eff s

/-- A host write whose effect on the block is `eff`: discarded with a code, held, mirrored, or performed. -/
def State.busWrite (s : State) (page ofs value : Nat) (eff : State → State) : State :=
  match s.busVerdict page ofs true with
  | .perform => (s.useIslands (homeIslands s.isCell page)).present page ofs value eff
  | .hold => s.hold ⟨page, ofs, value, true, if s.isCell then 2 else 0⟩
  | .fail p c => s.accessErr p ofs c

/-- A host read whose effect on the block is `eff`: discarded with a code, held, or performed. -/
def State.busRead (s : State) (page ofs : Nat) (eff : State → State) : State :=
  match s.busVerdict page ofs false with
  | .perform => eff (s.useIslands (homeIslands s.isCell page))
  | .hold => s.hold ⟨page, ofs, 0, false, if s.isCell then 2 else 0⟩
  | .fail p c => (s.accessErr p ofs c).emit (.readData page ofs 0)

/-- The fields of a page's block, and the position in each one's array, at a word offset. -/
def fieldsAt (page ofs : Nat) : List (RegField × Nat) :=
  match blockOf page with
  | none => []
  | some b => b.fields.filterMap fun f =>
    if f.cnt = 1 then (if f.ofs = ofs then some (f, 0) else none)
    else if f.ofs ≤ ofs ∧ (ofs - f.ofs) % f.stride = 0 ∧ (ofs - f.ofs) / f.stride < f.cnt then
      some (f, (ofs - f.ofs) / f.stride)
    else none

/-- The word that the stored fields at an offset make; a write-only field is 0. -/
def State.rawWord (s : State) (page ofs : Nat) : Nat :=
  (fieldsAt page ofs).foldl (fun w fi => w + s.rdA fi.1 (page - fi.1.page) fi.2 * 2 ^ fi.1.lo) 0

/-- A host write of a register that sets the bits given, its other fields written as they are. -/
def State.actWrite (s : State) (page ofs bits : Nat) (eff : State → State) : State :=
  s.busWrite page ofs (s.rawWord page ofs ||| bits) eff

/-- The device answers commands: it is not held in power-on reset, and no dormant request is in force (R598, R611). -/
def State.awake (s : State) : Bool := !s.por && !s.pwr.dormant.isSome

/-- What follows a state, with the straps, the fuses and the queue as they were: straps are sampled at the release of power-on reset only
(R1), and fuses are burned by the security island only (R551, R554). -/
def State.keep (s t : State) : State := { t with straps := s.straps, fuses := s.fuses, pending := s.pending }

/-- What follows a state, with the straps and the queue as they were. -/
def State.keepStraps (s t : State) : State := { t with straps := s.straps, pending := s.pending }

/-- A command on a device that is held in power-on reset or dormant changes nothing; else it has its effect. -/
def State.live (s : State) (eff : State → State) : Host.Outcome State Fault Refusal :=
  .next (if s.awake then s.keep (eff s) else s)

/-- A command that can burn fuses. -/
def State.liveBurn (s : State) (eff : State → State) : Host.Outcome State Fault Refusal :=
  .next (if s.awake then s.keepStraps (eff s) else s)

/-- Pair operation is enabled (R485). -/
def State.paired (s : State) : Bool := s.onI PG.ENABLE 0x90 && s.rd SYS.STRAP_ROLE == 1

/-- This hub's unit: 0 A, 1 B. -/
def State.unit (s : State) : Nat := s.rd SYS.STRAP_UNIT

/-- The state of Table 14-4: 0 OFF, 1 JOINING, 2 RESYNC, 3 STANDBY, 4 FLYING, 5 FAULTY. -/
def State.clr (s : State) : Nat := s.rd CLR.STAT_STATE

end Sys2Proof.Machine
end

