-- ==== Sys2Proof/Machine/Start.lean ====
section
/-! DEFINITION. Start sources of the converters (R428 to R430): which selections take a source's events, and the events that wait. -/

namespace Sys2Proof.Machine

/-- Measurement changed. -/
def State.modMeas (s : State) (f : MeasState → MeasState) : State := { s with meas := f s.meas }

/-- A page is enabled and its island runs. -/
def State.pageOn (s : State) (page : Nat) : Bool := s.onI PG.ENABLE page && s.pageActive page

/-- The selection's source field, and whether it takes starts now. -/
def State.selOn (s : State) (k src : Nat) : Bool :=
  if k < 16 then s.pageOn 0x80 && s.bit CNI.CTL_EN k && s.rdA CNI.CH_MODE 0 k == 2 && hits (s.rdA CNI.CH_START_SRC 0 k)
  else s.pageOn 0x81 && s.cnfScan && hits (s.rd CNF.SCAN_START_SRC)
where
  /-- A selected source takes an event of source `src`; 0x0C is the edge event of any channel (Table 12-2). -/
  hits (sel : Nat) : Bool := sel != 0 && (sel == src || (sel == 0x0C && decide (8 ≤ src ∧ src ≤ 11)))

/-- Source `src` of Table 12-2 has its event at Meridian instant `t`: it waits for the selections that take it. -/
def State.noteEvent (s : State) (src t : Nat) : State :=
  let ks := (List.range 17).filter fun k => s.selOn k src
  if ks.isEmpty then s else s.modMeas fun m => { m with events := m.events ++ [(t, ks)] }

end Sys2Proof.Machine
end

