-- ==== Sys2Proof/Machine/Store.lean ====
section
/-! DEFINITION. What a written word stores, field by field (R11, Table 0-4, R5, R13, R642, R645), with the limits that the register tables
give their fields. -/

namespace Sys2Proof.Machine

/-- Fields stored at the nearer of two limits. -/
def fieldLimits : List (RegField × Nat × Nat) :=
  [(MER.PPS_CTL_OUT_W, 1, 255), (PTP.QUAL_AUTH_MAX, 1, 15), (BNT.RETRAIN_BUDGET, 1, 255), (BNC.CTL_SILENT_N, 1, 255),
   (BNC.CTL_PEN_TMO, 1, 255), (CTG.CTL_STOP_MODE, 1, 3), (CTG.DWELL_MIN_ON, 50, 65535), (CTG.DWELL_MIN_OFF, 50, 65535), (CEL.TIMING_LA, 1, 3),
   (CEL.CAP_END_WIN, 8, 255), (CEL.OV2_N, 1, 15), (CEL.ORPHAN_TMO_MS, 1, 1000), (CEL.BOOT_WAIT_S, 1, 255),
   (CEL.HB_BPT_W, 1, 40), (CEL.HB_BPT_HOLD, 1, 255), (EDG.DEAD, 20, 2000), (EDG.LC_PER, 100, 65535), (EDG.TRIP_FILT, 0, 100),
   (EDG.TRIP_FILT_N, 1, 15), (GDR.DSAT_BLANK, 10, 255), (GDR.DSAT_I_SOFT, 1, 20), (GDR.FLT_REFRESH, 1, 255)]
  ++ [(GDR.FLT_T_START, 1, 255), (GDR.BS_T_REFILL, 1, 32767), (GDR.GL_ON_I_WEAK, 1, 20), (GDR.GL_OFF_I_WEAK, 1, 20),
   (GDR.GL_ON_T_MILLER, 1, 65535), (GDR.GL_OFF_T_MILLER, 1, 65535), (AXS.WRAP_W, 2, 2 ^ 31), (FBK.SSI_DIV, 9, 255),
   (FBK.SSI_VEL_N, 1, 7), (FBK.SSI_T_ACK_TMO, 1, 15), (FBK.STALE_T_STALE, 1, 65535), (FBK.VEL_WIN, 1, 4095),
   (FBK.VEL_T_ZERO, 1, 65535), (FBK.VEL_DIR_HYST, 1, 15), (CNI.CH_DIV, 1, 64), (CNF.SCAN_SCAN_N, 1, 255), (CNF.CAL_PERIOD, 1, 65535),
   (CNF.CH_WIN, 8, 255), (SVS.TOL_REQUAL, 1, 255), (SVS.S_NASDU, 1, 8), (SVS.S_NCH, 1, 8), (TRI.DET_SPAN, 1, 63)]
  ++ [(TWN.CTL_LOSS_N, 1, 255), (TWN.XS_N, 0, 64), (CLR.CFG_LEASE, 2, 16), (CLR.CFG_HOLDOFF, 1, 255), (CLR.CFG_DRILL_H, 0, 168),
   (CLR.CFG_T_ALONE, 1, 255), (CLR.VERD_WIN_BACK, 0, 48), (SAF.SPB_MODE, 1, 3), (SAF.SPB_RST_SRC, 0, 16), (SAF.DEGR_T_DEGR, 1, 600),
   (SAF.SI_DISC, 1, 255), (SAF.TPO_TP_W, 5, 20), (SAF.TPO_PERIOD, 1, 255), (SAF.SM_SPD_N, 1, 63), (SEM.CONN_WDOG, 2, 100),
   (SEC.RING_REKEY_LOG, 16, 30), (SEC.RING_SUSPECT_N, 1, 255), (PWR.IDLE, 1, 65535), (SUP.FILT, 1, 255)]

/-- Fields of which one or more values are stored as another: the field, the least such value, and the value stored. -/
def fieldFolds : List (RegField × Nat × Nat) :=
  [(FBK.CFG_QMODE, 3, 0), (AXS.CMP_DIR, 3, 0), (CNI.CH_MODE, 3, 0), (TRI.DET_MODE, 3, 0), (CLR.CFG_PREF, 3, 0), (SAF.SO_SRC, 5, 0)]

/-- The override field with each 0b11 replaced by 0b00 (EDG_OVR). -/
def storedOvr (v : Nat) : Nat :=
  (List.range 4).foldl (fun a c => if bitsOf v (2 * c) 2 = 3 then putBits a (2 * c) 2 0 else a) v

/-- The reporting rates of R453, at 60 Hz or at 50 Hz. -/
def pmuRates (f60 : Bool) : List Nat := if f60 then [10, 12, 15, 20, 30, 60, 120] else [10, 25, 50, 100]

/-- A start source of Table 12-2 that is not reserved. -/
def startCode (v : Nat) : Bool := v == 1 || decide (4 ≤ v ∧ v ≤ 0x0C) || decide (0x20 ≤ v ∧ v < 0x50)

/-- The value that a field stores for a written value (R5 and the register tables). -/
def storedValue (f : RegField) (v : Nat) : Nat :=
  let v := v % 2 ^ f.width
  match fieldLimits.find? fun l => l.1 == f with
  | some l => clampNat l.2.1 l.2.2 v
  | none =>
    match fieldFolds.find? fun l => l.1 == f with
    | some l => if l.2.1 ≤ v then l.2.2 else v
    | none =>
      if f = MER.SLEW_SLEW_PPM then (if v = 0 ∨ 200 < v then 200 else v)
      else if f = EDG.OVR then storedOvr v
      else if f = AXS.GEAR_DEN then (if v = 0 ∨ 2 ^ 31 ≤ v then 1 else v)
      else if f = CNI.CH_START_SRC ∨ f = CNF.SCAN_START_SRC then (if startCode v then v else 0)
      else if f = PMU.CTL_VERSION then (if v = 0 ∨ v = 3 then 2 else v)
      else v

/-- One field of a written word stored by its type (Table 0-4); a locked RWL field keeps its value. -/
def State.storeField (s : State) (page idx : Nat) (f : RegField) (v : Nat) : State :=
  let pg := page - f.page
  match f.ty with
  | .rw => s.wrA f pg idx (storedValue f v)
  | .rwl => if s.onI PG.LOCKED page then s else s.wrA f pg idx (storedValue f v)
  | .w1c => s.wrA f pg idx (s.rdA f pg idx &&& (2 ^ f.width - 1 - v % 2 ^ f.width))
  | .w1s => s.wrA f pg idx (s.rdA f pg idx ||| v % 2 ^ f.width)
  | _ => s

/-- The bits of a word that its fields take. -/
def fieldBits (fs : List (RegField × Nat)) : Nat := fs.foldl (fun m f => m ||| (2 ^ f.1.width - 1) * 2 ^ f.1.lo) 0

/-- The codes of R645 that a write of a word records, lowest first: a set reserved bit, a register of RO fields only, a locked RWL field. -/
def State.wordErrors (s : State) (page ofs value : Nat) : List Nat :=
  let fs := fieldsAt page ofs
  let mask := fieldBits fs
  (if value % 2 ^ 32 &&& (2 ^ 32 - 1 - mask % 2 ^ 32) = 0 then [] else [1])
    ++ (if !fs.isEmpty && fs.all (fun f => f.1.ty == .ro || f.1.ty == .rc) then [2] else [])
    ++ (if s.onI PG.LOCKED page && fs.any (fun f => f.1.ty == .rwl) then [3] else [])

/-- The failures of a write recorded in PG_ERR (R645). -/
def State.noteErrors (s : State) (page ofs value : Nat) : State :=
  (s.wordErrors page ofs value).foldl (fun s c => s.accessErr page ofs c) s

/-- A word stored in its fields, without what the block does on the write. -/
def State.storeWord (s : State) (page ofs value : Nat) : State :=
  (fieldsAt page ofs).foldl (fun t f => t.storeField page f.2 f.1 (value / 2 ^ f.1.lo)) (s.noteErrors page ofs value)

end Sys2Proof.Machine
end

