-- ==== Sys2Proof/Machine/Axis.lean ====
section
/-! DEFINITION. Axes: Bearing and unwrapped position (R363 to R368), latches (R413 to R415), compares (R416, R417) and the Datum (R410, R411). -/

namespace Sys2Proof.Machine

/-- An axis. -/
def State.axis (s : State) (a : Nat) : AxisState := s.axes.getD a emptyAxis

/-- An axis changed. -/
def State.modAxis (s : State) (a : Nat) (f : AxisState → AxisState) : State := { s with axes := modAt s.axes a f }

/-- The page of an axis. -/
def axisPage (a : Nat) : Nat := 0x68 + a

/-- KIND of an axis whose page is enabled: 0 off, 1 mechanical, 2 electrical, 3 set-point (Table 10-1). -/
def State.kind (s : State) (a : Nat) : Nat := if s.onI PG.ENABLE (axisPage a) then s.rdI AXS.CFG_KIND a else 0

/-- The number of positions that a Bearing takes: W on a wrapping axis and on an electrical axis, else 2³² (R364, R365). -/
def State.axisMod (s : State) (a : Nat) : Nat :=
  if s.onI AXS.CFG_WRAP_EN a || s.rdI AXS.CFG_KIND a == 2 then max 2 (s.rdI AXS.WRAP_W a) else 2 ^ 32

/-- A time in 2⁻¹⁶ ns as a number of seconds. -/
def secsOf (d : Int) : Num := numRat d (65536 * 1000000000)

/-- The stride as a number of seconds. -/
def State.strideSecs (s : State) : Num := secsOf s.strideT

/-- The speed of an axis as measured at the last boundary (R419, R420). -/
def State.speed (s : State) (a : Nat) : Num := num32 (s.rdI AXS.VEL_MEAS_V a)

/-- The direction flag of an axis, 1 negative (R367, R418). -/
def State.dirNeg (s : State) (a : Nat) : Bool :=
  if s.rdI AXS.CFG_KIND a = 2 then s.onI AXS.STAT_DIR a else s.onI AXS.VEL_STAT_DIR a

/-- The Bearing given a value. -/
def State.setBear (s : State) (a b : Nat) : State := (s.modAxis a fun x => { x with bear := b }).wrI AXS.BEARING a b

/-- Bearing and unwrapped position changed by the same amount (R364, R401). -/
def State.moveAxis (s : State) (a : Nat) (d : Int) : State :=
  let b := (((s.axis a).bear : Int) + d) % (s.axisMod a : Int)
  (s.modAxis a fun x => { x with unw := x.unw + d }).setBear a b.toNat

/-! Latches. -/

/-- The head of the FIFO shown in AXS_LT_POP, and its depth in AXS_LT_STAT. -/
def State.showFifo (s : State) (a : Nat) : State :=
  let f := (s.axis a).fifo
  (List.range 4).foldl (fun s i => s.wrA AXS.LT_POP_ENTRY a i (leAt (f.headD []) (4 * i) 4)) (s.wrI AXS.LT_STAT_COUNT a f.length)

/-- A latch entry (Table 11-2). -/
def latchEntry (bear t src : Nat) (neg lost est passed : Bool) (datum epoch : Nat) : Bytes :=
  leBytes 4 bear ++ leBytes 8 (nsOf t) ++ leBytes 1 (t % ns / 16384 * 64) ++ leBytes 1 src
    ++ leBytes 1 (ofBool neg + 2 * ofBool lost + 4 * ofBool est + 8 * ofBool passed + 16 * datum) ++ leBytes 1 epoch

/-- A latch event (R413, R415): stored, or lost when the FIFO is full. -/
def State.storeLatch (s : State) (a src bear t : Nat) (est passed : Bool) : State :=
  let x := s.axis a
  if x.fifo.length < 16 then
    let e := latchEntry bear t src (s.dirNeg a) x.lostMark est passed (s.rdI AXS.DATUM_CTL_DATUM_CNT a) (s.rd MER.STAT_EPOCH)
    ((s.modAxis a fun x => { x with fifo := x.fifo ++ [e], lostMark := false }).showFifo a).raise (axisPage a) 15
  else
    (((s.modAxis a fun x => { x with lostMark := true }).wrI AXS.LT_STAT_OVF a 1).incI AXS.LT_STAT_LT_LOST a).raise (axisPage a) 16

/-- The head entry removed. -/
def State.latchPop (s : State) (a : Nat) : State := (s.modAxis a fun x => { x with fifo := x.fifo.drop 1 }).showFifo a

/-! Compares. -/

/-- The axis moves (Table 11-3): its speed is not 0, or an edge has set its direction within T_ZERO. -/
def State.moving (s : State) (a : Nat) : Bool :=
  !(s.speed a).isZero
    || (s.rdI AXS.CFG_KIND a == 1
      && (match (s.axis a).lastEdge with
        | none => false
        | some t => decide (s.mer.mer < t + s.rdI FBK.VEL_T_ZERO (s.rdI AXS.CFG_FBK a) * 10 * us)))

/-- The direction of travel at a compare's write is negative. -/
def State.travelNeg (s : State) (a : Nat) : Bool := if (s.speed a).isZero then s.dirNeg a else (s.speed a).isNeg

/-- Position P lies ahead in the direction of travel: within the present revolution on a wrapping axis. -/
def State.cmpAhead (s : State) (a c : Nat) : Bool :=
  let m := s.axisMod a
  let p : Int := if m = 2 ^ 32 then sext 32 (s.rdA AXS.CMP_P a c) else s.rdA AXS.CMP_P a c
  let b : Int := if m = 2 ^ 32 then sext 32 (s.axis a).bear else (s.axis a).bear
  if s.travelNeg a then decide (p < b) else decide (b < p)

/-- A compare armed against the present position, without PASSED_FIRES (R417). -/
def State.armEval (s : State) (a c : Nat) : State :=
  let behind := s.moving a && !s.cmpAhead a c
  ((s.wrA AXS.CMP_ARMED a c 1).wrA AXS.CMP_BEHIND a c (ofBool behind)).raiseIf behind (axisPage a) 19

/-- A compare fires at instant `t` (R416, Table 12-2): reported, a start source's event, latched, and disarmed or armed again at P + STEP. -/
def State.fireCmp (s : State) (a c t bear : Nat) (est passed : Bool) : State :=
  let s := ((s.wrA AXS.CMP_FIRED a c 1).raise (axisPage a) (17 + c)).noteEvent (0x20 + 2 * a + c) t
  let s := if s.onA AXS.CMP_LATCH a c then s.storeLatch a (4 + c) bear t est passed else s
  let step := sext 32 (s.rdA AXS.CMP_STEP a c)
  if step = 0 then (s.wrA AXS.CMP_ARMED a c 0).wrA AXS.CMP_BEHIND a c 0
  else
    let p := ((s.rdA AXS.CMP_P a c : Int) + step) % (s.axisMod a : Int)
    (s.wrA AXS.CMP_P a c p.toNat).armEval a c

/-- CTL.DIR lets a compare fire in this direction. -/
def State.cmpDirOk (s : State) (a c : Nat) (neg : Bool) : Bool :=
  let d := s.rdA AXS.CMP_DIR a c
  !(d == 1 && neg) && !(d == 2 && !neg)

/-- A write of CTL.ARM (R417). -/
def State.armCmp (s : State) (a c : Nat) : State :=
  if s.moving a && !s.cmpAhead a c && s.onA AXS.CMP_PASSED_FIRES a c then s.fireCmp a c s.mer.mer (s.axis a).bear false true
  else s.armEval a c

/-- The armed compares evaluated at a counting event. -/
def State.cmpAtCount (s : State) (a t : Nat) (neg : Bool) : State :=
  (List.range 2).foldl (fun s c =>
    if s.onA AXS.CMP_ARMED a c && s.cmpDirOk a c neg && s.rdA AXS.CMP_P a c == (s.axis a).bear then
      s.fireCmp a c t (s.axis a).bear false false
    else s) s

/-- How far into a move of `d` counts from Bearing `b` the position reaches or passes `p`, on a circle of `m`. -/
def crossing (b p m : Nat) (d : Int) : Option Nat :=
  if d = 0 then none
  else
    let gap := if 0 < d then ((p : Int) - b) % m else ((b : Int) - p) % m
    let gap := if gap = 0 then (m : Int) else gap
    if gap ≤ d.natAbs then some gap.toNat else none

/-- The armed compares evaluated over a move of the position from Bearing `b` by `d` counts between two instants (R416): a firing carries an
interpolated timestamp. -/
def State.cmpOver (s : State) (a b : Nat) (d : Int) (t0 t1 : Nat) : State :=
  (List.range 2).foldl (fun s c =>
    match crossing b (s.rdA AXS.CMP_P a c % s.axisMod a) (s.axisMod a) d with
    | none => s
    | some g =>
      if s.onA AXS.CMP_ARMED a c && s.cmpDirOk a c (decide (d < 0)) then
        s.fireCmp a c (t0 + (t1 - t0) * g / d.natAbs) (s.rdA AXS.CMP_P a c) true false
      else s) s

/-! Electrical axes. -/

/-- The count that the PLL's angle gives at an instant (R365): floor(W × θₓ / 2π). -/
def State.angleCount (s : State) (a : Nat) (p : PllDrive) (t : Nat) : Int :=
  let th := add64 (num64 p.theta) (mul64 (num32 p.omega) (secsOf ((t : Int) - p.tb)))
  (div64 (mul64 (numNat (s.rdI AXS.WRAP_W a)) th) twoPi).floor

/-- The source of an electrical axis with ESRC 0 is valid (R368): the last run of its PLL was in this or the previous stride and gave θ. -/
def State.driveOk (s : State) (a : Nat) : Bool :=
  match (s.axis a).drive with
  | none => false
  | some p => p.ok && (p.seq == s.mer.seq || (p.seq + 1) % 2 ^ 32 == s.mer.seq)

/-- ACT_POS of an axis is written with VALID 1 (Table 10-2, R368); for an electrical axis on the gear law, its master's. -/
def State.actValid (s : State) (a : Nat) : Bool :=
  let one := fun (b : Nat) => (match s.kind b with
    | 1 => decide (s.rdI AXS.STAT_FBL b < 2)
    | 2 => s.driveOk b
    | _ => false)
  if s.kind a = 2 ∧ s.onI AXS.CFG_ESRC a then
    let m := s.rdI AXS.GEAR_MASTER a
    if s.kind m = 2 ∧ s.onI AXS.CFG_ESRC m then one (s.rdI AXS.GEAR_MASTER m) else one m
  else one a

/-- OFS + m × NUM / DEN in binary64 (R385). -/
def State.gearLaw (s : State) (a : Nat) (m : Num) : Num :=
  add64 (num64 (s.rdI AXS.GEAR_OFS_OFS_LO a + 2 ^ 32 * s.rdI AXS.GEAR_OFS_OFS_HI a))
    (div64 (mul64 m (numInt (sext 32 (s.rdI AXS.GEAR_NUM a)))) (numNat (s.rdI AXS.GEAR_DEN a)))

/-- A velocity × NUM / DEN (R385). -/
def State.gearSpeed (s : State) (a : Nat) (v : Num) : Num :=
  div64 (mul64 v (numInt (sext 32 (s.rdI AXS.GEAR_NUM a)))) (numNat (s.rdI AXS.GEAR_DEN a))

/-- A PLL-driven axis's position at an instant, with its compares. -/
def State.evalPll (s : State) (a t : Nat) : State :=
  match (s.axis a).drive with
  | none => s
  | some p =>
    let x := s.axis a
    let r := s.angleCount a p t
    let d := r - x.raw
    let s := (s.modAxis a fun x => { x with raw := r, evalAt := t }).moveAxis a d
    s.cmpOver a x.bear d x.evalAt t

/-- An axis on the gear law (R366): from its master's unwrapped position while that is valid, else on at the law's last velocity. -/
def State.evalLaw (s : State) (a t : Nat) : State :=
  let x := s.axis a
  let m := s.rdI AXS.GEAR_MASTER a
  let ok := s.actValid a
  let v := if ok then s.gearSpeed a (s.speed m) else num64 x.lawV
  let law := if ok then s.gearLaw a (numInt (s.axis m).unw) else add64 (num64 x.estX) (mul64 v (secsOf ((t : Int) - x.evalAt)))
  let d := law.floor - x.unw
  let b := x.bear
  let s := s.modAxis a fun x => { x with estX := bits64 law, lawV := bits64 v, evalAt := t, unw := law.floor }
  (s.setBear a (law.floor % (s.axisMod a : Int)).toNat).cmpOver a b d x.evalAt t

/-- An electrical axis's position brought to an instant: a gear law's master first. -/
def State.evalAxis (s : State) (a t : Nat) : State :=
  if s.kind a = 2 ∧ (s.axis a).evalAt ≤ t then
    if s.onI AXS.CFG_ESRC a then
      let m := s.rdI AXS.GEAR_MASTER a
      let s := if s.kind m = 2 && !s.onI AXS.CFG_ESRC m && decide ((s.axis m).evalAt ≤ t) then s.evalPll m t else s
      s.evalLaw a t
    else s.evalPll a t
  else s

/-- The direction flag of an electrical axis (R367). -/
def State.elecDir (s : State) (a : Nat) (neg : Bool) : State :=
  (s.raiseIf (s.onI AXS.STAT_DIR a != neg) (axisPage a) 13).wrI AXS.STAT_DIR a (ofBool neg)

/-- A PLL completes that names an axis (R349, R365): it drives an electrical axis with ESRC 0; of any other, the axis's page records the
attempt once per activation of the Chart. -/
def State.driveAxis (s : State) (a theta omega : Nat) (ok : Bool) : State :=
  if s.kind a = 2 ∧ !s.onI AXS.CFG_ESRC a then
    let t := s.mer.mer
    let s := s.evalAxis a t
    let p : PllDrive := { theta := theta, omega := omega, tb := s.mer.lastS, ok := ok, seq := s.mer.seq }
    let m : Int := s.axisMod a
    let r := s.angleCount a p t
    let up := (r - (s.axis a).bear) % m
    let d := if 2 * up ≤ m then up else up - m
    let b := (s.axis a).bear
    let s := (s.modAxis a fun x => { x with drive := some p, raw := r, evalAt := t }).moveAxis a d
    let s := s.cmpOver a b d t t
    (s.wrI AXS.VEL_MEAS_V a omega).elecDir a (num32 omega).isNeg
  else if s.graph.axisErr.contains a then s
  else { s.accessErr (axisPage a) 0x040 4 with graph := { s.graph with axisErr := a :: s.graph.axisErr } }

/-! Datum. -/

/-- A binary64 bit pattern moved by a whole number. -/
def shiftBits (d : Int) (b : Nat) : Nat := bits64 (add64 (num64 b) (numInt d))

/-- A pending target renamed by a Datum event (R410). -/
def shiftMove (d : Int) (m : Move) : Move := if m.mode = 0 then { m with target := shiftBits d m.target } else m

/-- A goal renamed by a Datum event. -/
def shiftGoal (d : Int) : AxGoal → AxGoal
  | .target x m => .target (shiftBits d x) (shiftMove d m)
  | .coord g x0 k v => .coord g (shiftBits d x0) k v
  | g => g

/-- The counters of the monitors of an axis renamed with it (R539). -/
def State.renameMons (s : State) (a : Nat) (d : Int) : State :=
  let new := (List.range 4).map fun m =>
    let x := s.saf.mons.getD m { hist := [0], ext := 0, apart := false, clear := 4, fbClear := 4 }
    if s.rdA SAF.SM_AXIS 0 m = a then { x with hist := x.hist.map (· + d), ext := x.ext + d } else x
  { s with saf := { s.saf with mons := new } }

/-- A Datum event (R410, R411): the positions of the axis take new names. -/
def State.datumSet (s : State) (a : Nat) : State :=
  let s := s.evalAxis a s.mer.mer
  let v := s.rdI AXS.DATUM_VALUE a
  let d : Int := (v : Int) - (s.axis a).bear
  let s := (s.modAxis a fun x =>
    { x with
      unw := x.unw + d, x := shiftBits d x.x, pubX := shiftBits d x.pubX, goal := shiftGoal d x.goal, extreme := x.extreme + d
      queue := x.queue.map (shiftMove d), held := x.held.map (shiftMove d), estX := shiftBits d x.estX }).setBear a v
  let s := s.renameMons a d
  let s := (s.wrI AXS.DATUM_CTL_PENDING a 0).wrI AXS.DATUM_CTL_VALID a 1
  let s := (s.wrI AXS.DATUM_CTL_DATUM_CNT a (s.rdI AXS.DATUM_CTL_DATUM_CNT a + 1)).raise (axisPage a) 20
  (List.range 2).foldl (fun s c => if s.onA AXS.CMP_ARMED a c && s.moving a && !s.cmpAhead a c then s.armCmp a c else s) s

end Sys2Proof.Machine
end

