-- ==== Sys2Proof/Machine/Line.lean ====
section
/-! DEFINITION. A hoist on the line (R90, R92): the 64b/66b blocks with the scrambler of IEEE 802.3 Clause 49, or the symbols of a
generation-1 port, and the sending of a hoist. -/

namespace Sys2Proof.Machine

/-- One bit through the scrambler x⁵⁸ + x³⁹ + 1: the bits sent before, the last in bit 0, and the bit sent (R90). -/
def scrambleBit (st b : Nat) : Nat × Nat :=
  let o := (b + bitsOf st 38 1 + bitsOf st 57 1) % 2
  ((2 * st + o) % 2 ^ 58, o)

/-- 64 bits through the scrambler, bit 0 first. -/
def scrambleWord (st w : Nat) : Nat × Nat :=
  (List.range 64).foldl (fun a i => let x := scrambleBit a.1 (bitsOf w i 1); (x.1, a.2 + x.2 * 2 ^ i)) (st, 0)

/-- Blocks of 66 bits: the sync header, 1 for control and 2 for data, below the scrambled payload (Clause 49). -/
def scrambleBlocks : Nat → List (Nat × Nat) → List Nat
  | _, [] => []
  | st, (sync, w) :: rest =>
    let x := scrambleWord st w
    (sync + 4 * x.2) :: scrambleBlocks x.1 rest

/-- The payload of the start block, type 0x1E, with its start code: 0x5B of a hoist, 0x5C of a twin frame (R92, R489). -/
def startBlock (code : Nat) : Nat := ofLe (leBytes 1 0x1E ++ leBytes 1 code ++ sliceBytes (Config.delimFill 0) 0 6)

/-- The payload of the end block, type 0x87 (R92). -/
def endBlock : Nat := ofLe (leBytes 1 0x87 ++ sliceBytes (Config.delimFill 1) 0 7)

/-- The bytes of a hoist as data payloads, 8 bytes each (R92). -/
def dataBlocks (data : Bytes) : List Nat := (List.range ((data.length + 7) / 8)).map fun i => leAt data (8 * i) 8

/-- What stands on the line of a port for a hoist, or on a lane of the twin link, numbered 48 and 49, for a frame (R90, R92, R489). -/
def lineBlocks (legacy : Bool) (code port launch : Nat) (data : Bytes) : List Nat :=
  if legacy then Config.code8b10b port launch data
  else scrambleBlocks (Config.lineSeed port launch) ([(1, startBlock code)] ++ (dataBlocks data).map (fun w => (2, w)) ++ [(1, endBlock)])

/-- A line with its polarity inverted (BNT_SERDES.TX_POL_INV). -/
def invertBlocks (legacy : Bool) (bs : List Nat) : List Nat := bs.map fun b => 2 ^ (if legacy then 10 else 66) - 1 - b

/-- A hoist sent on a port: its first header bit leaves the balls at `launch` (R91, R92). -/
def State.sendHoist (s : State) (legacy : Bool) (port launch : Nat) (data : Bytes) : State :=
  let b := lineBlocks legacy 0x5B port launch data
  (s.emit (.line port launch (if s.onI BNT.SERDES_TX_POL_INV port then invertBlocks legacy b else b))).emit (.hoist port launch data)

/-- A twin frame sent on an enabled lane (R488, R489). -/
def State.sendLane (s : State) (lane : Nat) (data : Bytes) : State :=
  let b := lineBlocks false 0x5C (48 + lane) s.mer.mer data
  if bitOf (s.rd TWN.CTL_LANE_EN) lane then
    s.emit (.line (48 + lane) s.mer.mer (if s.on (if lane = 0 then TWN.SERDES_A_TX_POL_INV else TWN.SERDES_B_TX_POL_INV) then invertBlocks false b else b))
  else s

end Sys2Proof.Machine
end

