-- ==== Sys2Proof/Machine/Power.lean ====
section
/-! DEFINITION. Clocks, supplies, the power-budget arbiter and the dormant state (17, R580 to R616), and power-on reset (R598). -/

namespace Sys2Proof.Machine

/-- The number of the four ports of quad `q` whose pages are enabled. -/
def State.quadPorts (s : State) (q : Nat) : Nat :=
  ((List.range 4).filter fun i => s.onI PG.ENABLE (0x10 + 4 * q + i)).length

/-- A lane of the twin link is enabled. -/
def State.twinEnabled (s : State) : Bool := s.onI PG.ENABLE 0x41 && s.on TWN.CTL_LANE_EN

/-- A page of a range is enabled. -/
def State.anyEnabled (s : State) (first count : Nat) : Bool :=
  (List.range count).any fun i => s.onI PG.ENABLE (first + i)

/-- The demand of an island in units of 10 mA (R602, Table 17-4). -/
def State.demand (s : State) (k : Nat) : Nat :=
  if 7 ≤ k ∧ k ≤ 18 then 2 * s.quadPorts (k - 7) + (if k = 18 ∧ s.twinEnabled then 4 else 0)
  else if 20 ≤ k ∧ k ≤ 23 then 8
  else if 26 ≤ k ∧ k ≤ 29 then 120
  else match k with
    | 1 => 4 | 3 => 8 | 4 => 4 | 5 => 5 | 6 => 90 | 19 => 6 | 24 => 6 | 25 => 25
    | 30 => 30 | 31 => 15 | 32 => 20 | 33 => 40 | _ => 0

/-- The island's floor stands (R603, Table 17-4). -/
def State.floorOn (s : State) (k : Nat) : Bool :=
  if 7 ≤ k ∧ k ≤ 18 then s.quadPorts (k - 7) != 0 || (k == 18 && s.twinEnabled)
  else match k with
    | 1 => true
    | 4 => s.isCell
    | 6 => s.onI PG.ENABLE 0x48
    | 19 => s.on CNI.CTL_EN && (poweredIslands (s.rd SYS.STRAP_ROLE)).contains 19
    | _ => false

/-- The condition under which the island keeps its grant holds (Table 17-4). -/
def State.keeps (s : State) (k : Nat) : Bool :=
  s.floorOn k ||
    (if 20 ≤ k ∧ k ≤ 23 then bitsOf (s.rd CNF.CTL_EN) (2 * (k - 20)) 2 != 0
     else if 26 ≤ k ∧ k ≤ 29 then s.on GRF.CTL_RUN
     else match k with
      | 3 => s.on SEC.STAT_BUSY || !s.security.ops.isEmpty
      | 5 => true
      | 24 => s.on CNF.CTL_EN
      | 25 => s.on GRF.CTL_RUN || s.rd GRF.STAT_STAGED == 1
      | 30 => s.on SVY.STAT_STATE || s.on TRI.CTL_EN
      | 31 => s.anyEnabled 0x68 24
      | 32 => s.anyEnabled 0xA8 4
      | 33 => s.isHub
      | _ => false)

/-- The sum of the floors and of the grants held, in units of 10 mA (R603). -/
def State.granted (s : State) : Nat :=
  ((List.range 34).filter fun k => s.floorOn k || s.isl k == 2).foldl (fun n k => n + s.demand k) 0

/-- The sum of the floors, in units of 10 mA. -/
def State.floors (s : State) : Nat :=
  ((List.range 34).filter s.floorOn).foldl (fun n k => n + s.demand k) 0

/-- The sum in force is above the budget (R608): the bit is set or cleared, and the event raised once. -/
def State.budgetOver (s : State) : State :=
  let ovr := decide (s.rd PWR.BUDGET < s.granted)
  (s.raiseIf (ovr && !s.on PWR.STAT_BUDGET_OVER) 0x01 2).wrB PWR.STAT_BUDGET_OVER ovr

/-- A change that would start a floor: refused when the new sum exceeds the budget, with code 0x4 in the page written
and FLOOR_REFUSED counted and raised (R604). -/
def State.withFloor (s : State) (page ofs : Nat) (change : State → State) : State :=
  let t := change s
  if s.granted < t.granted ∧ s.floors < t.floors ∧ s.rd PWR.BUDGET < t.granted then
    ((s.accessErr page ofs 4).inc PWR.CNT_FLOOR_REFUSED).raise 0x01 1
  else t

/-- An island's request fits: its demand, unless its floor already reserves it, is within the free budget. -/
def State.fits (s : State) (k : Nat) : Bool :=
  decide (s.granted + (if s.floorOn k then 0 else s.demand k) ≤ s.rd PWR.BUDGET)

/-- The islands that a main PLL output feeds (Table 17-2). -/
def outIslands (n : Nat) : List Nat :=
  match n with
  | 0 => [26, 27, 28, 29] | 1 => [25] | 3 => [33] | 4 => [3, 6] | 5 => [20, 21, 22, 23, 24, 30]
  | 6 => [4, 19, 31] | 7 => [32] | _ => []

/-- The outputs that feed an island are enabled. -/
def State.clocked (s : State) (k : Nat) : Bool := (List.range 8).all fun n => !(outIslands n).contains k || s.onA CLK.OUT_EN 0 n

/-- The islands whose request waits: those waiting, and those in RETAIN whose keeping condition holds. An island whose output is disabled cannot be
ACTIVE, which is clocked (R601): its request is not taken. DESIGN CHOICE, unsafe (assumption 178). -/
def State.requests (s : State) : List Nat :=
  (poweredIslands (s.rd SYS.STRAP_ROLE)).filter fun k => s.clocked k && (s.isl k == 3 || (s.isl k == 1 && s.keeps k))

/-- Island `k` granted: ACTIVE, and its request ended. -/
def State.grant (s : State) (k : Nat) : State :=
  let s := (s.wrA PWR.ISL_STATE 0 k 2).wrA PWR.ISL_PRIO 0 k 0
  { s with pwr := { s.pwr with islands := modAt s.pwr.islands k fun i =>
      { i with waited := 0, granted := s.mer.uptime, lastUse := s.mer.uptime, asked := false } } }

/-- One cycle of waiting of a request: BUDGET_WAIT counted, and raised in the first (R605). -/
def State.waitCycle (s : State) (k : Nat) : State :=
  let w := (s.pwr.islands.getD k ⟨0, 0, 0, false⟩).waited
  let s := ((s.wrA PWR.ISL_STATE 0 k 3).inc PWR.CNT_BUDGET_WAIT).raiseIf (w == 0) 0x01 0
  { s with pwr := { s.pwr with islands := modAt s.pwr.islands k fun i => { i with waited := i.waited + 1 } } }

/-- The request that the arbiter grants: the lowest index that fits; with a priority request waiting, none above it (R605). -/
def State.arbiterChoice (s : State) : Option Nat :=
  let rs := s.requests
  let prio := rs.find? fun k => s.onA PWR.ISL_PRIO 0 k
  rs.find? fun k => s.fits k && (match prio with | none => true | some p => decide (k ≤ p))

/-- The main PLL clocks the arbiter: after the first lock its outputs stay enabled (R591). -/
def State.arbiterRuns (s : State) : Bool := s.on CLK.STAT_PLL_LOCK || s.pwr.islands.any fun i => i.granted != 0

/-- One arbiter cycle: the grant, and the waiting of the others. -/
def State.arbiterCycle (s : State) : State :=
  let pick := s.arbiterChoice
  let s := s.requests.foldl (fun s k => if pick = some k then s else s.waitCycle k) s
  let s := match pick with | none => s | some k => s.grant k
  s.budgetOver

/-- The fields of the AO island that outlive power-on reset: the retained scratch and PWR_WAKE (R615). -/
def retainedRegs (regs : List (Nat × Nat)) : List (Nat × Nat) :=
  regs.filter fun c =>
    decide (PWR.SCRATCH_DATA.key 0 0 ≤ c.1 ∧ c.1 < PWR.SCRATCH_DATA.key 0 64)
      || decide (PWR.WAKE_WAKE_EN.key 0 0 ≤ c.1 ∧ c.1 < PWR.WAKE_WAKE_EN.key 0 0 + 32)

/-- A list of fields laid over a register file. -/
def overlayRegs (regs ovr : List (Nat × Nat)) : List (Nat × Nat) :=
  ovr.foldl (fun l c => Sparse.put l c.1 (some c.2)) regs

/-- Power-on reset asserted: every island loses its state, and what is not volatile or not of the device stays. -/
def State.enterPor (s : State) (vddaoLost : Bool) (cause : Nat) : State :=
  let n := State.afterPor s.straps
  { n with
    por := true
    regs := if vddaoLost then n.regs else overlayRegs n.regs (retainedRegs s.regs)
    pwr := { n.pwr with porCause := if vddaoLost then 0 else cause }
    fuses := s.fuses
    out := s.out
    freeCtr := s.freeCtr
    pending := s.pending }

/-- Power-on reset released with the straps at `st`: straps sampled, all state at reset, WAKE_CAUSE and WAKE (R598, R613, R615). -/
def State.leavePor (s : State) (st : Straps) (vddio3v3 : Nat) : State :=
  let n := State.afterPor st
  let n := { n with
    regs := overlayRegs n.regs (retainedRegs s.regs)
    fuses := s.fuses
    out := s.out
    freeCtr := s.freeCtr
    pending := s.pending }
  let n := (n.wr PWR.STAT_WAKE_CAUSE s.pwr.porCause).wr SUP.STAT_VDDIO_3V3 vddio3v3
  n.raiseIf (s.pwr.porCause == 1 || s.pwr.porCause == 2) 0x01 4

/-- POWER_ON_RESET (R598): `vddaoLost` when VDDAO fell below its threshold. A dormant device is in reset already. -/
def execPowerOnReset (vddaoLost : Bool) (s : State) : Host.Outcome State Fault Refusal :=
  .next (s.enterPor vddaoLost (if s.por then s.pwr.porCause else 3))

/-- What the security island reports of the fuses and of its identity (R551, R552, R556, R562). -/
def State.showSec (s : State) : State :=
  let id := if s.on SEC.STAT_ID_OK then Config.sha384 (Config.publicKey s.security.identity) else []
  let s := (s.wrB SEC.STAT_CLAIMED (s.fuses.owner != [])).wr SEC.STAT_SVN_MIN s.fuses.svnMin
  (List.range 12).foldl (fun s i => (s.wrA SEC.ID_HASH 0 i (leAt id (4 * i) 4)).wrA SEC.OWNER_HASH 0 i (leAt s.fuses.owner (4 * i) 4)) s

/-- The entropy source found healthy: a device without an identity enrols and generates its key pair (R550, R551). -/
def State.entropyGood (s : State) : State :=
  let s := { s.wr SEC.STAT_ENTROPY_OK 1 with security := { s.security with entropyBad := false } }
  if s.fuses.identity = [] then
    let k := sliceBytes (Config.random s.freeCtr) 0 48
    ({ s.nextFree with
        fuses := { s.fuses with identity := Config.pufWrap k }
        security := { s.security with identity := k } }.wr SEC.STAT_ID_OK 1).showSec
  else s

/-- The keys in the fuses unwrapped into the secure store (R551, R556): `ok`, whether the PUF gave its key again. -/
def State.unwrapKeys (s : State) (ok : Bool) : State :=
  if s.fuses.identity = [] then s
  else
    match (if ok then Config.pufOpen s.fuses.identity else none) with
    | none => s.wr SEC.STAT_ID_OK 0
    | some k => { s with security := { s.security with identity := k, imageKey := (Config.pufOpen s.fuses.imageKey).getD [] } }.wr SEC.STAT_ID_OK 1

/-- The security island's power-up (R550, R551): the entropy tests, and the identity generated or unwrapped. With the reserved role only the
always-on island has power (Table 0-1). -/
def State.secPowerUp (s : State) (entropyOk unwrapOk : Bool) : State :=
  if s.rd SYS.STRAP_ROLE = 3 then s else
  let s := s.unwrapKeys unwrapOk
  let s := if entropyOk then s.entropyGood
    else ({ s with security := { s.security with entropyBad := true } }).raise 0xA0 1
  s.showSec

/-- POR_RELEASE (R598, R1, R550, R551): the straps, and how the entropy tests and the unwrapping of the identity came out. -/
def execPorRelease (role unit lgcy locksel bootsrc vddio3v3 : Nat) (entropyOk unwrapOk : Bool) (s : State) :
    Host.Outcome State Fault Refusal :=
  .next (if s.por then
    (s.leavePor ⟨role % 4, unit % 2, lgcy % 2, locksel % 2, bootsrc % 4⟩ vddio3v3).secPowerUp entropyOk unwrapOk
  else s)

/-- A write of SYS_RESET: the key resets the device as RST_N low does (R598). -/
def State.sysResetWrite (s : State) (key : Nat) : State :=
  if key = 0x5253 then s.enterPor false 3 else s

/-- SYS_RESET (R598). -/
def execSysReset (key : Nat) (s : State) : Host.Outcome State Fault Refusal :=
  s.live fun s => s.busWrite 0x00 0x050 key fun s => s.sysResetWrite key

/-- PLL_LOCK (R589 to R591): with LOCKSEL 1 the lock is declared 500 µs after the start. -/
def execPllLock (s : State) : Host.Outcome State Fault Refusal :=
  s.live fun s =>
    let s := if s.on CLK.CTL_LOCKSEL then s.advanceUp (500 * us) else s
    let s := if s.rd CLK.LOCK_T_LOCK_US = 0 then s.wr CLK.LOCK_T_LOCK_US (s.mer.uptime / us) else s
    (s.wr CLK.STAT_PLL_LOCK 1).raise 0x02 0

/-- PLL_UNLOCK (R591); with LOCKSEL 1 the PLL reports no loss (R590). -/
def execPllUnlock (s : State) : Host.Outcome State Fault Refusal :=
  s.live fun s =>
    if s.on CLK.STAT_PLL_LOCK && !s.on CLK.CTL_LOCKSEL then
      ((s.wr CLK.STAT_PLL_LOCK 0).inc CLK.CNT_UNLOCKS).raise 0x02 1
    else s

/-- MSYN_LOCK (R592, R50): the Meridian and the uptime counter go on, on the synthesizer. -/
def execMsynLock (s : State) : Host.Outcome State Fault Refusal :=
  s.live fun s => { s.wr CLK.STAT_MSYN_LOCK 1 with pwr := { s.pwr with synthRun := true } }

/-- MSYN_UNLOCK (R592): the control word is held, so the rate stays. -/
def execMsynUnlock (s : State) : Host.Outcome State Fault Refusal :=
  s.live fun s =>
    if s.on CLK.STAT_MSYN_LOCK then
      ((s.wr CLK.STAT_MSYN_LOCK 0).inc CLK.CNT_MSYN_UNLOCKS).raise 0x02 4
    else s

/-- The window of the reference monitor (R581), 10 µs. -/
def refWindow : Nat := 10 * us

/-- The end of the window of length `p` that the uptime lies in. -/
def State.windowEnd (s : State) (p : Nat) : Nat := (s.mer.uptime / p + 1) * p

/-- The windows in a row outside ±1 % of the nominal 250 edges, and those within ±0.1 % (R581), after one of `edges`. -/
def State.refCount (s : State) (edges : Nat) : State :=
  let dev := if edges < 250 then 250 - edges else edges - 250
  let bad := decide (250 < dev * 100)
  let good := decide (dev * 1000 ≤ 250)
  { s with pwr := { s.pwr with
    refBad := if bad then s.pwr.refBad + 1 else 0
    refGood := if good then s.pwr.refGood + 1 else 0 } }

/-- REF_MONITOR_WINDOW (R581): `edges` REFCLK edges in the 10 µs window that ends next. -/
def execRefMonitorWindow (edges : Nat) (s : State) : Host.Outcome State Fault Refusal :=
  s.live fun s =>
    let s := (s.advanceUp (s.windowEnd refWindow)).refCount edges
    if s.pwr.refBad = 2 then ((s.wr CLK.STAT_REF_OK 0).inc CLK.CNT_REF_LOSSES).raise 0x02 2
    else if s.pwr.refGood ≥ 2 ∧ !s.on CLK.STAT_REF_OK then (s.wr CLK.STAT_REF_OK 1).raise 0x02 3
    else s

/-- The SerDes PLL of a quad, or of Ethernet (12), is locked. -/
def State.serdesLocked (s : State) (quad : Nat) : Bool := if quad = 12 then s.on CLK.STAT_ETH_LOCK else s.bit CLK.STAT_SERDES_LOCK quad

/-- The SerDes PLL of a quad runs: the quad has been granted power (R593); that of Ethernet runs. -/
def State.serdesRuns (s : State) (quad : Nat) : Bool :=
  quad == 12 || (decide (quad < 12) && (s.pwr.islands.getD (7 + quad) ⟨0, 0, 0, false⟩).granted != 0)

/-- SERDES_UNLOCK (R593): quads 0 to 11, or 12 for the Ethernet SerDes, lose the lock. -/
def execSerdesUnlock (quad : Nat) (s : State) : Host.Outcome State Fault Refusal :=
  s.live fun s =>
    if s.serdesLocked quad then
      let s := if quad = 12 then s.wr CLK.STAT_ETH_LOCK 0 else s.wrBit CLK.STAT_SERDES_LOCK quad false
      (s.inc CLK.CNT_SERDES_UNLOCKS).raise 0x02 5
    else s

/-- SERDES_LOCK (R593): declared by a quad that has been granted power, or by the Ethernet SerDes. -/
def execSerdesLock (quad : Nat) (s : State) : Host.Outcome State Fault Refusal :=
  s.live fun s =>
    if !s.serdesRuns quad then s
    else if quad = 12 then s.wr CLK.STAT_ETH_LOCK 1 else s.wrBit CLK.STAT_SERDES_LOCK quad true

/-- The arbiter's cycle of 20 ns (R605). -/
def arbCyc : Nat := 20 * ns

/-- The uptime at which an idle island releases its grant (R607). -/
def State.releaseAt (s : State) (k : Nat) : Nat := (s.pwr.islands.getD k ⟨0, 0, 0, false⟩).lastUse + s.rd PWR.IDLE * (10 * ns)

/-- An island whose keeping condition has ended releases its grant after PWR_IDLE without an access, and enters RETAIN (R607). -/
def State.releaseIsland (s : State) (k : Nat) : State :=
  if s.isl k = 2 ∧ !s.keeps k then ((s.advanceUp (s.releaseAt k)).wrA PWR.ISL_STATE 0 k 1).budgetOver else s

/-- The releases that wait and fall into the arbiter cycle that ends at `e`: they come before its grant (R607). -/
def State.releasesFirst (s : State) (e : Nat) : State :=
  s.pending.foldl (fun s c =>
    match c with
    | .islandRelease k =>
      if s.isl k = 2 ∧ !s.keeps k ∧ s.releaseAt k ≤ e then { s.releaseIsland k with served := s.served ++ [c] } else s
    | _ => s) s

/-- ARBITER_CYCLE (R605): the next cycle, once the main PLL clocks the arbiter; the releases of the cycle come first (R607). -/
def execArbiterCycle (s : State) : Host.Outcome State Fault Refusal :=
  s.live fun s =>
    let e := s.windowEnd arbCyc
    if s.arbiterRuns then ((s.releasesFirst e).advanceUp e).arbiterCycle else s

/-- PRIORITY_REQUEST (R605): a request that has waited 50 cycles. -/
def execPriorityRequest (island : Nat) (s : State) : Host.Outcome State Fault Refusal :=
  s.live fun s =>
    if s.isl island = 3 ∧ 50 ≤ (s.pwr.islands.getD island ⟨0, 0, 0, false⟩).waited then s.wrA PWR.ISL_PRIO 0 island 1 else s

/-- ISLAND_RELEASE (R607): after PWR_IDLE without an access, an island whose keeping condition has ended enters RETAIN. -/
def execIslandRelease (island : Nat) (s : State) : Host.Outcome State Fault Refusal :=
  s.live fun s => s.inTurn (.islandRelease island) fun s => s.releaseIsland island

/-- The value that a write stores in PWR_BUDGET (R609). -/
def State.budgetStored (s : State) (v : Nat) : Nat := if s.isCell then max 0x27 (v % 65536) else v % 65536

/-- A write of PWR_BUDGET (R608, R642). -/
def State.budgetWrite (s : State) (v : Nat) : State :=
  if s.onI PG.LOCKED 0x01 then s.accessErr 0x01 0x04C 3
  else (s.wr PWR.BUDGET (s.budgetStored v)).budgetOver

/-- BUDGET_WRITE (R608). -/
def execBudgetWrite (value : Nat) (s : State) : Host.Outcome State Fault Refusal :=
  s.live fun s => s.busWrite 0x01 0x04C value fun s => s.budgetWrite value

/-- Every island that output `n` feeds is OFF or RETAIN (R585). -/
def State.outIdle (s : State) (n : Nat) : Bool :=
  (outIslands n).all fun k => s.isl k == 0 || s.isl k == 1 || s.isl k == 3

/-- A write of CLK_OUTn (R583 to R586). -/
def State.clkOutWrite (s : State) (n v : Nat) : State :=
  let idle := s.outIdle n
  let en := bitOf v 16
  if idle then
    let s := if n < 3 then s.wrA CLK.OUT_DIV 0 n (max (outDivReset n) (bitsOf v 0 8))
      else if bitsOf v 0 8 = s.rdA CLK.OUT_DIV 0 n then s else s.accessErr 0x02 (0x060 + 4 * n) 2
    let s := s.wrA CLK.OUT_DELAY 0 n (bitsOf v 8 6)
    let s := if n < 4 then
        ((s.wrA CLK.OUT_SSC_EN 0 n (bitsOf v 17 1)).wrA CLK.OUT_SSC_CENTRE 0 n (bitsOf v 18 1)).wrA CLK.OUT_SSC_DEPTH 0 n (bitsOf v 19 3)
      else s
    s.wrA CLK.OUT_EN 0 n (ofBool en)
  else
    let s := if en then s.wrA CLK.OUT_EN 0 n 1 else s
    s.accessErr 0x02 (0x060 + 4 * n) 4

/-- CLK_OUT_WRITE (R585). -/
def execClkOutWrite (out value : Nat) (s : State) : Host.Outcome State Fault Refusal :=
  s.live fun s => s.busWrite 0x02 (0x060 + 4 * (out % 8)) value fun s => s.clkOutWrite (out % 8) value

/-- A rail's level is inside its warning window: 0 to 3 VDD, VDDS, VDDA, VDDAO; 4 to 11 the VDDIO banks, ±5 % (Table 17-3). -/
def State.railInside (s : State) (r mv : Nat) : Bool :=
  if r < 4 then decide (s.rdA SUP.WIN_LO 0 r ≤ mv ∧ mv ≤ s.rdA SUP.WIN_HI 0 r)
  else
    let nom := if s.bit SUP.STAT_VDDIO_3V3 (r - 4) then 3300 else 1800
    decide (nom * 95 ≤ mv * 100 ∧ mv * 100 ≤ nom * 105)

/-- The OK bit of a rail given a level. -/
def State.setRailOk (s : State) (r : Nat) (ok : Bool) : State :=
  match r with
  | 0 => s.wrB SUP.STAT_VDD_OK ok
  | 1 => s.wrB SUP.STAT_VDDS_OK ok
  | 2 => s.wrB SUP.STAT_VDDA_OK ok
  | 3 => s.wrB SUP.STAT_VDDAO_OK ok
  | _ => s.wrBit SUP.STAT_VDDIO_OK (r - 4) ok

/-- The gate supplies VGP, VGN and VDDF in mV as a cell measures them, every 100 µs (GDR_SUP_MEAS). -/
def State.gateSupplies (s : State) (mv : List Int) : State :=
  if s.isCell ∧ s.mer.uptime / us % 100 = 0 then
    ((s.wrS GDR.SUP_MEAS_VGP 0 (mv.getD 0 0)).wrS GDR.SUP_MEAS_VGN 0 (mv.getD 1 0)).wrS GDR.SUP_MEAS2_VDDF 0 (mv.getD 2 0)
  else s

/-- SUP_SAMPLE (R600): the levels in mV of VDD, VDDS, VDDA, VDDAO and the eight VDDIO banks, and those of the gate supplies. -/
def execSupSample (mv : List Nat) (gate : List Int) (s : State) : Host.Outcome State Fault Refusal :=
  s.live fun s =>
    let s := (s.advanceUp ((s.mer.uptime / us + 1) * us)).gateSupplies gate
    let filt := max 1 (s.rd SUP.FILT)
    let inside := (List.range 12).map fun r => s.railInside r (mv.getD r 0)
    let outs := (List.range 12).map fun r => if inside.getD r true then 0 else s.pwr.supOut.getD r 0 + 1
    let newOut := (List.range 12).any fun r => outs.getD r 0 == filt
    let allIn := inside.all fun b => b
    let s := (((s.wr SUP.MEAS0_VDD (mv.getD 0 0)).wr SUP.MEAS0_VDDS (mv.getD 1 0)).wr SUP.MEAS1_VDDA (mv.getD 2 0)).wr SUP.MEAS1_VDDAO (mv.getD 3 0)
    let s := (List.range 12).foldl (fun s r =>
      if inside.getD r true then s.setRailOk r true
      else if filt ≤ outs.getD r 0 then s.setRailOk r false else s) s
    let s := { s with pwr := { s.pwr with supOut := outs, supIn := if allIn then s.pwr.supIn + 1 else 0 } }
    let s := if newOut then
        let s := ((s.inc SUP.CNT_WARNS).raise 0x03 0).diagnose 7
        { s with pwr := { s.pwr with supWarn := true } }
      else s
    if s.pwr.supWarn && decide (filt ≤ s.pwr.supIn) then
      { s.raise 0x03 1 with pwr := { s.pwr with supWarn := false } }
    else s

/-- A write of PWR_DORMANT (R610, R611). -/
def State.dormantWrite (s : State) (key : Nat) : State :=
  if key ≠ 0xD0 then s.accessErr 0x01 0x044 4
  else if (s.isCell && s.on GDR.STAT_ENABLED) || (!s.isCell && !s.on SAF.STAT_SPB) then
    (s.accessErr 0x01 0x044 4).raise 0x01 3
  else
    let n := s.enterPor false 0
    { n with
      por := false
      regs := (List.range 34).foldl (fun l k => regsPut l PWR.ISL_STATE 0 k 0) n.regs
      mer := { n.mer with uptime := s.mer.uptime }
      pwr := { n.pwr with dormant := some s.mer.uptime } }

/-- DORMANT_REQUEST (R610). -/
def execDormantRequest (key : Nat) (s : State) : Host.Outcome State Fault Refusal :=
  s.live fun s => s.busWrite 0x01 0x044 key fun s => s.dormantWrite key

/-- The wake begins: PWREN high, and power-on reset with the wake's cause (R613). -/
def State.wake (s : State) (cause : Nat) : State :=
  let n := s.enterPor false cause
  { n with pwr := { n.pwr with dormant := none, pwren := true } }

/-- PWREN_LOW (R611, R614): 100 µs after the request; a wake latched meanwhile begins as PWREN falls. -/
def execPwrenLow (s : State) : Host.Outcome State Fault Refusal :=
  .next (match s.pwr.dormant with
    | none => s
    | some t =>
      let s := { s with mer := { s.mer with uptime := max s.mer.uptime (t + 100 * us) }, pwr := { s.pwr with pwren := false } }
      match s.pwr.wakeLatched with
      | some c => s.wake c
      | none => s)

/-- A move of WAKEA from one level to another, in mV, crosses the threshold in the direction of CMP_EDGE, from beyond the hysteresis of 50 mV
(R613). On which side of the threshold the hysteresis lies is a DESIGN CHOICE, unsafe (assumption 179). -/
def State.wakeCross (s : State) (was now : Nat) : Bool :=
  let thr := 100 * (s.rd PWR.WAKE_CMP_THR + 1)
  if s.on PWR.WAKE_CMP_EDGE then decide (thr + 50 ≤ was ∧ now < thr) else decide (was + 50 ≤ thr ∧ thr < now)

/-- WAKE_EVENT (R613): a change held for three cycles, of the level at WAKE or of the voltage in mV at WAKEA (`comparator`). -/
def execWakeEvent (comparator : Bool) (change : LevelChange) (s : State) : Host.Outcome State Fault Refusal :=
  .next (
    let armed := if comparator then s.on PWR.WAKE_CMP_EN && s.wakeCross change.was change.now
      else s.on PWR.WAKE_WAKE_EN
        && (if s.on PWR.WAKE_WAKE_POL then change.was != 0 && change.now == 0 else change.was == 0 && change.now != 0)
    let cause := if comparator then 2 else 1
    if s.pwr.dormant.isSome && armed && !s.por then
      if s.pwr.pwren then { s with pwr := { s.pwr with wakeLatched := some (s.pwr.wakeLatched.getD cause) } }
      else s.wake cause
    else s)

end Sys2Proof.Machine
end

