-- ==== Sys2Proof/Machine/Contour.lean ====
section
/-! DEFINITION. The Contour engine (04, R146 to R186): availability, predicted voltages and sort keys, levels and edge times,
the assignment of steps, swaps and refills, flags and stop modes. A position's state is in the TARGET encoding of Table 3-6. -/

namespace Sys2Proof.Machine

/-- The offset of a Cell table entry (R20, R150). -/
def cellAddr (e : Nat) : Nat := 0x400000 + 128 * e

/-- What the hub keeps of the cell of entry `e`. -/
def State.cellAux (s : State) (e : Nat) : CellAux := (Sparse.get s.cells e).getD emptyCell

/-- What the hub keeps of the cell of entry `e`, changed. -/
def State.modCell (s : State) (e : Nat) (f : CellAux → CellAux) : State :=
  { s with cells := Sparse.put s.cells e (some (f (s.cellAux e))) }

/-- An arm group. -/
def State.group (s : State) (g : Nat) : ArmGroup := s.groups.getD g emptyGroup

/-- An arm group changed. -/
def State.modGroup (s : State) (g : Nat) (f : ArmGroup → ArmGroup) : State :=
  { s with groups := modAt s.groups g f }

/-- A CTG field as it stood at the start of the last sort stage (R184). -/
def ArmGroup.cf (gr : ArmGroup) (f : RegField) (g : Nat) : Nat := (Sparse.get gr.cfg (f.key g 0)).getD f.reset

/-- The fields of one page of the register file. -/
def pageRegs (regs : List (Nat × Nat)) (page : Nat) : List (Nat × Nat) :=
  regs.filter fun c => decide (page * 131072 ≤ c.1 ∧ c.1 < (page + 1) * 131072)

/-- The arm group and position that a Cell table entry belongs to, among the enabled groups (R146). -/
def State.groupOf (s : State) (e : Nat) : Option (Nat × Nat) :=
  ((List.range 12).find? fun g => s.onI PG.ENABLE (0x49 + g) && decide (s.rdI CTG.CELLS_BASE g ≤ e
    ∧ e < s.rdI CTG.CELLS_BASE g + s.rdI CTG.CELLS_COUNT g)).map fun g => (g, e - s.rdI CTG.CELLS_BASE g)

/-- The ring and cell index that a Cell table entry belongs to, among the rings with cells. -/
def State.ringOf (s : State) (e : Nat) : Option (Nat × Nat) :=
  ((List.range 48).find? fun r => decide (s.rdA BNC.RING_TBL_CELL_BASE 0 r ≤ e
    ∧ e < s.rdA BNC.RING_TBL_CELL_BASE 0 r + s.rdA BNC.RING_TBL_N 0 r)).map fun r => (r, e - s.rdA BNC.RING_TBL_CELL_BASE 0 r + 1)

/-- Cells in all enabled groups. -/
def State.nTotal (s : State) : Nat :=
  ((List.range 12).filter fun g => s.onI PG.ENABLE (0x49 + g)).foldl (fun n g => n + s.rdI CTG.CELLS_COUNT g) 0

/-- t_sort in 10 ns units (Table 1-6). -/
def tSort (n : Nat) : Nat := ceilDiv (150 * n) 4096

/-- Conditions C1 and C2 (R37) for `n` cells, stride in 10 ns units and deadline share in percent. -/
def budgetOk (n t d : Nat) : Bool :=
  decide (12500 + d * t ≤ 100 * t) && decide ((10 + tSort n) * 100 ≤ 500 + d * t)

/-- The stride in 10 ns units. -/
def State.stride10 (s : State) : Nat := s.strideT / (10 * ns)

/-- The engine's counts of cells and sort time reported in CTR_STAT, and the enabled groups in CTR_GROUPS. -/
def State.showCtr (s : State) : State :=
  ((s.wr CTR.STAT_N_TOTAL s.nTotal).wr CTR.STAT_T_SORT (tSort s.nTotal)).wr CTR.GROUPS_ENABLED
    (maskOf ((List.range 12).filter fun g => s.onI PG.ENABLE (0x49 + g)))

/-- The result of an evaluation of C1 and C2 reported (R38). -/
def State.budgetResult (s : State) (ok : Bool) : State :=
  (s.raiseIf (!ok) 0x48 0).wrB CTR.STAT_BUDGET_REFUSED (!ok)

/-- A write of the CTR page's PG_CTL.ENABLE (R38, R604). -/
def State.ctrEnable (s : State) (on : Bool) : State :=
  if on then
    if s.onI PG.ENABLE 0x48 then s
    else if budgetOk s.nTotal s.stride10 s.ctr.dl then
      let s := s.withFloor 0x48 0x008 fun s => s.wrI PG.ENABLE 0x48 1
      if s.onI PG.ENABLE 0x48 then
        let s := { s with groups := s.groups.map fun (g : ArmGroup) => { g with flags := [], strides := 0, running := false } }
        ((s.wr CTR.STAT_ACTIVE 1).budgetResult true).showCtr
      else s
    else s.budgetResult false
  else (s.wrI PG.ENABLE 0x48 0).wr CTR.STAT_ACTIVE 0

/-- Entries of group `g` overlap those of another enabled group, or lie beyond entry 8 191 (R147); a group of no cells has no entry. -/
def State.groupOverlap (s : State) (g : Nat) : Bool :=
  let b := s.rdI CTG.CELLS_BASE g
  let c := s.rdI CTG.CELLS_COUNT g
  c != 0 && (decide (8192 < b + c) ||
    (List.range 12).any fun h => h != g && s.onI PG.ENABLE (0x49 + h)
      && decide (b < s.rdI CTG.CELLS_BASE h + s.rdI CTG.CELLS_COUNT h ∧ s.rdI CTG.CELLS_BASE h < b + c))

/-- COUNT of a group is 0 or above 1 024 (R147). -/
def State.groupInvalid (s : State) (g : Nat) : Bool := s.rdI CTG.CELLS_COUNT g == 0 || decide (1024 < s.rdI CTG.CELLS_COUNT g)

/-- The engine's fields of an entry written into the Cell table (R150, R151). -/
def State.showEntry (s : State) (e : Nat) : State :=
  let a := cellAddr e
  let x := s.cellAux e
  let s := ((s.memPutLe (a + 40) 4 x.vPred).memPutLe (a + 52) 4 x.key).memPutLe (a + 56) 8 x.lastEdge
  let s := ((s.memPutLe (a + 64) 1 x.state).memPutLe (a + 65) 1 x.cause).memPutLe (a + 67) 1 x.edges
  (s.memPutLe (a + 68) 4 x.swCnt).memPut (a + 72) ((x.hist.map fun f => leBytes 2 (wrapTo 16 f)).flatten)

/-- A group enabled: every position starts with no edge commanded and no uplink landed (R150, R157, R159). -/
def State.startGroup (s : State) (g : Nat) : State :=
  let b := s.rdI CTG.CELLS_BASE g
  let c := s.rdI CTG.CELLS_COUNT g
  let s := s.modGroup g fun gr => { emptyGroup with cfg := pageRegs s.regs (0x49 + g), tMode := gr.tMode, tRef1 := gr.tRef1, tRef2 := gr.tRef2, tI := gr.tI }
  (List.range c).foldl (fun s p =>
    State.showEntry (s.modCell (b + p) fun x =>
      { x with lastEdge := 0, swCnt := 0, landed := 0, before := if x.everLanded then some x.lastSeq else none, shown0 := putBit x.shown0 7 true, shown1 := putBit x.shown1 7 true, excl := putBit x.excl 7 true }) (b + p)) s

/-- A write of a CTG page's PG_CTL.ENABLE (R147, R38). Fewer cells sort in less time, so that a disable is never refused. -/
def State.ctgEnable (s : State) (g : Nat) (on : Bool) : State :=
  if on then
    if s.onI PG.ENABLE (0x49 + g) then s
    else if s.groupOverlap g || s.groupInvalid g then (s.raiseIf (s.groupOverlap g) 0x48 1).raiseIf (s.groupInvalid g) 0x48 4
    else if !budgetOk (s.nTotal + s.rdI CTG.CELLS_COUNT g) s.stride10 s.ctr.dl then s.budgetResult false
    else
      let s := (s.wrI PG.ENABLE (0x49 + g) 1).startGroup g
      (s.budgetResult true).showCtr
  else if s.onI PG.ENABLE (0x49 + g) then
    let s := s.wrI PG.ENABLE (0x49 + g) 0
    (s.budgetResult (budgetOk s.nTotal s.stride10 s.ctr.dl)).showCtr
  else s

/-- CTR_ENABLE (R38). -/
def execCtrEnable (on : Bool) (s : State) : Host.Outcome State Fault Refusal :=
  s.live fun s => s.busWrite 0x48 0x008 (ofBool on) fun s => s.ctrEnable on

/-- CTG_ENABLE (R147). -/
def execCtgEnable (group : Nat) (on : Bool) (s : State) : Host.Outcome State Fault Refusal :=
  s.live fun s => s.busWrite (0x49 + group % 12) 0x008 (ofBool on) fun s => s.ctgEnable (group % 12) on

/-- A write of CTR_CTL.APPLY (R185). -/
def State.timingApply (s : State) : State := s.wr CTR.STAT_TIMING_PENDING 1

/-- TIMING_APPLY (R185). -/
def execTimingApply (s : State) : Host.Outcome State Fault Refusal :=
  s.live fun s => s.actWrite 0x48 0x040 2 fun s => s.timingApply

/-! Stop sources (R176 to R179). -/

/-- A stop source of the group is active (R177). -/
def State.stopActive (s : State) (g : Nat) : Bool :=
  s.onI CTG.CTL_STOP g || s.on CTR.CTL_STOP_ALL || (s.group g).noCells || bitOf s.ctr.chartStop g
    || (s.ctr.cflStop && s.on GRF.FBL_STOP_EN && bitOf (s.rd GRF.FBL_GROUPS) g)
    || ((s.group g).cf CTG.CTL_SRC g == 1 && (s.group g).tMode != 0)
    || (s.on SAF.STAT_SPB && s.isHub)

/-- The stop mode in force (R177), by CTG registers as the last sort stage took them (R184). -/
def State.stopMode (s : State) (g : Nat) : Nat :=
  let m := if s.on SAF.STAT_SPB && s.isHub then s.rd SAF.SPB_MODE
    else if (s.group g).cf CTG.CTL_SRC g = 1 ∧ (s.group g).tMode ≠ 0 then (s.group g).tMode
    else (s.group g).cf CTG.CTL_STOP_MODE g
  if m = 3 ∧ (s.group g).cf CTG.CTL_FB g = 0 then 2 else m

/-- The stop states taken over at a launch boundary: STOP_ALL as it comes into force (event 3 of R186, assumption 155), STOP_ACTIVE, STOPPED and
their events. -/
def State.showStops (s : State) : State :=
  let s := s.raiseIf (s.on CTR.CTL_STOP_ALL && !s.ctr.stopAll) 0x48 3
  let s := { s with ctr := { s.ctr with stopAll := s.on CTR.CTL_STOP_ALL } }
  (List.range 12).foldl (fun s g =>
    if s.onI PG.ENABLE (0x49 + g) then
      let st := s.stopActive g
      let was := s.onI CTG.STAT_STOP_ACTIVE g
      let s := (s.raiseIf (st && !was) (0x49 + g) 7).raiseIf (!st && was) (0x49 + g) 8
      (s.wrI CTG.STAT_STOP_ACTIVE g (ofBool st)).wrBit CTR.GROUPS_STOPPED g st
    else s.wrBit CTR.GROUPS_STOPPED g false) s

/-! The sort stage. -/

/-- Codes of Table 4-3 that an uplink shows: bit `c` for code `c`. -/
def shownCauses (ul : Bytes) : Nat :=
  let st := leAt ul 9 2
  let info := leAt ul 11 1
  maskOf ((if bitOf st 7 then [1] else []) ++ (if bitOf st 8 then [2] else []) ++ (if bitOf st 9 then [3] else [])
    ++ (if bitOf st 12 then [4] else []) ++ (if bitOf st 6 then [5] else []) ++ (if info % 4 ≠ 2 then [7] else [])
    ++ (if bitOf st 2 then [] else [9]))

/-- Causes in force after a compute stride's look at a cell (R159, R160): set by what is shown, cleared by two clean uplinks; SILENT by two
uplinks from CELL_BACK on. -/
def causesAfter (excl shown0 shown1 landed sinceBack : Nat) (silent suspect : Bool) (ctl : Nat) : Nat :=
  let byLink := [2, 3, 4, 5, 7, 9].filter fun c =>
    bitOf shown0 c || (bitOf excl c && (bitOf shown1 c || decide (landed < 2 ∧ c ≠ 7)))
  let first := if landed = 0 then [7] else []
  let closed := if bitOf excl 1 || bitOf shown0 1 then [1] else []
  maskOf (closed ++ byLink ++ first ++ (if silent || (bitOf excl 6 && decide (sinceBack < 2)) then [6] else []) ++ (if suspect then [8] else [])
    ++ (if bitOf ctl 0 then [10] else []) ++ (if bitOf ctl 3 then [11] else []))

/-- The lowest code of a set of causes; 0 for none (R159). -/
def lowestCause (m : Nat) : Nat := (bitList m 12).headD 0

/-- An insertion fraction of INS_HIST: 2⁻¹⁵ of a stride; 0x7FFF stands for the whole stride, which 16 bits cannot hold. -/
def fracNum (f : Int) : Num := if f = 32767 then Num.one else (numInt f).scale2 (-15)

/-- A number is positive and finite. -/
def Num.posFinite (x : Num) : Bool := x.isFinite && Num.zero.lt x

/-- The full fraction of a state: 1 for inserted positive, −1 for inserted negative, else 0, saturated to 16 bits. -/
def stateFrac (st : Nat) : Int := if st = 1 then 32767 else if st = 2 then -32768 else 0

/-- The polarity of a state: 1, −1 or 0. -/
def polarity (st : Nat) : Int := if st = 1 then 1 else if st = 2 then -1 else 0

/-- Boundary seconds of T as a number. -/
def State.strideSec (s : State) : Num := numRat (s.strideT : Int) sec

/-- The charge term of R153 over the given history places, oldest stride first: `places` gives index, weight one or a half. -/
def chargeSum (hist : List Int) (iHist : List Nat) (la : Nat) (places : List (Nat × Bool)) : Num :=
  places.foldl (fun acc pl =>
    let f := fracNum (hist.getD pl.1 0)
    let i := num32 (iHist.getD (pl.1 - la) 0)
    let t := i.mul f
    acc.add (if pl.2 then t.scale2 (-1) else t)) Num.zero

/-- The sort key (R156, Table 4-2). -/
def sortKey (v : Num) (lsb : Num) (rank : Nat) : Nat :=
  let q := v.div lsb
  let vk : Nat := match q with
    | .nan => 0
    | .inf neg => if neg then 0 else 0xFFFFF
    | .fin _ _ _ => (max 0 (min 0xFFFFF q.nearest)).toNat
  vk * 4096 + rank * 4

/-- The hoist sequence number that the slot read now should hold, for a ring's uplink age (R40). -/
def State.wantSeq (s : State) (ua : Nat) : Nat := (s.mer.seq + 2 ^ 32 - ua) % 2 ^ 32

/-- The sort stage's look at position `p` of group `g` (R153 to R160); answers the position's V_PRED as binary64 bits, after its rounding
to binary32 (R181). -/
def State.sortCell (s : State) (g p : Nat) : State × Nat :=
  let gr := s.group g
  let e := gr.cf CTG.CELLS_BASE g + p
  let a := cellAddr e
  let aux := s.cellAux e
  let ro := match s.ringOf e with | some (r, _) => r | none => 48
  let ua := s.rdA BNC.RING_TBL_UA 0 ro
  let la := s.ctr.la
  let sl := if s.ctr.slot = 0 then 20 else 0
  let ul := s.bytesAt (a + sl) 16
  let fresh := aux.everLanded && decide (ro < 48) && !bitOf s.ctr.absent ro && s.memLe (a + sl + 16) 4 == s.wantSeq ua
    && !s.memBad (a + sl) 20
  let s := ((s.noteRead (a + sl) 20).noteRead (a + 44) 8).noteRead (a + 66) 1
  let status := leAt ul 9 2
  let ctl := s.memLe (a + 66) 1
  let counted := fresh && (match aux.before with | some q => seqNewer (s.memLe (a + sl + 16) 4) q | none => true)
  let aux := if counted then
      { aux with shown1 := aux.shown0, shown0 := shownCauses ul, landed := aux.landed + 1, sinceBack := aux.sinceBack + 1 }
    else aux
  let excl := causesAfter aux.excl aux.shown0 aux.shown1 aux.landed aux.sinceBack aux.silent aux.suspect ctl
  let wasAvail := aux.excl == 0
  let avail := excl == 0
  let stByte := aux.state
  let applied := status % 4
  let j := la + ua + 1
  let hist := aux.hist
  let cmdEnd := aux.endStates.getD j applied
  let forcedIns := fresh && bitOf status 11 && hist.getD j 0 != 0
  let pol := if hist.getD j 0 < 0 then (-1 : Int) else 1
  let flen := gr.cf CTG.REFILL_FORCED_LEN g
  let hist := if fresh && applied != cmdEnd then hist.set j (stateFrac applied) else hist
  let hist := if forcedIns then
      let d := (divNearestEven ((flen * 10 * ns * 32768 : Nat) : Int) s.strideT)
      let whole := if hist.getD j 0 = 32767 then 32768 else hist.getD j 0
      hist.set j (satInt 16 (whole - pol * d))
    else hist
  let cN := num32 (s.memLe (a + 44) 4)
  let c := if cN.posFinite then cN else num32 (gr.cf CTG.CNOM g)
  let tc := s.strideSec.div c
  let gain := let gb := num32 (s.memLe (a + 48) 4); if gb.isZero then Num.one else gb
  let endBase := gr.cf CTG.CTL_KEY_BASE g == 1
  let code := if endBase then leAt ul 3 3 else leAt ul 0 3
  let places := (if endBase then [] else [(j, true)]) ++ ((List.range (ua + la + 1)).reverse.map fun k => (k, false))
  let v := if fresh then
      ((gain.mul (num32 (gr.cf CTG.VSCALE g))).mul (numNat code)).add (tc.mul (chargeSum hist gr.iHist la places))
    else (num32 aux.vPred).add (tc.mul (chargeSum hist gr.iHist la [(0, false)]))
  let v := num32 (bits32 v)
  let pend := if fresh then bitOf status 10 else bitOf stByte 3
  let st := if avail && !wasAvail then applied else stByte % 4
  let newByte := st + 4 * ofBool avail + 8 * ofBool pend + 16 * ofBool (!fresh)
  let count := gr.cf CTG.CELLS_COUNT g
  let key := sortKey v (num32 (gr.cf CTG.KEY_LSB g)) ((p + count - gr.rot % (max 1 count)) % (max 1 count))
  let s := State.showEntry (s.modCell e fun _ =>
    { aux with excl := excl, vPred := bits32 v, key := key, state := newByte, cause := lowestCause excl, hist := hist }) e
  let s := (s.raiseIf (wasAvail && !avail) (0x49 + g) 4).raiseIf (!wasAvail && avail) (0x49 + g) 5
  let s := if forcedIns && gr.cf CTG.CTL_VS_COMP g == 1 then
      let add := (((numInt pol).mul v).mul (numNat flen)).div (numNat s.stride10)
      s.modGroup g fun gr => { gr with vsComp := bits64 ((num64 gr.vsComp).add add) }
    else s
  (s, bits64 v)

/-- The sort stage of all positions of a group from `p`. -/
def State.sortCells (s : State) (g : Nat) : List Nat → State × List Nat
  | [] => (s, [])
  | p :: ps =>
    let r := s.sortCell g p
    let t := State.sortCells r.1 g ps
    (t.1, r.2 :: t.2)

/-- The arm current at the start of a sort stage (R152, R182), as binary32 bits. -/
def State.armCurrent (s : State) (g : Nat) (gr : ArmGroup) : Nat :=
  if gr.cf CTG.CTL_SRC g = 1 then gr.tI
  else
    let sg := s.sig (gr.cf CTG.SIG_I_IARM g)
    if sg.ok && (num32 sg.bits).isFinite then sg.bits else 0

/-- A position is available. -/
def State.posAvail (s : State) (g p : Nat) : Bool :=
  bitOf (s.cellAux ((s.group g).cf CTG.CELLS_BASE g + p)).state 2

/-- The sort stage of one group: registers taken over, current sampled, keys built, NO_CELLS judged (R152 to R160, R180). -/
def State.sortGroup (s : State) (g : Nat) : State :=
  if s.onI PG.ENABLE (0x49 + g) then
    let s := s.modGroup g fun gr => { gr with cfg := pageRegs s.regs (0x49 + g), running := true, vsComp := 0 }
    let i := s.armCurrent g (s.group g)
    let s := s.modGroup g fun gr =>
      let big := (num32 (gr.cf CTG.IDEAD g)).lt (num32 i).abs
      { gr with iHist := (i :: gr.iHist).take 16, charging := if big then Num.zero.lt (num32 i) else gr.charging }
    let count := (s.group g).cf CTG.CELLS_COUNT g
    let r := s.sortCells g (List.range count)
    let s := r.1.modGroup g fun gr => { gr with
      vPred := r.2
      start := (List.range count).map fun p => (r.1.cellAux (gr.cf CTG.CELLS_BASE g + p)).state % 4 }
    let none := (List.range count).all fun p => !s.posAvail g p
    let s := s.raiseIf (none && !(s.group g).noCells) (0x49 + g) 9
    (s.modGroup g fun gr => { gr with noCells := none }).wrI CTG.STAT_CHARGING g (ofBool (s.group g).charging)
  else s.modGroup g fun gr => { gr with running := false }

/-- V_avg, V_max, V_min and spread of a group over its available positions (R158), and the band in force (R170); of no cells the
first three are free values. -/
def State.sortFigures (s : State) (g : Nat) : State :=
  if (s.group g).running then
    let gr := s.group g
    let vs := ((List.range gr.vPred.length).filter fun p => s.posAvail g p).map fun p => num64 (gr.vPred.getD p 0)
    let n := vs.length
    let sum := vs.foldl Num.add Num.zero
    let free := fun i => num32 (Config.noCellFigure (s.freeCtr + i) % 2 ^ 32)
    let avg := if n = 0 then free 0 else sum.div (numNat n)
    let vmax := if n = 0 then free 1 else vs.foldl Num.max (vs.headD Num.zero)
    let vmin := if n = 0 then free 2 else vs.foldl Num.min (vs.headD Num.zero)
    let sigma := vmax.sub vmin
    let tenth := fun (f : RegField) => numRat (gr.cf f g : Nat) 10
    let lo := tenth CTG.SPREAD_SPREAD_LO
    let hi := tenth CTG.SPREAD_SPREAD_HI
    let bmax := tenth CTG.BAND_BAND_MAX
    let bmin := tenth CTG.BAND_BAND_MIN
    let band :=
      if hi.le lo || bmax.lt bmin then bmin
      else if sigma.le lo then bmax
      else if hi.le sigma then bmin
      else bmax.sub (((bmax.sub bmin).mul (sigma.sub lo)).div (hi.sub lo))
    let s := (((s.wrI CTG.STAT_N_AV g n).wrI CTG.V_AVG g (bits32 avg)).wrI CTG.V_MAX g (bits32 vmax)).wrI CTG.V_MIN g (bits32 vmin)
    let wasHigh := hi.le ((num64 gr.vMax).sub (num64 gr.vMin))
    let s := (s.wrI CTG.BAND_NOW_BAND g (bits32 band)).raiseIf (hi.le sigma && !wasHigh) (0x49 + g) 6
    let s := if n = 0 then { s with freeCtr := s.freeCtr + 3 } else s
    s.modGroup g fun gr => { gr with vAvg := bits64 avg, vMax := bits64 vmax, vMin := bits64 vmin, vSum := bits64 sum, band := bits64 band }
  else s

/-! The edge stage. -/

/-- A position while steps are assigned. -/
structure WorkCell where
  pos    : Nat
  st     : Nat
  avail  : Bool
  edges  : List (Nat × Nat)
  last   : Nat
  key    : Nat
  v      : Num
  pend   : Bool
  refByp : Bool

/-- The assignment of a group's steps: positions, level reached, edges used and what is counted. -/
structure Work where
  cells    : List WorkCell
  n        : Int
  used     : Nat
  steps    : Nat
  swaps    : Nat
  refills  : Nat
  deferred : Nat
  delayed  : Nat
  limit    : Bool

/-- What stays the same while a group's steps are assigned: start of the applying stride, stride in steps, dwells in 2⁻¹⁶ ns,
charging direction for polarity +1, full bridge. -/
structure WorkCtx where
  base     : Nat
  tSteps   : Nat
  minOn    : Nat
  minOff   : Nat
  refLen   : Nat
  charging : Bool
  fb       : Bool

/-- Offset `t` of the applying stride as a Meridian instant. -/
def WorkCtx.at (c : WorkCtx) (t : Nat) : Nat := c.base + t * (ns / 4)

/-- The instant from which a position's dwell is satisfied (R167); 0 for no commanded change. -/
def WorkCtx.ready (c : WorkCtx) (w : WorkCell) : Nat :=
  if w.last = 0 then 0
  else w.last * ns + (if w.st = 1 ∨ w.st = 2 then c.minOn else if w.refByp then max c.minOff c.refLen else c.minOff)

/-- A position could take an edge apart from its dwell. -/
def WorkCell.open (w : WorkCell) : Bool := w.avail && decide (w.edges.length < 2)

/-- A position is eligible for an edge at offset `t` (R167). -/
def WorkCtx.eligible (c : WorkCtx) (t : Nat) (w : WorkCell) : Bool := w.open && decide (c.ready w ≤ c.at t)

/-- The position is inserted with polarity `p`. -/
def WorkCell.inserted (w : WorkCell) (p : Int) : Bool := decide (polarity w.st = p)

/-- The position is bypassed. -/
def WorkCell.bypassed (w : WorkCell) : Bool := decide (polarity w.st = 0)

/-- The state of a position inserted with a polarity. -/
def insState (p : Int) : Nat := if p < 0 then 2 else 1

/-- The position of highest or lowest key. -/
def pickKey (highest : Bool) : List WorkCell → Option WorkCell
  | [] => none
  | w :: ws =>
    match pickKey highest ws with
    | none => some w
    | some v => if (if highest then decide (v.key < w.key) else decide (w.key < v.key)) then some w else some v

/-- Charging for a polarity. -/
def WorkCtx.chargingFor (c : WorkCtx) (p : Int) : Bool := if p < 0 then !c.charging else c.charging

/-- An edge of position `pos` at offset `t` to state `st`. -/
def Work.edge (w : Work) (c : WorkCtx) (pos t st : Nat) (refill : Bool) : Work :=
  { w with
    cells := w.cells.map fun x => if x.pos = pos then
      { x with st := st, edges := x.edges ++ [(t, st)], last := c.at t / ns, refByp := refill } else x
    used := w.used + 1 }

/-- The candidates of a step: bypassed positions to grow, inserted ones of the polarity to shrink. -/
def stepCands (grow : Bool) (p : Int) (ws : List WorkCell) : List WorkCell :=
  ws.filter fun x => x.open && (if grow then x.bypassed else x.inserted p)

/-- The pick of R168 among candidates eligible at `t`. -/
def WorkCtx.pick (c : WorkCtx) (grow : Bool) (p : Int) (t : Nat) (cands : List WorkCell) : Option WorkCell :=
  let el := cands.filter (c.eligible t)
  if grow then pickKey (!c.chargingFor p) el
  else
    let pe := el.filter (·.pend)
    pickKey (c.chargingFor p) (if pe.isEmpty then el else pe)

/-- The earliest offset at or after `t` at which a candidate becomes eligible (R169). -/
def WorkCtx.earliest (c : WorkCtx) (t : Nat) (cands : List WorkCell) : Option Nat :=
  (cands.map fun x => max t (ceilDiv (c.ready x - c.base) (ns / 4))).min?

/-- One step assigned, delayed or deferred (R168, R169, R175). -/
def Work.step (w : Work) (c : WorkCtx) (t : Nat) (dir : Int) : Work :=
  let n' := w.n + dir
  let grow := decide (w.n.natAbs < n'.natAbs)
  let p : Int := if (if grow then n' else w.n) < 0 then -1 else 1
  if 64 ≤ w.used then { w with deferred := w.deferred + 1, delayed := w.delayed + 1, limit := true }
  else
    let cands := stepCands grow p w.cells
    let place := fun (w : Work) (t : Nat) =>
      match c.pick grow p t cands with
      | some x => { w.edge c x.pos t (if grow then insState p else 0) false with n := n', steps := w.steps + 1 }
      | none => { w with deferred := w.deferred + 1, delayed := w.delayed + 1 }
    match c.pick grow p t cands with
    | some _ => place w t
    | none =>
      match c.earliest t cands with
      | some t' => if t' < c.tSteps then { place w t' with delayed := w.delayed + 1 }
        else { w with deferred := w.deferred + 1, delayed := w.delayed + 1 }
      | none => { w with deferred := w.deferred + 1, delayed := w.delayed + 1 }

/-- A list of steps assigned in order. -/
def Work.stepAll (w : Work) (c : WorkCtx) (steps : List (Nat × Int)) : Work :=
  steps.foldl (fun w st => w.step c st.1 st.2) w

/-- The edges left after a swap still cover the ramp (R166). -/
def Work.roomForSwap (w : Work) (ramp : Nat) : Bool := decide (w.used + 2 + ramp ≤ 64)

/-- The refill swaps of R172 for the positions given. -/
def Work.refillSwaps (w : Work) (c : WorkCtx) (ramp : Nat) : List Nat → Work
  | [] => w
  | pos :: rest =>
    match w.cells.find? fun x => x.pos == pos with
    | none => Work.refillSwaps w c ramp rest
    | some x =>
      let p := polarity x.st
      if w.roomForSwap ramp && c.eligible 0 x && p != 0 then
        match c.pick true p 0 (stepCands true p w.cells) with
        | some y =>
          let w := (w.edge c pos 0 0 true).edge c y.pos 0 (insState p) false
          Work.refillSwaps { w with swaps := w.swaps + 1, refills := w.refills + 1 } c ramp rest
        | none => Work.refillSwaps w c ramp rest
      else Work.refillSwaps w c ramp rest

/-- The balancing swaps of R171, at most as many as the fuel. -/
def Work.balance (w : Work) (c : WorkCtx) (ramp : Nat) (p : Int) (band : Num) : Nat → Work
  | 0 => w
  | fuel + 1 =>
    let ch := c.chargingFor p
    let a := pickKey ch (w.cells.filter fun x => c.eligible 0 x && x.inserted p)
    let b := pickKey (!ch) (w.cells.filter fun x => c.eligible 0 x && x.bypassed)
    match a, b with
    | some a, some b =>
      let gap := if ch then a.v.sub b.v else b.v.sub a.v
      if w.roomForSwap ramp && band.lt gap then
        let w := (w.edge c a.pos 0 0 false).edge c b.pos 0 (insState p) false
        Work.balance { w with swaps := w.swaps + 1 } c ramp p band fuel
      else w
    | _, _ => w

/-- The level of a voltage and whether it was clamped (R162). -/
def levelOf (v vAvg : Num) (nLo nAv : Int) : Int × Bool :=
  if vAvg.posFinite then
    let k := ((v.div vAvg).add (Num.fin false 1 (-1))).floor
    (max nLo (min nAv k), decide (k < nLo ∨ nAv < k))
  else if v.isZero then (0, false)
  else if Num.zero.lt v then (nAv, true) else (nLo, true)

/-- An instant in ns as a step offset (R165). -/
def toSteps (t : Num) (tSteps : Nat) : Nat :=
  match t with
  | .inf neg => if neg then 0 else tSteps - 1
  | .nan => 0
  | .fin _ _ _ => (max 0 (min ((tSteps : Int) - 1) (t.mul (numNat 4)).nearest)).toNat

/-- The ramp steps of R164, the timer carried unrounded. -/
def rampSteps (tSteps : Nat) (dir : Int) (dt : Num) : Num → Nat → List (Nat × Int)
  | _, 0 => []
  | timer, k + 1 => (toSteps timer tSteps, dir) :: rampSteps tSteps dir dt (timer.add dt) k

/-- The jump and the ramp of R164. -/
def stepList (v1 v2 vAvg tNs : Num) (nPrev nA nE : Int) (tSteps : Nat) : List (Nat × Int) × List (Nat × Int) :=
  let sgn := fun (i : Int) => if i < 0 then (-1 : Int) else 1
  let jump := List.replicate (nA - nPrev).natAbs (0, sgn (nA - nPrev))
  if nE = nA then (jump, [])
  else
    let dir := sgn (nE - nA)
    let dv := v2.sub v1
    if vAvg.posFinite then
      let b := ((numInt nA).add ((numInt dir).scale2 (-1))).mul vAvg
      let timer := (tNs.mul (b.sub v1)).div dv
      let dt := (tNs.mul vAvg).div dv.abs
      (jump, rampSteps tSteps dir dt timer (nE - nA).natAbs)
    else
      let t := (tNs.mul v1.neg).div dv
      if t.isFinite && Num.zero.le t && t.lt tNs then
        (jump, List.replicate (nE - nA).natAbs (toSteps t tSteps, dir))
      else (jump, [])

/-- A reference point and whether it was written in this compute stride (R163). -/
def State.refPoint (s : State) (i : Nat) : Num × Bool :=
  let g := s.sig i
  (g.num, g.ok && i != 0xFFFF && g.seq == s.mer.seq && g.num.isFinite)

/-- The two reference points of a group, each with whether it was written (R163, R182). -/
def State.refPoints (s : State) (g : Nat) : (Num × Bool) × (Num × Bool) :=
  let gr := s.group g
  if gr.cf CTG.CTL_SRC g = 1 then
    let now := gr.tSeq == some s.mer.seq
    ((num32 gr.tRef1, now && (num32 gr.tRef1).isFinite), (num32 gr.tRef2, now && (num32 gr.tRef2).isFinite))
  else (s.refPoint (gr.cf CTG.SIG_REF_VREF_A g), s.refPoint (gr.cf CTG.SIG_REF_VREF_B g))

/-- The start of the applying stride of the present compute stride (R29). -/
def State.applyStart (s : State) : Nat := s.mer.lastS + (1 + s.ctr.la) * s.strideT

/-- A position of a group as the edge stage works on it. -/
def State.workCell (s : State) (g p : Nat) (reset : Bool) : WorkCell :=
  let gr := s.group g
  let e := gr.cf CTG.CELLS_BASE g + p
  let x := s.cellAux e
  let b := x.state
  let avail := bitOf b 2
  { pos := p
    st := if reset && avail then 0 else b % 4
    avail := avail
    edges := []
    last := if reset then 0 else x.lastEdge
    key := x.key
    v := num64 (gr.vPred.getD p 0)
    pend := bitOf b 3
    refByp := x.refillByp }

/-- A group's end points of this stride: the points written, or those R39 holds, and whether one is held. -/
def State.endPoints (s : State) (g : Nat) : Num × Num × Bool :=
  let pts := s.refPoints g
  let v1 := if pts.1.2 then pts.1.1 else num64 (s.group g).prevEnd
  let v2 := if pts.2.2 then pts.2.1 else v1
  (v1, v2, !pts.1.2 || !pts.2.2)

/-- REF_HELD of a group for this stride, with its counter and event (R39). -/
def State.showHeld (s : State) (g : Nat) (held : Bool) : State :=
  let s := if held then (s.incI CTG.CNT2_REF_HELD_CNT g).raise (0x49 + g) 0 else s
  s.wrI CTG.STAT_REF_HELD g (ofBool held)

/-- The edge stage of a group without a stop source: end points (R39, R173), steps, swaps and refills (R164 to R172). -/
def State.edgeGroup (s : State) (g : Nat) : State :=
  let gr := s.group g
  let cf := fun (f : RegField) => gr.cf f g
  let pts := s.endPoints g
  let w1 := pts.1.add (num64 gr.vsComp)
  let w2 := pts.2.1.add (num64 gr.vsComp)
  let avails := (List.range gr.vPred.length).filter fun p => s.posAvail g p
  let nAv : Int := avails.length
  let fb := cf CTG.CTL_FB == 1
  let nLo : Int := if fb then -nAv else 0
  let vAvg := num64 gr.vAvg
  let nPrev := if gr.wasStop then 0 else gr.nPrev
  let lA := levelOf w1 vAvg nLo nAv
  let lE := levelOf w2 vAvg nLo nAv
  let tSteps := s.strideT / (ns / 4)
  let st := stepList w1 w2 vAvg (numRat (s.strideT : Int) ns) nPrev lA.1 lE.1 tSteps
  let c : WorkCtx :=
    { base := s.applyStart, tSteps := tSteps, minOn := cf CTG.DWELL_MIN_ON * (10 * ns), minOff := cf CTG.DWELL_MIN_OFF * (10 * ns),
      refLen := cf CTG.REFILL_REFILL_LEN * (10 * ns), charging := gr.charging, fb := fb }
  let w0 : Work :=
    { cells := (List.range gr.vPred.length).map fun p => s.workCell g p gr.wasStop, n := nPrev, used := 0, steps := 0,
      swaps := 0, refills := 0, deferred := 0, delayed := 0, limit := false }
  let shrinks := fun (p : Int) =>
    (List.range (st.1.length + st.2.length)).foldl (fun (acc : Nat × Int) i =>
      let d := ((st.1 ++ st.2).getD i (0, 0)).2
      let sh := decide ((acc.2 + d).natAbs < acc.2.natAbs) && decide ((if acc.2 < 0 then (-1 : Int) else 1) = p)
      (acc.1 + (if sh then 1 else 0), acc.2 + d)) (0, nPrev) |>.1
  let reservedOf := fun (p : Int) =>
    let pe := w0.cells.filter fun x => x.avail && x.pend && x.inserted p
    let sorted := pe.mergeSort fun x y => if c.chargingFor p then decide (y.key ≤ x.key) else decide (x.key ≤ y.key)
    (sorted.take (shrinks p)).map (·.pos)
  let reserved := reservedOf 1 ++ reservedOf (-1)
  let w1' := w0.stepAll c st.1
  let toSwap := (w1'.cells.filter fun x => x.avail && x.pend && !x.bypassed && !reserved.contains x.pos).map (·.pos)
  let w2' := if cf CTG.REFILL_REFILL_EN = 1 then w1'.refillSwaps c st.2.length toSwap else w1'
  let iS := num32 (gr.iHist.headD 0)
  let w3 := if (num32 (cf CTG.IDEAD)).lt iS.abs && lA.1 != 0 then
      w2'.balance c st.2.length (if lA.1 < 0 then -1 else 1) (num64 gr.band) (cf CTG.SWAP_SWAP_MAX)
    else w2'
  let w4 := w3.stepAll c st.2
  let clip := lA.2 || lE.2
  let s := s.modGroup g fun gr => { gr with
    edges := w4.cells.map (·.edges)
    start := w0.cells.map (·.st)
    nNow := w4.n
    prevEnd := bits64 pts.2.1
    wasStop := false
    stageMode := 0 }
  let s := w4.cells.foldl (fun s x =>
    if x.edges.isEmpty then s
    else
      let e := (s.group g).cf CTG.CELLS_BASE g + x.pos
      State.showEntry (s.modCell e fun y => { y with refillByp := x.refByp, lastEdge := x.last }) e) s
  let s := (((s.wrI CTG.EDGES g w4.used).wrI CTG.EDGES_STEPS g w4.steps).wrI CTG.EDGES_SWAPS g w4.swaps).wrI CTG.EDGES_DEFERRED g (min 127 w4.deferred)
  let s := (s.addCntA CTG.CNT_STEP_DELAYED g 0 w4.delayed).raiseIf (decide (0 < w4.delayed)) (0x49 + g) 3
  let s := s.addCntA CTG.CNT2_REFILL_SWAPS g 0 w4.refills
  let s := if w4.limit || w4.used == 64 then (s.incI CTG.CNT_EDGE_LIMIT g).raise (0x49 + g) 2 else s
  let s := (s.raiseIf clip (0x49 + g) 1).wrI CTG.STAT_REF_CLIP g (ofBool clip)
  s.showHeld g pts.2.2

/-- The edge stage of a group under a stop source: the points are taken or held as R39 says, and no step is placed (R179). -/
def State.edgeStop (s : State) (g : Nat) : State :=
  let n := (s.group g).vPred.length
  let m := s.stopMode g
  let pts := s.endPoints g
  let s := s.modGroup g fun gr => { gr with
    edges := List.replicate n [], nNow := 0, wasStop := true, stageMode := m, prevEnd := bits64 pts.2.1 }
  let s := (((s.wrI CTG.EDGES g 0).wrI CTG.EDGES_STEPS g 0).wrI CTG.EDGES_SWAPS g 0).wrI CTG.EDGES_DEFERRED g 0
  s.showHeld g pts.2.2

/-- Every reference point of the enabled groups has been written in this compute stride. -/
def State.refsWritten (s : State) : Bool :=
  (List.range 12).all fun g => !(s.group g).running || ((s.refPoints g).1.2 && (s.refPoints g).2.2)

/-- The instant of the Chart deadline (Table 1-5). -/
def State.deadlineAt (s : State) : Nat := s.mer.lastS + 50 * ns + s.ctr.dl * s.strideT / 100

/-- The command of a flag from its parts (Table 3-6). -/
def cmdWord (mode target mid nedge e0 e1 : Nat) (close fast localC : Bool) : Nat :=
  mode + 4 * target + 16 * mid + 64 * nedge + 2 ^ 8 * e0 + 2 ^ 28 * e1 + 2 ^ 48 * ofBool close + 2 ^ 49 * ofBool fast + 2 ^ 50 * ofBool localC

/-- The state that a position has at the end of its edges. -/
def endState (start : Nat) (edges : List (Nat × Nat)) : Nat := (edges.getLast?.map (·.2)).getD start

/-- A list of edges in time order. -/
def sortEdges (es : List (Nat × Nat)) : List (Nat × Nat) := es.mergeSort fun a b => decide (a.1 ≤ b.1)

/-- The flag of an available cell (R174). -/
def flagOf (start : Nat) (edges : List (Nat × Nat)) (close fast : Bool) : Nat :=
  match sortEdges edges with
  | [] => cmdWord 0 start 0 0 0 0 close fast false
  | [(t, x)] => if t = 0 then cmdWord 0 x 0 0 0 0 close fast false else cmdWord 0 x 0 1 t 0 close fast false
  | (t, x) :: (u, y) :: _ => cmdWord 0 y x 2 t u close fast false

/-- The flag of an excluded cell (R159, R161, Table 4-3). -/
def exclFlag (cause st : Nat) (auto close fast : Bool) : Nat :=
  let mode := match cause with
    | 2 => 1 | 3 => 1 | 4 => 1 | 7 => 1 | 11 => 0 | _ => 2
  let bc := close || cause == 1 || (auto && decide (2 ≤ cause ∧ cause ≤ 5))
  cmdWord mode (if cause = 11 then st else 0) 0 0 0 0 bc fast (cause == 11)

/-- The inserted time of a position over a stride in steps, signed by polarity. -/
def insertedSteps : Nat → Nat → List (Nat × Nat) → Nat → Int
  | st, t0, [], t1 => polarity st * ((t1 : Int) - t0)
  | st, t0, (t, x) :: rest, t1 => polarity st * ((t : Int) - t0) + insertedSteps x t rest t1

/-- The insertion fraction of a stride in units of 2⁻¹⁵, saturated to 16 bits (R153, Table 4-1). -/
def insFraction (start : Nat) (edges : List (Nat × Nat)) (tSteps : Nat) : Int :=
  satInt 16 (divNearestEven (insertedSteps start 0 (sortEdges edges) tSteps * 32768) (max 1 tSteps))

/-- The flags of a group encoded, and the Cell table brought up to date (R174, R150, R159, R179). -/
def State.encodeGroup (s : State) (g : Nat) : State :=
  if (s.group g).running then
    let gr := s.group g
    let tSteps := s.strideT / (ns / 4)
    let auto := gr.cf CTG.CTL_AUTO_BYPASS g == 1
    let one := fun (sf : State × List Nat) (p : Nat) =>
      let s := sf.1
      let e := gr.cf CTG.CELLS_BASE g + p
      let x := s.cellAux e
      let b := x.state
      let ctl := s.memLe (cellAddr e + 66) 1
      let cause := x.cause
      let avail := bitOf b 2
      let close := bitOf ctl 1
      let fast := bitOf ctl 2
      let start := gr.start.getD p 0
      let edges := gr.edges.getD p []
      let stop := gr.stageMode != 0
      let fin := if avail then (if stop then (if gr.stageMode = 3 then 3 else 0) else endState start (sortEdges edges))
        else if cause = 11 then b % 4 else 0
      let flag := if avail then
          (if stop then cmdWord gr.stageMode 0 0 0 0 0 close fast false else flagOf start edges close fast)
        else exclFlag cause (b % 4) auto close fast
      let frac := if avail && !stop then insFraction start edges tSteps else if !avail && cause == 11 then stateFrac (b % 4) else 0
      let moved := if edges.isEmpty then ofBool (polarity fin != polarity (b % 4)) else edges.length
      let s := s.noteRead (cellAddr e + 66) 1
      let s := s.modCell e fun y =>
        { y with
          lastEdge := if edges.isEmpty && moved != 0 then s.applyStart / ns else y.lastEdge
          state := b / 4 * 4 + fin
          edges := edges.length
          swCnt := (y.swCnt + moved) % 2 ^ 32
          hist := (frac :: y.hist).take 12
          endStates := (fin :: y.endStates).take 12 }
      (s.showEntry e, sf.2 ++ [flag])
    let r := (List.range gr.vPred.length).foldl one (s, [])
    let s := r.1.modGroup g fun gr => { gr with flags := r.2, nPrev := gr.nNow, strides := gr.strides + 1 }
    s.wrI CTG.STAT_LEVEL g (wrapTo 12 gr.nNow)
  else s

/-- The command that a hoist launched now carries to the cell of an entry (R32, R178). -/
def State.launchCmd (s : State) (e : Nat) : Nat :=
  match s.groupOf e with
  | none => 1
  | some (g, p) =>
    if s.on CTR.STAT_ACTIVE then
      match (s.group g).flags[p]? with
      | none => s.stopMode g
      | some f =>
        if bitOf (s.cellAux e).state 2 && s.stopActive g then
          putBits (putBits f 0 2 (s.stopMode g)) 6 2 0
        else f
    else 1

/-- The return record of a trunk group (R183, Table 3-14). -/
def State.returnRecord (s : State) (g : Nat) : Bytes :=
  let gr := s.group g
  let base := s.rdI CTG.CELLS_BASE g
  let silent := (List.range (s.rdI CTG.CELLS_COUNT g)).any fun p => (s.cellAux (base + p)).silent
  leBytes 1 (s.rd BNC.TRUNK_BRANCH_ID)
    ++ leBytes 1 (g + 16 * s.rdI CTG.STAT_REF_HELD g + 32 * ofBool silent + 64 * ofBool (s.stopActive g))
    ++ leBytes 2 (s.rdI CTG.STAT_N_AV g) ++ leBytes 4 (bits32 (num64 gr.vSum)) ++ leBytes 4 (bits32 (num64 gr.vMax))
    ++ leBytes 4 (bits32 (num64 gr.vMin))

/-- The time since the boundary in 10 ns units, as the stage registers report it. -/
def State.sinceBoundary10 (s : State) : Nat := satNat 16 ((s.mer.mer - s.mer.lastS) / (10 * ns))

/-- The sort stage of every group (R153). -/
def State.sortStage (s : State) : State :=
  if s.on CTR.STAT_ACTIVE then
    { (List.range 12).foldl State.sortGroup s with ctr := { s.ctr with sortStarted := true } }
  else s

/-- The sort stage is complete t_sort after its start at the latest (R36, R158, R170): a completion that comes about later counts as of then. -/
def State.sortDone (s : State) : State :=
  if s.on CTR.STAT_ACTIVE && s.ctr.sortStarted && !s.ctr.sorted then
    let s := (List.range 12).foldl State.sortFigures s
    { s.wr CTR.STAGE_SORT_DONE (min s.sinceBoundary10 (10 + tSort s.nTotal)) with ctr := { s.ctr with sorted := true } }
  else s

/-- The edge stage of a group begun: its points and steps, or the stop mode, and a branch's return record (R179, R183). -/
def State.edgeStart (s : State) (g : Nat) : State :=
  if (s.group g).running then
    let s := if s.stopActive g then s.edgeStop g else s.edgeGroup g
    let r := s.returnRecord g
    s.modGroup g fun gr => { gr with ret := if gr.cf CTG.CTL_SRC g = 1 then r else [] }
  else s

/-- The edge stage started, with the sort stage complete (R39, R45): at once when every point has been written, else at the Chart deadline. -/
def State.edgeStage (s : State) : State :=
  if s.on CTR.STAT_ACTIVE && s.ctr.sorted && !s.ctr.edgeStarted then
    let s := if s.refsWritten then s else s.advanceTo s.deadlineAt
    let s := (List.range 12).foldl State.edgeStart s
    { s with ctr := { s.ctr with edgeStarted := true, edgeAt := s.mer.mer } }
  else s

/-- The flags of every group complete and encoded, t_edge after the start of the stage at the latest (R36, R174). -/
def State.edgeDone (s : State) : State :=
  if s.ctr.edgeStarted && !s.ctr.edgeDone then
    let s := (List.range 12).foldl State.encodeGroup s
    let bound := satNat 16 ((s.ctr.edgeAt - s.mer.lastS) / (10 * ns) + 100)
    { s.wr CTR.STAGE_FLAGS_DONE (min s.sinceBoundary10 bound) with ctr := { s.ctr with edgeDone := true } }
  else s

/-- SORT_STAGE_DONE (R158, R170): the sort stage of this compute stride completes. -/
def execSortStageDone (s : State) : Host.Outcome State Fault Refusal := s.live State.sortDone

/-- EDGE_STAGE_START (R39, R45): when every point has been written, else at the Chart deadline. -/
def execEdgeStageStart (s : State) : Host.Outcome State Fault Refusal := s.live State.edgeStage

/-- EDGE_STAGE_DONE (R174): the flags of every group are complete and encoded. -/
def execEdgeStageDone (s : State) : Host.Outcome State Fault Refusal := s.live State.edgeDone

/-- What the stages of a compute stride that has begun still owe at its end: by R36 every one of them is complete before the next
boundary. -/
def State.finishStages (s : State) : State := s.sortDone.edgeStage.edgeDone

end Sys2Proof.Machine
end

