-- ==== Sys2Proof/Machine/Hoist.lean ====
section
/-! DEFINITION. The bytes of a hoist (R98 to R104, R111, R140): header, flag slots, pennant, trailer, in both framings; CRC-32 of
R104, CRC-16 of R140, and the tags of R563 with their nonces (Tables 16-7 and 16-8). -/

namespace Sys2Proof.Machine

/-- One step of a reflected CRC-32 division. -/
def crc32Bit (c : Nat) : Nat := if c % 2 = 1 then (c / 2) ^^^ 0xEDB88320 else c / 2

/-- CRC-32 of R104: the IEEE 802.3 frame check sequence. -/
def crc32 (bs : Bytes) : Nat :=
  (bs.foldl (fun c b => (List.range 8).foldl (fun c _ => crc32Bit c) (c ^^^ b.toNat)) 0xFFFFFFFF) ^^^ 0xFFFFFFFF

/-- One step of a CRC-16/CCITT division. -/
def crc16Bit (c : Nat) : Nat := if bitOf c 15 then (c * 2 % 65536) ^^^ 0x1021 else c * 2 % 65536

/-- CRC-16 of R140. -/
def crc16 (bs : Bytes) : Nat :=
  bs.foldl (fun c b => (List.range 8).foldl (fun c _ => crc16Bit c) (c ^^^ (b.toNat * 256))) 0xFFFF

/-- The bring-up key of R564: all zeros. -/
def bringUpKey : Bytes := List.replicate 32 0

/-- The leftmost `n` bytes of an AES-256-GMAC (R563). -/
def tagBytes (n : Nat) (key nonce data : Bytes) : Bytes := sliceBytes (Config.gmac key nonce data) 0 n

/-- A hoist header (Table 3-4); `start` in ns since the Meridian's zero. -/
structure Head where
  start  : Nat
  term   : Nat
  lease  : Nat
  keyIdx : Nat
  flags  : Nat
  seq    : Nat
  ring   : Nat
  count  : Nat
  deriving DecidableEq, Repr

/-- HFLAGS.STEP (R60). -/
def Head.step (h : Head) : Bool := bitOf h.flags 0
/-- HFLAGS.DIR: 0 eastbound, 1 westbound. -/
def Head.dir (h : Head) : Nat := bitsOf h.flags 1 1
/-- HFLAGS.UNIT: 0 hub A, 1 hub B. -/
def Head.unit (h : Head) : Nat := bitsOf h.flags 2 1
/-- HFLAGS.SURVEY_ARM. -/
def Head.surveyArm (h : Head) : Bool := bitOf h.flags 3
/-- HFLAGS.REKEY. -/
def Head.rekey (h : Head) : Bool := bitOf h.flags 4
/-- HFLAGS.TRUNK. -/
def Head.trunk (h : Head) : Bool := bitOf h.flags 5
/-- HFLAGS.ENUM. -/
def Head.enum (h : Head) : Bool := bitOf h.flags 6

/-- The nonce of Table 16-7. -/
def linkNonce (kind : Nat) (h : Head) (cell : Nat) : Bytes :=
  leBytes 1 kind ++ leBytes 1 (h.dir + 2 * h.unit) ++ leBytes 1 h.ring ++ leBytes 1 0 ++ leBytes 4 h.seq ++ leBytes 2 cell ++ leBytes 2 0

/-- Header bytes 0 to 23 (Table 3-4). -/
def headBody (h : Head) : Bytes :=
  leBytes 6 (h.start / 1000000000) ++ leBytes 4 (h.start % 1000000000) ++ leBytes 2 h.term ++ leBytes 1 h.lease ++ leBytes 1 h.keyIdx
    ++ leBytes 2 h.flags ++ leBytes 4 h.seq ++ leBytes 1 h.ring ++ leBytes 1 0 ++ leBytes 2 h.count

/-- A header of 32 bytes with HTAG and HCRC. -/
def headBytes (key : Bytes) (h : Head) : Bytes :=
  let b := headBody h
  let t := b ++ tagBytes 4 key (linkNonce 1 h 0) b
  t ++ leBytes 4 (crc32 t)

/-- The header that 32 bytes spell. -/
def parseHead (bs : Bytes) : Head :=
  { start := leAt bs 0 6 * 1000000000 + leAt bs 6 4, term := leAt bs 10 2, lease := leAt bs 12 1, keyIdx := leAt bs 13 1,
    flags := leAt bs 14 2, seq := leAt bs 16 4, ring := leAt bs 20 1, count := leAt bs 22 2 }

/-- HCRC is correct. -/
def hcrcOk (bs : Bytes) : Bool := leAt bs 28 4 == crc32 (sliceBytes bs 0 28)

/-- HTAG verifies under a key. -/
def htagOk (key : Bytes) (bs : Bytes) : Bool :=
  sliceBytes bs 24 4 == tagBytes 4 key (linkNonce 1 (parseHead bs) 0) (sliceBytes bs 0 24)

/-- The slot of a cell in a hoist for `n` cells (R105). -/
def slotOf (dir n cell : Nat) : Nat := if dir = 0 then n - cell else cell - 1

/-- The cell of a slot (R105). -/
def cellOfSlot (dir n slot : Nat) : Nat := if dir = 0 then n - slot else slot + 1

/-- A flag slot as the hub launches it (R100). -/
def slotBytes (key : Bytes) (h : Head) (cell cmd : Nat) : Bytes :=
  let c := leBytes 8 cmd
  c ++ tagBytes 4 key (linkNonce 2 h cell) c ++ List.replicate 20 0

/-- The 64 bytes of a pennant with its PTAG (R111, R563); `body` is bytes 0 to 55, `recs` the records of a trunk. -/
def penBytes (key : Bytes) (h : Head) (body recs : Bytes) : Bytes :=
  let b := sliceBytes body 0 56
  b ++ tagBytes 8 key (linkNonce (if h.trunk then 5 else 4) h 0) (b ++ leBytes 4 h.seq ++ recs)

/-- PTAG of a pennant verifies. -/
def ptagOk (key : Bytes) (h : Head) (pen recs : Bytes) : Bool := pen == penBytes key h pen recs

/-- Pennant bytes 0 to 55. -/
def penBody (typ txn target : Nat) (payload : Bytes) : Bytes :=
  leBytes 1 typ ++ leBytes 1 txn ++ leBytes 2 target ++ sliceBytes payload 0 52

/-- The bytes 0 to 63 of a BOOT_DATA pennant (Table 3-10). -/
def bootDataBytes (chunk : Nat) (data : Bytes) : Bytes := leBytes 1 0x10 ++ leBytes 3 chunk ++ sliceBytes data 0 60

/-- The trailer over the bytes before it (Table 3-8); `flip` sends TCRC complemented (R106, R109). -/
def trailerBytes (before : Bytes) (fire alarm : Nat) (flip : Bool) : Bytes :=
  let t := leBytes 2 fire ++ leBytes 1 alarm ++ leBytes 1 0
  let c := crc32 (before ++ t)
  t ++ leBytes 4 (if flip then c ^^^ 0xFFFFFFFF else c)

/-- The length of a hoist of `n` slots of `w` bytes: 104 + w·n (R98, R134). -/
def hoistLen (w n : Nat) : Nat := 104 + w * n

/-- TCRC of a hoist is correct. -/
def tcrcOk (bs : Bytes) : Bool := leAt bs (bs.length - 4) 4 == crc32 (bs.take (bs.length - 4))

/-! Generation-1 framing (R140, Table 3-15). -/

/-- The header of a generation-1 hoist. -/
def legacyHead (h : Head) : Bytes :=
  let b := leBytes 8 h.start ++ leBytes 2 h.seq ++ leBytes 1 h.flags ++ leBytes 1 h.count ++ leBytes 2 0
  b ++ leBytes 2 (crc16 b)

/-- The header that a generation-1 hoist spells; its 16-bit SEQ is carried on from the stride counter `near`. -/
def parseLegacyHead (near : Nat) (bs : Bytes) : Head :=
  let q := leAt bs 8 2
  let d := (q + 65536 - near % 65536) % 65536
  { start := leAt bs 0 8, term := 0, lease := 0, keyIdx := 0, flags := leAt bs 10 1,
    seq := if d < 32768 then (near + d) % 2 ^ 32 else (near + 2 ^ 32 + d - 65536) % 2 ^ 32, ring := 0, count := leAt bs 11 1 }

/-- The header CRC-16 is correct. -/
def legacyHeadOk (bs : Bytes) : Bool := leAt bs 14 2 == crc16 (sliceBytes bs 0 14)

/-- The generation-1 command of a command of Table 3-6: at most one edge, the one at which TARGET applies, in 10 ns steps. -/
def legacyCmd (cmd : Nat) : Nat :=
  let n := bitsOf cmd 6 2
  let ofs := if n = 2 then bitsOf cmd 28 20 else bitsOf cmd 8 20
  bitsOf cmd 0 2 + 4 * bitsOf cmd 2 1 + 8 * (if n = 0 then 0 else 1) + 16 * (ofs / 40)

/-- The command of Table 3-6 that a generation-1 command stands for; an edge beyond every stride stays beyond it, and a set reserved bit stays one
(R102). -/
def fromLegacyCmd (c : Nat) : Nat :=
  bitsOf c 0 2 + 4 * bitsOf c 2 1 + 64 * bitsOf c 3 1 + 256 * min (2 ^ 20 - 1) (bitsOf c 4 20 * 40)
    + 2 ^ 51 * (if bitsOf c 24 8 = 0 then 0 else 1)

/-- A generation-1 slot as the hub launches it. -/
def legacySlot (cmd : Nat) : Bytes :=
  let c := leBytes 4 (legacyCmd cmd)
  c ++ leBytes 2 (crc16 c) ++ List.replicate 10 0

/-- Bytes 6 to 15 of a generation-1 slot for an uplink. -/
def legacyUplink (ul : Bytes) : Bytes :=
  let b := leBytes 2 (Config.legacyVolt (leAt ul 0 3)) ++ leBytes 2 (Config.legacyVolt (leAt ul 3 3)) ++ sliceBytes ul 6 1
    ++ sliceBytes ul 9 2 ++ leBytes 1 0
  b ++ leBytes 2 (crc16 b)

/-- The uplink of Table 3-7 that bytes 6 to 13 of a generation-1 slot stand for. -/
def fromLegacyUplink (b : Bytes) : Bytes :=
  leBytes 3 (Config.legacyCode (leAt b 0 2)) ++ leBytes 3 (Config.legacyCode (leAt b 2 2)) ++ sliceBytes b 4 1
    ++ leBytes 1 Config.legacyBs ++ leBytes 1 Config.legacyBs ++ sliceBytes b 5 2 ++ leBytes 1 2 ++ leBytes 4 0xFFFFFFFF

/-- The bytes of a generation-1 pennant before its CRC-16: at most 5 words of a REG_WR or REG_RSP, in bytes 8 to 27 (R141). -/
def legacyPenHead (body : Bytes) : Bytes :=
  if leAt body 0 1 = 2 ∨ leAt body 0 1 = 3 then sliceBytes body 0 28 ++ leBytes 2 0 else sliceBytes body 0 30

/-- The 32 bytes of a generation-1 pennant; BOOT_DATA carries no CRC-16. -/
def legacyPen (body : Bytes) : Bytes :=
  if leAt body 0 1 = 0x10 then sliceBytes body 0 32 else legacyPenHead body ++ leBytes 2 (crc16 (legacyPenHead body))

/-- The CRC-16 of a generation-1 pennant is correct. -/
def legacyPenOk (pen : Bytes) : Bool := leAt pen 30 2 == crc16 (sliceBytes pen 0 30)

/-- The length of a generation-1 hoist for `n` cells. -/
def legacyLen (n : Nat) : Nat := 52 + 16 * n

/-- A uplink slot is absent: UL and UTAG all zero (R110). -/
def allZero (bs : Bytes) : Bool := bs.all (· == 0)

end Sys2Proof.Machine
end

