-- ==== Sys2Proof/Machine/Time.lean ====
section
/-! DEFINITION. The Meridian's sources and states (R53 to R67, Table 2-1), PPS (R71 to R74), holdover (R75 to R77) and the
snapshot (R89). Sources are numbered 0 PTPA, 1 PTPB, 2 PPS, as MER_STAT.SRC does. -/

namespace Sys2Proof.Machine

/-- A Bunting ring is in service, wrapped or not. -/
def State.ringsRunning (s : State) : Bool :=
  (List.range 48).any fun r => s.rdA BNC.RING_TBL_STATE 0 r == 5 || s.rdA BNC.RING_TBL_STATE 0 r == 6

/-- A source is eligible (R63). -/
def State.eligible (s : State) (src : Nat) : Bool :=
  match src with
  | 0 => s.rd MER.CTL_ANCHOR_SRC == 0 || s.rd MER.CTL_ANCHOR_SRC == 1
  | 1 => s.rd MER.CTL_ANCHOR_SRC == 0 || s.rd MER.CTL_ANCHOR_SRC == 2
  | 2 => s.rd MER.CTL_ANCHOR_SRC == 3 || s.on MER.CTL_PPS_FALLBACK
  | _ => false

/-- What the hub holds of a PTP engine. -/
def State.ptpE (s : State) (e : Nat) : PtpState := s.ptp.getD e emptyPtp

/-- What the hub holds of a PTP engine changed. -/
def State.modPtp (s : State) (e : Nat) (f : PtpState → PtpState) : State := { s with ptp := modAt s.ptp e f }

/-- A source is qualified (R64, R72). -/
def State.qualified (s : State) (src : Nat) : Bool :=
  if src < 2 then s.onI PTP.STAT_QUALIFIED src else src == 2 && s.pps.qual

/-- A source can drive the Meridian: eligible and qualified. -/
def State.usable (s : State) (src : Nat) : Bool := s.eligible src && s.qualified src

/-- The offset of a source, source minus Meridian, in 2⁻¹⁶ ns. -/
def State.srcOffset (s : State) (src : Nat) : Int :=
  if src < 2 then (s.ptpE src).offsets.headD 0 else s.pps.offsets.headD 0

/-- The frequency estimate of a source, 2⁻⁸ ppb; that of PPS has no law in the spec and is free (R56, assumption 12). -/
def State.srcFreq (s : State) (src : Nat) : Int :=
  if src < 2 then s.rdS PTP.FREQ src else Config.ppsFreq s.pps.offsets

/-- The order in which sources take over (R63). -/
def State.sourceOrder (s : State) (lost : Option Nat) : List Nat :=
  let pref := s.rd MER.CTL_PREF
  match lost with
  | some 0 => [1, 2]
  | some 1 => [0, 2]
  | some _ => [pref, 1 - pref]
  | none => [pref, 1 - pref, 2]

/-- The active source recorded in MER_STAT and in the PTP pages. -/
def State.setSource (s : State) (src : Nat) : State :=
  ((s.wr MER.STAT_SRC src).wrI PTP.STAT_ACTIVE 0 (ofBool (src == 0))).wrI PTP.STAT_ACTIVE 1 (ofBool (src == 1))

/-- The rate correction in force reported in MER_RATE. -/
def State.showRate (s : State) : State := s.wrS MER.RATE 0 s.rate

/-- The slew limit MER_SLEW in 2⁻⁸ ppb (R56): 1 ppm is 256 000. -/
def State.slewLimit (s : State) : Int := (s.rd MER.SLEW_SLEW_PPM * 256000 : Nat)

/-- A step decided (R59): it waits for the boundary, or for at most 1 µs when no ring runs. -/
def State.decideStep (s : State) (d : Int) (reanchor : Bool) : State :=
  { s.wr MER.STAT_STEP_PENDING 1 with mer := { s.mer with stepDelta := some d, stepByReanchor := reanchor } }

/-- This hub takes the rate of its Meridian from the pair's holder, which is the other hub (R86). -/
def State.follows (s : State) : Bool := s.paired && s.clr != 4 && s.rd CLR.STAT_TERM != 0 && s.rd CLR.STAT_HOLDER != s.unit

/-- OFFSET_LARGE (R58) after an update whose offset is or is not above MER_STEP_THR. -/
def State.noteLarge (s : State) (large : Bool) : State :=
  if large then
    { (s.raiseIf (!s.on MER.STAT_OFFSET_LARGE) 0x08 2).wr MER.STAT_OFFSET_LARGE 1 with mer := { s.mer with largeRun := 0 } }
  else if s.on MER.STAT_OFFSET_LARGE then
    let run := s.mer.largeRun + 1
    let s := { s with mer := { s.mer with largeRun := run } }
    if 16 ≤ run then s.wr MER.STAT_OFFSET_LARGE 0 else s
  else s

/-- The phase term for an offset: toward zero, within MER_SLEW (R56), at that limit while the offset is large (Table 2-1). -/
def State.phaseFor (s : State) (off : Int) (large : Bool) : Int :=
  let term : Int := if large then s.slewLimit else min (Config.phaseTerm off : Int) s.slewLimit
  if off < 0 then -term else if off = 0 then 0 else term

/-- An update of the active source: MER_OFFSET, OFFSET_LARGE (R58) and the rate correction (R56, R57). -/
def State.driveMeridian (s : State) (src : Nat) : State :=
  if s.follows then s
  else
    let off := s.srcOffset src
    let large := decide (off.natAbs > s.rd MER.STEP_THR_THR_NS * ns)
    let s := (s.wrS MER.OFFSET 0 (satInt 32 (off.tdiv ns))).noteLarge large
    { s with mer := { s.mer with freq := s.srcFreq src, phase := s.phaseFor off large } }.showRate

/-- A source has become qualified (Table 2-1): first anchoring steps, the return from HOLDOVER does not. A cell and a branch take no time
from sources of their own (R672, R138); a hub that follows the holder keeps its state and steps nothing (R86, assumption 161). -/
def State.sourceQualified (s : State) : State :=
  if s.rd SYS.STRAP_ROLE ≠ 1 then s
  else
    match (s.sourceOrder none).find? s.usable with
    | none => s
    | some src =>
      if s.rd MER.STAT_STATE = 0 then
        let s := (s.wr MER.STAT_STATE 1).setSource src
        (if s.follows then s else s.decideStep (s.srcOffset src) false).raise 0x08 0
      else if s.rd MER.STAT_STATE = 2 then
        (((s.wr MER.STAT_STATE 1).setSource src).wr MER.STAT_HO_EXCEEDED 0).wr MER.HO_EST_EST_NS 0
      else s

/-- Entry into HOLDOVER (R75, R76): the rate frozen at a source's last frequency estimate, phase term zero, the holdover estimate started. -/
def State.enterHoldover (s : State) (freq : Int) (e0 : Nat) : State :=
  let s := { s with mer := { s.mer with hoE0 := e0, hoStart := s.mer.uptime, hoLast := s.mer.uptime } }
  let s := if s.follows then s else { s with mer := { s.mer with freq := freq, phase := 0 } }
  (((s.wr MER.STAT_STATE 2).setSource 3).wr MER.HO_EST_EST_NS (satNat 32 (e0 / ns))).showRate

/-- A source has been lost (Table 2-1): when it drives the Meridian, another takes over or HOLDOVER begins. -/
def State.sourceLost (s : State) (src : Nat) (offset : Int) : State :=
  if s.rd MER.STAT_STATE = 1 ∧ s.rd MER.STAT_SRC = src then
    let s := s.raise 0x08 6
    match (s.sourceOrder (some src)).find? s.usable with
    | some n => (s.setSource n).raise 0x08 3
    | none => (s.enterHoldover (s.srcFreq src) offset.natAbs).raise 0x08 4
  else s

/-- The state of a PTP engine's port; outside SLAVE the domain is not qualified (R62, R64). The spec names the states and not the instants of
their changes: PRESUMED from IEEE 1588 (assumption 160). -/
def State.setPort (s : State) (e v : Nat) : State :=
  let s := s.wrI PTP.STAT_PORT_STATE e v
  if v = 3 then s else s.wrI PTP.STAT_QUALIFIED e 0

/-- A PTP domain lost (R65): LOSSES counted, the engine no longer qualified, its port UNCALIBRATED from SLAVE (assumption 160). -/
def State.domainLost (s : State) (e : Nat) : State :=
  let off := s.srcOffset e
  let s := (s.wrI PTP.STAT_QUALIFIED e 0).incI PTP.CNT_LOSSES e
  let s := if s.rdI PTP.STAT_PORT_STATE e = 3 then s.setPort e 2 else s
  let s := s.modPtp e fun p => { p with offsets := [], authRun := 0, syncSeq := none }
  s.sourceLost e off

/-- The qualification of a PTP domain (R64) after an offset estimate: SLAVE, and 16 estimates within the spread. A grandmaster above
CLASS_MAX, by which a domain is lost (R65), keeps it from qualifying too: DEDUCED (assumption 164). -/
def State.ptpQualify (s : State) (e : Nat) : State :=
  let offs := (s.ptpE e).offsets
  let hi := offs.foldl max (offs.headD 0)
  let lo := offs.foldl min (offs.headD 0)
  let q := s.rdI PTP.STAT_PORT_STATE e == 3 && offs.length == 16
    && decide (hi - lo ≤ (s.rdI PTP.QUAL_SPREAD e * ns : Nat))
    && decide (s.rdI PTP.STAT_GM_CLASS e ≤ s.rdI PTP.QUAL_CLASS_MAX e)
  s.wrI PTP.STAT_QUALIFIED e (ofBool q)

/-- A new offset estimate of an engine: its registers, its qualification, and what it does to the Meridian. The first one of an
UNCALIBRATED port makes it SLAVE (assumption 160). -/
def State.ptpOffset (s : State) (e : Nat) (off : Int) : State :=
  let s := s.modPtp e fun p => { p with offsets := (off :: p.offsets).take 16 }
  let s := if s.rdI PTP.STAT_PORT_STATE e = 2 then s.setPort e 3 else s
  let s := (s.wrS PTP.OFFSET e (satInt 32 (off.tdiv ns))).wrS PTP.FREQ e (Config.ptpFreq (s.ptpE e).offsets)
  let s := s.ptpQualify e
  if s.rd MER.STAT_STATE = 1 then (if s.rd MER.STAT_SRC = e then s.driveMeridian e else s)
  else s.sourceQualified

/-- The order of two data sets by the default comparison: the lesser list is the better clock. -/
def dataSetLt : List Nat → List Nat → Bool
  | a :: as, b :: bs => if a < b then true else if b < a then false else dataSetLt as bs
  | _, _ => false

/-- A message's interval is one that an engine accepts (Table 2-3): a Sync's −7 to 0, an Announce's −3 to 1. -/
def ptpAccepts : PtpMsg → Bool
  | .sync _ i _ _ _ => decide (-7 ≤ i ∧ i ≤ 0)
  | .announce i .. => decide (-3 ≤ i ∧ i ≤ 1)
  | _ => true

/-- The correction of PTP_LAT for an external delay, in 2⁻¹⁶ ns (R70): receive and transmit. -/
def State.rxCorr (s : State) (e : Nat) : Int := s.rdS PTP.LAT_RX_CORR e * 256

/-- The correction of PTP_LAT for an external delay, in 2⁻¹⁶ ns (R70): transmit. -/
def State.txCorr (s : State) (e : Nat) : Int := s.rdS PTP.LAT_TX_CORR e * 256

/-- One message of a domain, received at Meridian instant `rx` with the port's path latency removed (R62, R64, R65, R69, R70). -/
def State.ptpMessage (s : State) (e : Nat) (rx : Int) (auth : Auth) (msg : PtpMsg) : State :=
  if auth = .fail ∨ (auth = .absent ∧ s.onI PTP.CFG_AUTH_REQ e) then
    let s := s.incI PTP.CNT_AUTH_FAIL e
    let run := (s.ptpE e).authRun + 1
    let s := s.modPtp e fun p => { p with authRun := run }
    if run = max 1 (s.rdI PTP.QUAL_AUTH_MAX e) then s.domainLost e else s
  else
    let s := s.modPtp e fun p => { p with authRun := 0 }
    let pd : Int := (s.rdI PTP.PDELAY e : Nat)
    let rxc : Int := rx - s.rxCorr e
    if !ptpAccepts msg then s
    else
      match msg with
      | .sync seq _ twoStep origin corr =>
        let s := s.modPtp e fun p => { p with lastSync := some s.mer.mer }
        if twoStep then s.modPtp e fun p => { p with syncSeq := some seq, syncRx := rxc.toNat, syncCorr := corr }
        else s.ptpOffset e ((origin : Int) + corr + pd - rxc)
      | .followUp seq origin corr =>
        let p := s.ptpE e
        if p.syncSeq = some seq then
          (s.modPtp e fun p => { p with syncSeq := none }).ptpOffset e ((origin : Int) + corr + p.syncCorr + pd - p.syncRx)
        else s
      | .announce _ prio1 cls accuracy variance prio2 gmId steps utc leap61 leap59 utcValid tinacc =>
        let ds := [prio1, cls, accuracy, variance, prio2, gmId, steps]
        let old := (s.ptpE e).master
        if old = [] ∨ old.getD 5 0 = gmId ∨ dataSetLt ds old then
          let s := s.modPtp e fun p => { p with master := ds, lastAnn := some s.mer.mer }
          let s := if s.rdI PTP.STAT_PORT_STATE e ≤ 1 then s.setPort e 2 else s
          let s := ((s.wrI PTP.STAT_GM_CLASS e cls).wrI PTP.GM_ID_LO_GM_ID e gmId).wrI PTP.GM_ID_HI_GM_ID e (gmId / 2 ^ 32)
          let s := match tinacc with
            | none => s
            | some (g, n) => (s.wrI PTP.TINACC_GM_TINACC e (satNat 16 g)).wrI PTP.TINACC_NET_TINACC e (satNat 16 n)
          let s := if s.rd MER.STAT_SRC = e then
              (((s.wr MER.UTC_UTC_OFFSET utc).wrB MER.UTC_LEAP61 leap61).wrB MER.UTC_LEAP59 leap59).wrB MER.UTC_VALID utcValid
            else s
          if s.rdI PTP.QUAL_CLASS_MAX e < cls ∧ (s.onI PTP.STAT_QUALIFIED e ∨ s.rd MER.STAT_SRC = e) then s.domainLost e else s
        else s
      | .pdelayReq _ => s
      | .pdelayResp t1 turnaround => s.wrI PTP.PDELAY e ((rxc - ((t1 : Int) + s.txCorr e) - turnaround) / 2).toNat

/-- A PTP engine is bound to a port and domain (R63), and to the VLAN that its PTP_CFG expects (Table 2-3). -/
def State.ptpBound (s : State) (e port : Nat) (vid : Option Nat) (domain : Nat) : Bool :=
  s.onI PG.ENABLE (9 + e) && s.rdI PTP.CFG_PORT e == port && s.rdI PTP.CFG_DOMAIN e == domain
    && vid == (if s.onI PTP.CFG_VLAN_EN e then some (s.rdI PTP.CFG_VID e) else none)

/-- How the authentication of a PTP message came out (R576): the PTP slot whose keyID matches. -/
def State.ptpAuth (s : State) : PtpAuth → Auth
  | .absent => .absent
  | .tlv id data tag =>
    match s.security.slots.find? fun k => k.2.use == 1 && k.2.id == id with
    | some k => if !s.on SEC.STAT_DBG_OPEN && sliceBytes (Config.ptpMac k.2.alg k.2.key data) 0 16 == tag then .pass else .fail
    | none => .fail

/-- A message's authentication keeps it from an engine (R65). -/
def State.ptpBarred (s : State) (e : Nat) (a : Auth) : Bool := a == .fail || (a == .absent && s.onI PTP.CFG_AUTH_REQ e)

/-- A frame that waits to be received is a Sync, or an Announce, of an engine in the cycle of instant `t`. -/
def State.comesFor (s : State) (e t : Nat) (ann : Bool) : Instr → Bool
  | .ethFrameRx port t' (.ptp vid domain a (.sync ..)) =>
    !ann && sameCycle cyc500 t t' && s.ptpBound e port vid domain && !s.ptpBarred e (s.ptpAuth a)
  | .ethFrameRx port t' (.ptp vid domain a (.announce ..)) =>
    ann && sameCycle cyc500 t t' && s.ptpBound e port vid domain && !s.ptpBarred e (s.ptpAuth a)
  | _ => false

/-- A Sync, or an Announce, of an engine arrives in the cycle in which its timeout expires: the timeout is not counted (R54). -/
def State.inTime (s : State) (e t : Nat) (ann : Bool) : Bool :=
  (if ann then (s.ptpE e).lastAnn else (s.ptpE e).lastSync).any (sameCycle cyc500 t) || s.pending.any (s.comesFor e t ann)

/-- The timeouts of an engine run: it is enabled, or it drives the Meridian. -/
def State.ptpWatched (s : State) (e : Nat) : Bool := s.onI PG.ENABLE (9 + e) || (s.rd MER.STAT_STATE == 1 && s.rd MER.STAT_SRC == e)

/-- The third consecutive Sync of an engine missed. -/
def State.syncMissed (s : State) (e : Nat) : State := (s.addCntA PTP.CNT_SYNC_MISS e 0 3).domainLost e

/-- SYNC_TIMEOUT (R65, R54): the third consecutive Sync of an engine was missing. -/
def execSyncTimeout (due : EngineAt) (s : State) : Host.Outcome State Fault Refusal :=
  s.live fun s =>
    let s := s.advanceTo due.t
    if s.ptpWatched due.engine && !s.inTime due.engine due.t false then s.syncMissed due.engine else s

/-- The announce receipt timeout of an engine. -/
def State.annMissed (s : State) (e : Nat) : State :=
  (((s.incI PTP.CNT_ANN_TMO e).domainLost e).setPort e 1).modPtp e fun p => { p with master := [] }

/-- ANNOUNCE_TIMEOUT (R65, R54): the announce receipt timeout of an engine expires. -/
def execAnnounceTimeout (due : EngineAt) (s : State) : Host.Outcome State Fault Refusal :=
  s.live fun s =>
    let s := s.advanceTo due.t
    if s.ptpWatched due.engine && !s.inTime due.engine due.t true then s.annMissed due.engine else s

/-- PPS lost (R72): the run of edges starts again. -/
def State.ppsLost (s : State) : State :=
  let off := s.pps.offsets.headD 0
  let was := s.pps.qual
  let s := { s with pps := { s.pps with qual := false, run := 0 } }
  if was then s.sourceLost 2 off else s

/-- A rising edge of PPS_IN at Meridian instant `t` (R71 to R73). Edges ignored for want of a written TOD are counted in `pps.ignored`:
PG_STAT, which R73 names, has no field for them. -/
def State.ppsEdge (s : State) (t : Nat) : State :=
  if s.on MER.PPS_CTL_IN_EN then
    let c := t - s.rd MER.PPS_CTL_CABLE_DLY * (ns / 4)
    let near := match s.pps.last with
      | none => false
      | some l => decide (l + sec - us ≤ c ∧ c ≤ l + sec + us)
    let s := if s.pps.qual && !near then s.ppsLost else s
    let second := if s.pps.armed then s.rd MER.PPS_TOD_TOD_HI * 2 ^ 32 + s.rd MER.PPS_TOD_TOD_LO else s.pps.second + 1
    let run := if near then s.pps.run + 1 else 1
    let s := { s with pps := { s.pps with
      last := some c, run := run, second := second, armed := false
      offsets := if near then (((second * sec : Nat) - (c : Int)) :: s.pps.offsets).take 16 else [(second * sec : Nat) - (c : Int)] } }
    if s.pps.qual then
      if s.rd MER.STAT_STATE = 1 ∧ s.rd MER.STAT_SRC = 2 then s.driveMeridian 2 else s
    else if 4 ≤ run then
      if s.pps.ever then { s with pps := { s.pps with qual := true } }.sourceQualified
      else { s with pps := { s.pps with ignored := s.pps.ignored + 1 } }
    else s
  else s

/-- PPS_IN_EDGE (R71 to R73): a rising edge at Meridian instant `t`. -/
def execPpsInEdge (t : Nat) (s : State) : Host.Outcome State Fault Refusal :=
  s.live fun s => (s.advanceTo t).ppsEdge t

/-- The edge that was due by 1.1 s after the last one has not come. -/
def State.ppsGone (s : State) : State := ({ s with pps := { s.pps with last := none } }.ppsLost).raise 0x08 7

/-- An edge of PPS_IN waits in the cycle of instant `t`. -/
def State.ppsComes (s : State) (t : Nat) : Bool :=
  s.on MER.PPS_CTL_IN_EN && s.pending.any fun i => match i with
    | .ppsInEdge t' => sameCycle cyc500 t t'
    | _ => false

/-- PPS_MISSING (R72, R54): no edge within 1.1 s of the previous one. -/
def execPpsMissing (s : State) : Host.Outcome State Fault Refusal :=
  s.live fun s =>
    match s.pps.last with
    | none => s
    | some l =>
      let s := s.advanceTo (l + 11 * (sec / 10))
      if s.ppsComes s.mer.mer then s else s.ppsGone

/-- A write of MER_PPS_TOD.TOD_HI (R73): the value armed for the next edge. -/
def State.todArm (s : State) (v : Nat) : State :=
  { s.wr MER.PPS_TOD_TOD_HI v with pps := { s.pps with armed := true, ever := true } }

/-- TOD_ARM (R73). -/
def execTodArm (value : Nat) (s : State) : Host.Outcome State Fault Refusal :=
  s.live fun s => s.busWrite 0x08 0x084 value fun s => s.todArm value

/-- PPS_OUT_PULSE (R74): at the next whole second. -/
def execPpsOutPulse (s : State) : Host.Outcome State Fault Refusal :=
  s.live fun s =>
    let s := s.advanceTo ((s.mer.mer / sec + 1) * sec)
    if s.on MER.PPS_CTL_OUT_EN then s.emit (.ppsPulse (s.rd MER.PPS_CTL_OUT_W)) else s

/-- The estimated error of R76 at time `t` since entry, times 2·10⁹·sec, so that nothing is rounded: E₀ + r·t + a·t²/2. -/
def State.holdoverScaled (s : State) (t : Nat) : Nat :=
  s.mer.hoE0 * (2000 * sec) + s.rd MER.HO_PAR_RATE_UNC * (t * 200 * ns) + s.rd MER.HO_PAR_AGE * (t * t * ns / sec)

/-- HOLDOVER_UPDATE (R76, R77): every 1 ms in HOLDOVER. -/
def execHoldoverUpdate (s : State) : Host.Outcome State Fault Refusal :=
  s.live fun s =>
    if s.rd MER.STAT_STATE = 2 then
      let s := s.advanceUp (s.mer.hoLast + ms)
      let s := { s with mer := { s.mer with hoLast := s.mer.uptime } }
      let e := s.holdoverScaled (s.mer.uptime - s.mer.hoStart)
      let s := s.wr MER.HO_EST_EST_NS (satNat 32 (e / (2000 * sec * ns)))
      if s.rd MER.HO_LIMIT_LIMIT_NS * (2000 * sec * ns) < e ∧ !s.on MER.STAT_HO_EXCEEDED then
        (s.wr MER.STAT_HO_EXCEEDED 1).raise 0x08 5
      else s
    else s

/-- The Meridian and the uptime counter latched (R89). -/
def State.snapshot (s : State) : State :=
  let s := { s with mer := { s.mer with snapMer := s.mer.mer, snapUp := s.mer.uptime } }
  let s := (((s.wr MER.TIME_S_LO (s.mer.mer / sec)).wr MER.TIME_S_HI (s.mer.mer / sec / 2 ^ 32)).wr
    MER.TIME_NS (s.mer.mer % sec / ns)).wr MER.TIME_FRAC (s.mer.mer % ns)
  (s.wr MER.UPTIME_UP_LO (s.mer.uptime / ns)).wr MER.UPTIME_UP_HI (s.mer.uptime / ns / 2 ^ 32)

/-- SNAPSHOT_READ (R89): a read of MER_TIME_S_LO. -/
def execSnapshotRead (s : State) : Host.Outcome State Fault Refusal :=
  s.live fun s => s.busRead 0x08 0x048 fun s =>
    let s := s.snapshot
    s.emit (.readData 0x08 0x048 (s.rd MER.TIME_S_LO))

end Sys2Proof.Machine
end

