-- ==== Sys2Proof/Machine/Pair.lean ====
section
/-! DEFINITION. What the pair of hubs shares with the link (14): terms, the Colours and the lease (R497 to R504), and the rate-only
discipline of a standby (R86). CLR_STAT.STATE: 0 OFF, 1 JOINING, 2 RESYNC, 3 STANDBY, 4 FLYING, 5 FAULTY. -/

namespace Sys2Proof.Machine

/-- The pair's state changed. -/
def State.modPair (s : State) (f : PairState → PairState) : State := { s with pair := f s.pair }

/-- The hub compares and takes part: STANDBY or FLYING. -/
def State.clrActive (s : State) : Bool := s.clr == 3 || s.clr == 4

/-- Term `a` is newer than term `b` (R497). -/
def termNewer (a b : Nat) : Bool :=
  let d := (a + 65536 - b % 65536) % 65536
  decide (1 ≤ d ∧ d ≤ 32767)

/-- The unit that owns a term: A the odd ones (R497). -/
def termOwner (t : Nat) : Nat := if t % 2 = 1 then 0 else 1

/-- The next term that a unit owns after the newest seen (R498). -/
def nextTerm (unit seen : Nat) : Nat :=
  (((List.range 4).map fun k => (seen + 1 + k) % 65536).find? fun t => t != 0 && termOwner t == unit).getD 0

/-- TERM of the headers (Table 14-3). -/
def State.headTerm (s : State) : Nat := if s.clrActive then s.rd CLR.STAT_TERM else 0

/-- LEASE of the headers (Table 14-3). -/
def State.headLease (s : State) : Nat := if s.clr = 0 then 0 else s.rd CLR.CFG_LEASE

/-- The newest term seen, with its owner. -/
def State.setTerm (s : State) (t : Nat) : State :=
  let was := s.rd CLR.STAT_TERM
  let s := (s.wr CLR.STAT_TERM t).wr CLR.STAT_HOLDER (termOwner t)
  if was = 0 ∨ termOwner was ≠ termOwner t then s.modPair fun p => { p with changed := s.mer.uptime } else s

/-- A claim of the Colours (R498): the hub flies them from now on. -/
def State.claim (s : State) : State :=
  let s := (s.setTerm (nextTerm s.unit (s.rd CLR.STAT_TERM))).wr CLR.STAT_STATE 4
  let s := s.modPair fun p => { p with leaseRun := 0, hoB := none, hoAcked := false, ackB := none, verdict := none }
  (s.inc CLR.CNT2_CLAIMS).raise 0x90 0

/-- PEER_LOST set and raised (Table 14-4). -/
def State.peerLost (s : State) : State := (s.wr CLR.STAT_PEER_LOST 1).raise 0x90 3

/-- RESYNC entered, with the transfer asked for (R515). -/
def State.enterResync (s : State) : State :=
  (s.wr CLR.STAT_STATE 2).modPair fun p => { p with transfer := true, items := [], goodRun := 0, adopted := false, ready := false, rebuilt := 0 }

/-- The Colours struck (R504). -/
def State.strike (s : State) (nxt : Nat) : State :=
  let s := (s.inc CLR.CNT2_STRIKES).raise 0x90 1
  if nxt = 2 then s.enterResync else s.wr CLR.STAT_STATE nxt

/-- A handover that this hub proposed is pending or has just completed (Table 14-4). -/
def State.handingOver (s : State) : Bool :=
  s.pair.hoB.isSome || (match s.pair.hoDone with | none => false | some b => decide ((s.mer.seq + 2 ^ 32 - b) % 2 ^ 32 ≤ 2))

/-- A term seen in a checked header or in a STRIDE frame (R504, Table 14-4). -/
def State.seeTerm (s : State) (t : Nat) : State :=
  if !s.paired || t == 0 then s
  else
    let seen := s.rd CLR.STAT_TERM
    let newer := seen == 0 || termNewer t seen
    let s := if newer then s.setTerm t else s
    match s.clr with
    | 1 => if termOwner t = s.unit ∨ s.on TWN.STAT_BUDGET_FAIL then s else s.enterResync
    | 4 =>
      if newer then
        if s.handingOver then (s.strike 3).modPair fun p => { p with hoB := none, hoAcked := false }
        else (s.strike 2).raise 0x90 2
      else s
    | _ => s

/-- The peer has been heard. -/
def State.hearPeer (s : State) : State :=
  (s.wr CLR.STAT_PEER_LOST 0).modPair fun p => { p with heard := s.mer.uptime }

/-- The Meridian of a hub that follows, driven by its offset from the holder's with the rate-only rule of R56 (R86). -/
def State.slewTo (s : State) (off : Int) : State :=
  let l := (off :: s.pair.offsets).take 16
  let s := (s.wrS MER.OFFSET 0 (satInt 32 (off.tdiv ns))).modPair fun p => { p with offsets := l }
  { s with mer := { s.mer with freq := Config.twinFreq l, phase := s.phaseFor off false } }.showRate

/-- A twin frame sent on both lanes (R488, R489), with its TAG under the twin key (R569) and its CRC-32. -/
def State.twinSend (s : State) (typ : Nat) (payload : Bytes) : State :=
  let f := s.pair.fseq
  let h := leBytes 1 typ ++ leBytes 1 (s.unit + 2 * s.clr) ++ leBytes 2 payload.length ++ leBytes 4 f ++ leBytes 4 s.mer.seq ++ leBytes 4 0
  let nonce := leBytes 1 6 ++ leBytes 1 s.unit ++ leBytes 1 typ ++ leBytes 1 0 ++ leBytes 4 f ++ leBytes 4 0
  let b := h ++ payload ++ tagBytes 8 s.pair.key nonce (h ++ payload)
  let x := b ++ leBytes 4 (crc32 b)
  (((s.modPair fun p => { p with fseq := (f + 1) % 2 ^ 32 }).sendLane 0 x).sendLane 1 x).emit (.twin typ x)

/-- The twin link is lost (R492). -/
def State.twinLost (s : State) : Bool := s.on TWN.STAT_TWIN_LOST

end Sys2Proof.Machine
end

