-- ==== Sys2Proof/Machine/Survey.lean ====
section
/-! DEFINITION. Survey capture (13, R459 to R476): groups, records, fires, and the arming that hoist headers carry. -/

namespace Sys2Proof.Machine

/-- The capture state changed. -/
def State.modSvy (s : State) (f : SvyState → SvyState) : State := { s with svy := f s.svy }

/-- Bytes of SRAM that the capture takes: 8 MB in the hub, 2 MB in the cell (R462). -/
def State.svySize (s : State) : Nat := if s.isCell then 0x200000 else 0x800000

/-- The channels captured: SVY_CFG.CH_EN, two in the cell; a capture keeps those of its arm (assumption 171). -/
def State.svyChans (s : State) : List Nat :=
  bitList (if s.rd SVY.STAT_STATE = 0 then s.rd SVY.CFG_CH_EN else s.svy.mask) (if s.isCell then 2 else 8)

/-- The bytes of one group (R459). -/
def State.svyGroup (s : State) : Nat := 16 + 128 * s.svyChans.length

/-- Log mode; a cell records always (R471). -/
def State.svyLog (s : State) : Bool := s.on SVY.CTL_MODE && !s.isCell

/-- Segments of the capture area (R462). -/
def State.svySegs (s : State) : Nat := 2 ^ (if s.rd SVY.STAT_STATE = 0 then s.rd SVY.CFG_NREC else s.svy.nrec)

/-- The cycle of the island that serves the SVY page: island 30 and, in the cell, island 20, both at 250 MHz. -/
def cyc250 : Nat := 4 * ns

/-- G_max of a segment (R462); in log mode the slots of the whole area (R471). -/
def State.svyGmax (s : State) : Nat :=
  if s.svyLog then s.svySize / s.svyGroup else (s.svySize / s.svySegs - 256) / s.svyGroup

/-- The BAR2 offset of a segment. -/
def State.svyBase (s : State) (seg : Nat) : Nat := 0x500000 + seg * (s.svySize / s.svySegs)

/-- ARM (R464, Table 13-3) in IDLE. -/
def State.svyArm (s : State) : State :=
  if s.rd SVY.STAT_STATE = 0 then
    let s := s.wr SVY.STAT_G_MAX s.svyGmax
    if !s.svyLog && decide (s.svyGmax < s.rd SVY.LEN_PRE + s.rd SVY.LEN_POST + 1) then s.raise 0x88 5
    else
      match (List.range s.svySegs).find? fun k => s.svyLog || !bitOf (s.rd SVY.REC_FULL) k with
      | none => (s.inc SVY.CNT2_ARM_REFUSED).raise 0x88 4
      | some seg =>
        let k := s.rd SVY.CTL_DEC_MIN
        let ins := s.rdA SVY.PAT_IN 0 0 + 2 ^ 32 * s.rdA SVY.PAT_IN 0 1
        let m := s.rd SVY.PAT_MASK_LO + 2 ^ 32 * s.rd SVY.PAT_MASK_HI
        let v := s.rd SVY.PAT_VALUE_LO + 2 ^ 32 * s.rd SVY.PAT_VALUE_HI
        let s := ((s.wr SVY.STAT_STATE 1).wr SVY.STAT_SEG seg).wr SVY.STAT_DEC k
        { s with svy := { s.svy with
            armTime := s.merNs, gseq := 0, pre := s.rd SVY.LEN_PRE, post := s.rd SVY.LEN_POST, mask := s.rd SVY.CFG_CH_EN, nrec := s.rd SVY.CFG_NREC,
            trigG := 0, trigSample := 0, src := 0, time := 0, epoch := 0, fireSeq := 0xFFFFFFFF, ring := 0xFFFF, cell := 0,
            preShort := false, halved := false, gap := false, ovr := false, frozen := false, epochChg := false,
            decMax := k, lost := false, trigNext := false, epochAt := s.rd MER.STAT_EPOCH
            patReady := !s.on SVY.PAT_ENTRY || (ins &&& m) != (v &&& m) } }
  else s

/-- SVY_ARM (R464). -/
def execSvyArm (s : State) : Host.Outcome State Fault Refusal :=
  s.live fun s => s.actWrite 0x88 0x040 1 fun s => s.svyArm

/-- The header carries SURVEY_ARM on ring `r` (R472, R474, R475). -/
def State.armsCells (s : State) (r : Nat) : Bool :=
  s.on SVY.CTL_CELLS && bitOf (s.rd SVY.RINGS_LO + 2 ^ 32 * s.rd SVY.RINGS_HI) r
    && ((s.rd SVY.STAT_STATE == 1 && s.svy.hold == 0) || s.svy.disarm.contains r)

/-- TRIG_TIME of a fire (R469): the sample instant, or that of the island cycle. -/
def fireTime (src t : Nat) : Nat := if src ≤ 3 then t else t / cyc250 * cyc250

/-- A fire that falls on the same sample or in the same cycle as the one taken (R469): the lowest code stands. -/
def State.joinFire (s : State) (src sample t fireSeq : Nat) : State :=
  if src < s.svy.src then
    s.modSvy fun v => { v with trigSample := sample % 64, src := src, time := fireTime src t, fireSeq := fireSeq }
  else s

/-- A fire (R464, R465, R469): source of Table 13-5, sample of the trigger group, instant, hoist SEQ, ring and cell learned. -/
def State.svyFire (s : State) (src sample t fireSeq ring cell : Nat) : State :=
  if s.svyLog then
    if s.rd SVY.STAT_STATE = 0 then s else (s.modSvy fun v => { v with trigNext := true }).raise 0x88 0
  else
    match s.rd SVY.STAT_STATE with
    | 0 => s
    | 1 =>
      let s := { s with svy := { s.svy with
        trigG := s.svy.gseq, trigSample := sample % 64, src := src, time := fireTime src t, epoch := s.rd MER.STAT_EPOCH, fireSeq := fireSeq,
        ring := ring, cell := cell, pattern := s.rdA SVY.PAT_IN 0 0 + 2 ^ 32 * s.rdA SVY.PAT_IN 0 1,
        preShort := decide (s.svy.gseq < s.svy.pre), hold := 2, trigNext := true
        fireCell := s.isCell && decide (src ≤ 4) } }
      ((s.wr SVY.STAT_STATE 2).raise 0x88 0)
    | _ =>
      if sameCycle cyc250 t s.svy.time then s.joinFire src sample t fireSeq
      else (s.inc SVY.CNT_FIRE_IGNORED).raise 0x88 6

/-- A fire with its mark in the cell's uplink (R473). -/
def State.svyFireHere (s : State) (src sample t : Nat) : State :=
  let was := s.rd SVY.STAT_STATE == 1
  let s := s.svyFire src sample t 0xFFFFFFFF 0xFFFF 0
  if was && s.isCell then { s with cell := { s.cell with survFired := true } } else s

/-- FORCE (R469). -/
def execForce (s : State) : Host.Outcome State Fault Refusal :=
  s.live fun s => s.actWrite 0x88 0x040 4 fun s => s.svyFireHere 4 0 s.mer.mer

/-- The record in progress discarded (Table 13-3). -/
def State.svyIdle (s : State) : State := s.wr SVY.STAT_STATE 0

/-- A write of SVY_REC.FREE (R464). -/
def State.svyFree (s : State) (mask : Nat) : State :=
  s.wr SVY.REC_FULL ((List.range 8).foldl (fun m k => if bitOf mask k then putBit m k false else m) (s.rd SVY.REC_FULL))

/-- SEGMENT_FREE (R464). -/
def execSegmentFree (mask : Nat) (s : State) : Host.Outcome State Fault Refusal :=
  s.live fun s => s.busWrite 0x88 0x05C (256 * (mask % 256)) fun s => s.svyFree mask

/-- A CNF code in its channel's format (R425). -/
def State.cnfCode (s : State) (ch code : Nat) : Int :=
  if s.onA CNF.CH_POLARITY 0 ch then sext 14 code else (code % 16384 : Nat)

/-- A field's code in the same format. -/
def State.cnfLimit (s : State) (ch : Nat) (f : RegField) : Int :=
  if s.onA CNF.CH_POLARITY 0 ch then sext 14 (s.rdA f 0 ch) else (s.rdA f 0 ch : Nat)

/-- A sample word lies beyond an enabled limit of channel `ch` (R466); OVR counts as beyond both. -/
def State.beyondLevel (s : State) (ch w : Nat) : Bool :=
  (s.onA SVY.LVL_EN_HI 0 ch && (bitOf w 14 || decide (s.cnfLimit ch SVY.LVL_HI < s.cnfCode ch w)))
    || (s.onA SVY.LVL_EN_LO 0 ch && (bitOf w 14 || decide (s.cnfCode ch w < s.cnfLimit ch SVY.LVL_LO)))

/-- The level comparator is true at the newest of `ws`, newest first (R466). -/
def State.levelTrue (s : State) (ch : Nat) (ws : List Nat) : Bool :=
  let h := max 1 (s.rdA SVY.LVL_HOLD 0 ch)
  decide (h ≤ ws.length) && (ws.take h).all (s.beyondLevel ch)

/-- The slope comparator is true at the newest of `ws`, newest first (R467). -/
def State.slopeTrue (s : State) (ch : Nat) (ws : List Nat) : Bool :=
  match ws.head?, ws[max 1 (s.rdA SVY.SLP_SPAN 0 ch)]? with
  | some a, some b =>
    let d := s.cnfCode ch a - s.cnfCode ch b
    (s.onA SVY.SLP_EN_POS 0 ch && decide ((s.rdA SVY.SLP_DELTA 0 ch : Int) < d))
      || (s.onA SVY.SLP_EN_NEG 0 ch && decide (d < -(s.rdA SVY.SLP_DELTA 0 ch : Int)))
  | _, _ => false

/-- Survey runs: stream mode and the channel exists in the role (R459). -/
def State.svyStream (s : State) (ch : Nat) : Bool := !s.cnfScan && (!s.isCell || decide (ch < 2))

/-- A comparator bit of SVY_PAT_IN given a level (Table 13-4). -/
def State.patBit (s : State) (i : Nat) (b : Bool) : State :=
  s.wrA SVY.PAT_IN 0 (i / 32) (putBit (s.rdA SVY.PAT_IN 0 (i / 32)) (i % 32) b)

/-- LEVEL_TRIGGER (R466): sample words of channel `ch`, newest first, the newest at Meridian instant `t` and position
`sample` of its group. -/
def execLevelTrigger (ch : Nat) (words : List Nat) (t sample : Nat) (s : State) : Host.Outcome State Fault Refusal :=
  s.live fun s =>
    let s := s.advanceTo t
    if s.svyStream ch then
      let now := s.levelTrue ch words
      let s := s.patBit ch now
      if now && !s.levelTrue ch words.tail && s.onA SVY.LVL_FIRE 0 ch then s.svyFireHere 1 sample t else s
    else s

/-- SLOPE_TRIGGER (R467). -/
def execSlopeTrigger (ch : Nat) (words : List Nat) (t sample : Nat) (s : State) : Host.Outcome State Fault Refusal :=
  s.live fun s =>
    let s := s.advanceTo t
    if s.svyStream ch then
      let now := s.slopeTrue ch words
      let s := s.patBit (8 + ch) now
      if now && !s.slopeTrue ch words.tail && s.onA SVY.SLP_FIRE 0 ch then s.svyFireHere 2 sample t else s
    else s

/-- The pattern inputs (Table 13-4): those that the role has, and in a cell those that its registers hold. -/
def State.patInputs (s : State) (x : Nat) : Nat :=
  if s.isCell then
    (x &&& 0x0300F00000800303) + 0x10000 * s.rd EDG.TRIP_STAT_IN + 0x100000 * s.rd CEL.STAT_OV1 + 0x200000 * s.rd CEL.STAT_OV2
      + 0x400000 * s.rd CEL.STAT_BYPASS_ORDERED + 0x1000000 * ofBool (s.on GDR.LATCH_DSAT0 || s.on GDR.LATCH_DSAT1)
  else x &&& 0xFFFF0FFFFFFFFFFF

/-- PATTERN_TRIGGER (R468): the 64 inputs of Table 13-4 at a sample. -/
def execPatternTrigger (inputs t sample : Nat) (s : State) : Host.Outcome State Fault Refusal :=
  s.live fun s =>
    let s := s.advanceTo t
    let inputs := s.patInputs inputs
    let s := (s.wrA SVY.PAT_IN 0 0 inputs).wrA SVY.PAT_IN 0 1 (inputs / 2 ^ 32)
    let m := s.rd SVY.PAT_MASK_LO + 2 ^ 32 * s.rd SVY.PAT_MASK_HI
    let v := s.rd SVY.PAT_VALUE_LO + 2 ^ 32 * s.rd SVY.PAT_VALUE_HI
    if (inputs &&& m) = (v &&& m) then
      if s.on SVY.PAT_EN && s.svy.patReady && s.svyStream 0 then s.svyFireHere 3 sample t else s
    else { s with svy := { s.svy with patReady := true } }

/-- The sample word of `d` raw words: the mean of their codes to nearest, ties to even, with OVR when any had it (R461). -/
def State.meanWord (s : State) (ch : Nat) (ws : List Nat) : Nat :=
  let sum := ws.foldl (fun (a : Int) w => a + s.cnfCode ch w) 0
  wrapTo 14 (divNearestEven sum (max 1 ws.length)) + 16384 * ofBool (ws.any fun w => bitOf w 14)

/-- The 64 sample words of a channel's block. -/
def State.blockWords (s : State) (ch d : Nat) (raw : List Nat) : List Nat :=
  (List.range 64).map fun i => s.meanWord ch ((raw.drop (i * d)).take d)

/-- The header of a complete record (R463, Table 13-2). -/
def State.svyHeader (s : State) : Bytes :=
  let v := s.svy
  let pre := min v.trigG v.pre
  let g := max 1 s.svyGmax
  let role := if s.isCell then 0 else if s.isBranch then 2 else 1
  let st := 1 + 2 * ofBool v.preShort + 4 * ofBool v.halved + 8 * ofBool v.gap + 16 * ofBool v.ovr + 32 * ofBool v.frozen
    + 64 * ofBool v.epochChg
  let b := leBytes 4 0x59525653 ++ leBytes 2 1 ++ leBytes 1 (role + 4 * s.rd SYS.STRAP_UNIT) ++ leBytes 1 v.mask
    ++ leBytes 2 (if s.isCell then s.cell.ring else 0) ++ leBytes 2 (if s.isCell then s.rd BNC.CELL_INDEX else 0)
    ++ leBytes 4 (pre + 1 + v.post) ++ leBytes 4 ((v.trigG - pre) % g) ++ leBytes 4 v.trigG ++ leBytes 1 v.trigSample
    ++ leBytes 1 v.src ++ leBytes 1 st ++ leBytes 1 v.decMax ++ leBytes 8 (nsOf v.time) ++ leBytes 2 v.time ++ leBytes 1 v.epoch
    ++ leBytes 1 0 ++ leBytes 2 v.pre ++ leBytes 2 v.post ++ leBytes 8 v.armTime ++ leBytes 4 v.fireSeq
    ++ leBytes 2 (if s.isCell then 0xFFFF else v.ring) ++ leBytes 2 v.cell ++ leBytes 8 v.pattern ++ List.replicate 184 0
  b ++ leBytes 4 (crc32 b)

/-- A complete record (Table 13-3): header, full mark, REC_DONE, and the state after DONE. -/
def State.svyDone (s : State) : State :=
  let seg := s.rd SVY.STAT_SEG
  let s := (s.memPut (s.svyBase seg) s.svyHeader).wrBit SVY.REC_FULL seg true
  let s := (s.raise 0x88 1).wr SVY.STAT_STATE 0
  if s.on SVY.CTL_AUTO_REARM && ((List.range s.svySegs).any fun k => !bitOf (s.rd SVY.REC_FULL) k) then s.svyArm else s

/-- The groups of the log ring that software has not consumed (R471). -/
def State.svyUnread (s : State) : Nat :=
  let g := max 1 s.svyGmax
  (s.rd SVY.LOG_WR + g - s.rd SVY.LOG_RD % g) % g

/-- A capture group written (R459 to R461, R470, R471): a group whose first sample lies at Meridian instant `t`, the raw sample words of
the enabled channels, whether a channel was FROZEN, and the bytes in the FIFO. -/
def State.groupWritten (s : State) (t : Nat) (raw : List (List Nat)) (frozen : Bool) (fifo : Nat) : State :=
    if s.cnfScan ∨ s.rd SVY.STAT_STATE = 0 then s
    else
      let k := s.rd SVY.STAT_DEC
      let g := max 1 s.svyGmax
      let slot := if s.svyLog then s.rd SVY.LOG_WR else s.svy.gseq % g
      let full := decide (0x10000 ≤ fifo) || (s.svyLog && decide (g ≤ s.svyUnread + 1))
      let s := if full then
          ((s.modSvy fun v => { v with lost := true, gap := true }).inc SVY.CNT2_GAPS).raise 0x88 3
        else
          let blocks := (List.range s.svyChans.length).map fun i => s.blockWords (s.svyChans.getD i 0) (2 ^ k) (raw.getD i [])
          let ovr := blocks.any fun b => b.any fun w => bitOf w 14
          let chg := s.svy.epochAt != s.rd MER.STAT_EPOCH
          let trig := if s.svyLog then s.svy.trigNext else s.svy.trigNext && s.svy.gseq == s.svy.trigG
          let fl := ofBool trig + 2 * ofBool s.svy.lost + 4 * ofBool ovr + 8 * ofBool frozen + 16 * ofBool chg
          let tag := leBytes 8 (nsOf t) ++ leBytes 2 t ++ leBytes 1 k ++ leBytes 1 fl ++ leBytes 4 s.svy.gseq
          let a := if s.svyLog then 0x500000 + slot * s.svyGroup else s.svyBase (s.rd SVY.STAT_SEG) + 256 + slot * s.svyGroup
          let s := s.memPut a (tag ++ (blocks.map fun b => (b.map fun w => leBytes 2 w).flatten).flatten)
          let s := if s.svyLog then s.wr SVY.LOG_WR ((slot + 1) % g) else s
          { s with svy := { s.svy with
              gseq := s.svy.gseq + 1, lost := false, trigNext := s.svy.trigNext && !trig, ovr := s.svy.ovr || ovr,
              frozen := s.svy.frozen || frozen, epochChg := s.svy.epochChg || chg, epochAt := s.rd MER.STAT_EPOCH } }
      let high := decide (0xC000 ≤ fifo) || (s.svyLog && decide (3 * g ≤ 4 * s.svyUnread))
      let s := if high && decide (k < 7) then
          (((s.wr SVY.STAT_DEC (k + 1)).modSvy fun v => { v with halved := true, decMax := max v.decMax (k + 1) }).inc
            SVY.CNT_HALVINGS).raise 0x88 2
        else s
      if s.rd SVY.STAT_STATE == 2 && decide (s.svy.trigG + s.svy.post < s.svy.gseq) then s.svyDone else s

/-- GROUP_WRITTEN (R470). -/
def execGroupWritten (t : Nat) (raw : List (List Nat)) (frozen : Bool) (fifo : Nat) (s : State) : Host.Outcome State Fault Refusal :=
  s.live fun s => s.groupWritten t raw frozen fifo

/-- LOG_RATE_DOWN (R471): k falls after 1 ms below a quarter. -/
def execLogRateDown (s : State) : Host.Outcome State Fault Refusal :=
  s.live fun s =>
    if s.svyLog && decide (4 * s.svyUnread < max 1 s.svyGmax) && decide (s.rd SVY.CTL_DEC_MIN < s.rd SVY.STAT_DEC) then
      s.wr SVY.STAT_DEC (s.rd SVY.STAT_DEC - 1)
    else s

/-- Words of the capture area from SVY_RD_ADDR, which then advances (R476). -/
def State.svyWords (s : State) (n : Nat) : State × List Nat :=
  let a := s.rd SVY.RD_ADDR
  let ws := (List.range n).map fun i => s.memLe (0x500000 + (a + 4 * i) % s.svySize) 4
  let s := s.noteRead (0x500000 + a) (4 * n)
  (if s.on SVY.RD_ADDR_AUTOINC then s.wr SVY.RD_ADDR ((a + 4 * n) % s.svySize) else s, ws)

/-- SVY_RD_DATA (R476): a read of `words` words of the window. -/
def execSvyRdData (words : Nat) (s : State) : Host.Outcome State Fault Refusal :=
  s.live fun s => s.busRead 0x88 0x140 fun s =>
    let r := s.svyWords (min 12 words)
    (List.range r.2.length).foldl (fun s i => s.emit (.readData 0x88 (0x140 + 4 * i) (r.2.getD i 0))) r.1

end Sys2Proof.Machine
end

