-- ==== Sys2Proof/Machine/Link.lean ====
section
/-! DEFINITION. The hub's end of the Bunting link (03): rings and their ends (R94 to R97), keys (R564), port rings and pennant
transactions (R113 to R117, R28), the hoists launched (R31, R96, R98, R143, R513), and what changes of ports do (R93, R128, R129, R674). -/

namespace Sys2Proof.Machine

/-- What the hub keeps of a ring. -/
def State.ring (s : State) (r : Nat) : Ring := (Sparse.get s.rings r).getD emptyRing

/-- What the hub keeps of a ring changed. -/
def State.modRing (s : State) (r : Nat) (f : Ring → Ring) : State :=
  { s with rings := Sparse.put s.rings r (some (f (s.ring r))) }

/-- A port ring. -/
def State.port (s : State) (p : Nat) : PortRing := (Sparse.get s.prt p).getD emptyPort

/-- A port ring changed. -/
def State.modPort (s : State) (p : Nat) (f : PortRing → PortRing) : State :=
  { s with prt := Sparse.put s.prt p (some (f (s.port p))) }

/-- TOPO of a ring: 0 off, 1 ring, 2 dual-ended, 3 chain. -/
def State.topo (s : State) (r : Nat) : Nat := s.rdA BNC.RING_TBL_TOPO 0 r

/-- State of a ring (BNC_RING_TBL). -/
def State.ringSt (s : State) (r : Nat) : Nat := s.rdA BNC.RING_TBL_STATE 0 r

/-- The ring is in service, wrapped or not. -/
def State.inService (s : State) (r : Nat) : Bool := s.ringSt r == 5 || s.ringSt r == 6

/-- The local ends of a ring: direction of the hoist that leaves the end, and its port (R94, R96). -/
def State.ends (s : State) (r : Nat) : List (Nat × Nat) :=
  let w := (0, s.rdA BNC.RING_TBL_WEST_PORT 0 r)
  let e := (1, s.rdA BNC.RING_TBL_EAST_PORT 0 r)
  match s.topo r with
  | 1 => [w, e]
  | 2 => (if s.onA BNC.RING_TBL_WEST_REMOTE 0 r then [] else [w]) ++ (if s.onA BNC.RING_TBL_EAST_REMOTE 0 r then [] else [e])
  | 3 => [w]
  | _ => []

/-- The hub holds the west end of a ring, which eastbound hoists leave (R96). -/
def State.westHere (s : State) (r : Nat) : Bool := (s.ends r).any fun e => e.1 == 0

/-- The ring of which a port is a local end, with the direction that leaves there. -/
def State.portRing (s : State) (p : Nat) : Option (Nat × Nat) :=
  (List.range 48).findSome? fun r => ((s.ends r).find? fun e => e.2 == p).map fun e => (r, e.1)

/-- The port of a ring that requests and key messages leave by: the west port, or the local east port of a dual-ended ring whose west end is on
the other hub. There the spec names no port for the SILENT entry of R130 and the requests. DESIGN CHOICE, unsafe (assumption 158). -/
def State.homePort (s : State) (r : Nat) : Nat := ((s.ends r).headD (0, 0)).2

/-- A ring runs generation-1 framing (R139). -/
def State.legacyRing (s : State) (r : Nat) : Bool := s.onI BNT.PORT_CTL_LEGACY (s.homePort r) || s.on SYS.STRAP_LGCY

/-- Cells of a ring. -/
def State.ringN (s : State) (r : Nat) : Nat := s.rdA BNC.RING_TBL_N 0 r

/-- The Cell table entry of a cell (BNC_RING_TBL.CELL_BASE). -/
def State.entryOf (s : State) (r cell : Nat) : Nat := (s.rdA BNC.RING_TBL_CELL_BASE 0 r + cell - 1) % 8192

/-- The key that KEY_IDX names (R564, R571): the bring-up key until a ring key is held. -/
def keyNamed (key : Bytes) (keyIdx : Nat) (next : Bytes) (nextIdx idx : Nat) : Option Bytes :=
  if idx = 0 then (if keyIdx = 0 then some bringUpKey else none)
  else if idx = keyIdx then some key
  else if idx = nextIdx then some next
  else none

/-- The key of a ring that KEY_IDX names. -/
def Ring.keyOf (r : Ring) (idx : Nat) : Option Bytes := keyNamed r.key r.keyIdx r.nextKey r.nextIdx idx

/-- The key in use on a ring. -/
def Ring.keyNow (r : Ring) : Bytes := if r.keyIdx = 0 then bringUpKey else r.key

/-- The time that `n` bytes take on a port: 0.8 ns a byte, 3.2 ns on a generation-1 port. -/
def byteTime (legacy : Bool) (n : Nat) : Nat := if legacy then n * 16 * ns / 5 else n * 4 * ns / 5

/-- The length of the hoists of a ring (R98, R140). -/
def State.ringLen (s : State) (r : Nat) : Nat :=
  if s.legacyRing r then legacyLen (s.ringN r) else hoistLen 32 (s.ringN r)

/-- Rings in service and rings wrapped reported in BNC_STAT. -/
def State.showBnc (s : State) : State :=
  (s.wr BNC.STAT_IN_SERVICE ((List.range 48).filter s.inService).length).wr BNC.STAT_WRAPPED
    ((List.range 48).filter fun r => s.ringSt r == 6).length

/-- A ring given a state. -/
def State.setRing (s : State) (r st : Nat) : State := (s.wrA BNC.RING_TBL_STATE 0 r st).showBnc

/-! Port rings and transactions. -/

/-- The offset of an entry of a port ring (Table 1-4): 128 entries of 32 bytes. -/
def prtSlot (p i : Nat) : Nat := 0xE40000 + 0x1000 * p + 32 * (i % 128)

/-- The bytes of an entry. -/
def PrtEntry.bytes : PrtEntry → Bytes
  | .request q _ => Config.prtEntry 0 q.typ q.target 0 q.payload
  | .done txn target status data => Config.prtEntry 1 txn target status data
  | .timeout txn target => Config.prtEntry 2 txn target 0 []
  | .silent ring index => Config.prtEntry 3 ring index 0 []

/-- An entry written into a port ring with room for it (R27). -/
def State.putPrt (s : State) (p : Nat) (e : PrtEntry) : State :=
  (s.memPut (prtSlot p (s.port p).written) (sliceBytes e.bytes 0 32)).modPort p fun q =>
    { q with entries := q.entries ++ [e], written := q.written + 1 }

/-- An entry for a port ring; a full ring makes its producer wait, which its control block counts (R27, R28). -/
def State.pushPrt (s : State) (p : Nat) (e : PrtEntry) : State :=
  if (s.port p).entries.length < 128 ∧ (s.port p).held = [] then s.putPrt p e
  else s.modPort p fun q => { q with held := q.held ++ [e], full := q.full + 1 }

/-- An entry taken out of a port ring: the first entry that waits is written (R28). -/
def State.dropPrt (s : State) (p : Nat) (e : PrtEntry) : State :=
  let s := s.modPort p fun q => { q with entries := q.entries.erase e }
  match (s.port p).held with
  | [] => s
  | x :: rest => (s.modPort p fun q => { q with held := rest }).putPrt p x

/-- The transaction numbers that this hub may use on a ring (R115). -/
def State.txnNumbers (s : State) (r : Nat) : List Nat :=
  if s.topo r = 2 then (List.range 4).map fun i => 4 * s.unit + i else List.range 8

/-- A free transaction number of a cell. -/
def State.freeTxn (s : State) (r target : Nat) : Option Nat :=
  (s.txnNumbers r).find? fun t => !s.txns.any fun x => x.ring == r && x.target == target && x.txn == t

/-- The request needs a transaction: REG_RD and REG_WR. -/
def PenReq.answered (q : PenReq) : Bool := q.typ == 1 || q.typ == 2

/-- The request waits for a transaction number on a ring: the cell has none free (R115). -/
def State.penBlocked (s : State) (r : Nat) (q : PenReq) : Bool := q.answered && (s.freeTxn r q.target).isNone

/-- A request that a generation-1 pennant cannot carry: more than 5 words (R141). -/
def State.penTooLong (s : State) (r : Nat) (q : PenReq) : Bool := s.legacyRing r && q.answered && decide (5 < leAt q.payload 3 1)

/-- A request enters the port ring of its launching port (R28, R115); one that a generation-1 ring cannot carry is not taken (R141). -/
def State.request (s : State) (p : Nat) (q : PenReq) : State :=
  match s.portRing p with
  | none => s
  | some (r, _) =>
    if s.penTooLong r q then s
    else
      let blocked := s.penBlocked r q
      (if blocked then s.inc BNC.PEN_PEN_WAIT else s).pushPrt p (.request q blocked)

/-- A transaction ended: its number is free. -/
def State.endTxn (s : State) (x : PenTxn) : State :=
  { s with txns := s.txns.filter fun y => !(y.ring == x.ring && y.target == x.target && y.txn == x.txn) }

/-- The first request of a port ring that can be launched, with its number and its entry: of one cell's requests none passes an earlier
one that waits for a number (R115). -/
def pickRequest (free : Nat → Option Nat) : List Nat → List PrtEntry → Option (Nat × PenReq × PrtEntry)
  | _, [] => none
  | waits, .request q c :: rest =>
    if !q.answered then some (0, q, .request q c)
    else
      match if waits.contains q.target then none else free q.target with
      | some t => some (t, q, .request q c)
      | none => pickRequest free (q.target :: waits) rest
  | waits, _ :: rest => pickRequest free waits rest

/-- The request waits for a number and PEN_WAIT has not counted it. -/
def State.uncounted (s : State) (r : Nat) : PrtEntry → Bool
  | .request q false => s.penBlocked r q
  | _ => false

/-- At a request slot, the requests of a port that wait for a number are counted (R115). -/
def State.countWaits (s : State) (r p : Nat) : State :=
  let n := ((s.port p).entries.filter (s.uncounted r)).length
  (s.modPort p fun x => { x with entries := x.entries.map fun e =>
    match e with
    | .request q false => .request q (s.penBlocked r q)
    | e => e }).addCntA BNC.PEN_PEN_WAIT 0 0 n

/-- PEN_REQUEST_LAUNCH (R115): a request of software enters the port ring of its launching port. -/
def execPenRequestLaunch (port typ target : Nat) (payload : Bytes) (s : State) : Host.Outcome State Fault Refusal :=
  s.live fun s => if s.isHub then s.request port ⟨typ, target, payload⟩ else s

/-- A broadcast REG_WR of one word is requested on a ring (R215, R475, R675). -/
def State.broadcastWrite (s : State) (r page ofs value : Nat) : State :=
  s.request (s.homePort r) ⟨2, 0, leBytes 1 page ++ leBytes 2 ofs ++ leBytes 1 1 ++ leBytes 4 value⟩

/-- The transaction of a broadcast REG_WR has ended: the ring's split is in force in its cells (R118 step 7, R675), or its cells are
disarmed (R475). -/
def State.broadcastDone (s : State) (r : Nat) : State :=
  if s.svy.disarm.contains r then s.modSvy fun v => { v with disarm := v.disarm.erase r }
  else if s.ringSt r = 4 then (s.setRing r 5).raise 0x40 0
  else s

/-- A response of a transaction has landed and its command has not yet ended it. -/
def State.rspHeld (s : State) (x : PenTxn) : Bool :=
  s.pens.any fun p => leAt p.data 0 1 == 3 && (s.portRing p.port).map (·.1) == some x.ring && leAt p.data 2 2 == x.target
    && leAt p.data 1 1 % 8 == x.txn

/-- PEN_TMO (R116): a transaction without a response; the timeout falls at the end of its cycle, and a response that has landed by then
counts. -/
def execPenTmo (ring target txn : Nat) (s : State) : Host.Outcome State Fault Refusal :=
  s.live fun s =>
    match s.txns.find? fun x => x.ring == ring && x.target == target && x.txn == txn with
    | none => s
    | some x =>
      if s.rd BNC.CTL_PEN_TMO ≤ (s.mer.seq + 2 ^ 32 - x.seq) % 2 ^ 32 && !s.rspHeld x then
        let s := s.advanceTo (cycleEnd cycPort s.mer.lastS)
        let s := ((s.pushPrt x.port (.timeout txn target)).inc BNC.PEN_PEN_TMO_CNT).raise 0x40 6
        s.endTxn x
      else s

/-- The entry is one that software takes. -/
def PrtEntry.forHost : PrtEntry → Bool
  | .request _ _ => false
  | _ => true

/-- Software takes the first entry of a port ring (R28). -/
def State.freePrt (s : State) (p : Nat) : State :=
  match (s.port p).entries.find? PrtEntry.forHost with
  | some e => s.dropPrt p e
  | none => s

/-! The hoists that the hub launches. -/

/-- The header of a hoist launched now (R31, R99, Table 14-3). -/
def State.hoistHead (s : State) (r dir : Nat) : Head :=
  { start := nsOf s.mer.lastS, term := s.headTerm, lease := s.headLease, keyIdx := (s.ring r).keyIdx,
    flags := ofBool s.mer.stepFlag + 2 * dir + 4 * s.unit + 8 * ofBool (s.armsCells r) + 16 * ofBool (s.ring r).rekey,
    seq := s.mer.seq, ring := r, count := s.ringN r }

/-- Image bytes of a chunk. -/
def chunkSize (legacy : Bool) : Nat := if legacy then 28 else 60

/-- Chunks of the cell image. -/
def State.chunkCount (s : State) (legacy : Bool) : Nat := ceilDiv (s.rd BNC.BOOT_LEN) (chunkSize legacy)

/-- The cell image is streamed to a ring (R143, R118 step 6). -/
def State.streams (s : State) (r : Nat) : Bool :=
  (s.ring r).booting || (s.on BNC.BOOT_CTL_ACTIVE && bitOf (s.rd BNC.BOOT_MASK_LO + 2 ^ 32 * s.rd BNC.BOOT_MASK_HI) r)

/-- The next pennant of the boot stream: a chunk, or BOOT_END after the last (R143). -/
def State.bootPen (s : State) (r : Nat) : State × Bytes :=
  let lg := s.legacyRing r
  let n := s.chunkCount lg
  let pos := (s.ring r).bootPos
  let a := s.rd BNC.BOOT_ADDR + pos * chunkSize lg
  let left := s.rd BNC.BOOT_LEN - pos * chunkSize lg
  let len := if pos < n then min left (chunkSize lg) else 0
  let pen := if pos < n then bootDataBytes pos (s.bytesRead a len)
    else penBody 0x11 0 0 (leBytes 4 n ++ leBytes 4 (s.rd BNC.BOOT_LEN))
  ((s.noteRead a len).modRing r fun x => { x with bootPos := if pos < n then pos + 1 else 0 }, pen)

/-- The DIGEST pennant of R513 (Table 14-6). -/
def State.digestPen (s : State) : Bytes :=
  match s.pair.owns with
  | [] => penBody 0 0 0 []
  | o :: _ =>
    penBody 0x40 (8 * s.unit) 0 (leBytes 4 ((s.mer.seq + 2 ^ 32 - 1) % 2 ^ 32) ++ leBytes 1 s.clr ++ leBytes 1 0
      ++ leBytes 2 s.headTerm ++ leBytes 4 o.inDig ++ leBytes 4 o.outDig)

/-- The lowest-numbered ring in service. -/
def State.firstRing (s : State) : Option Nat := (List.range 48).find? s.inService

/-- A hub's end port released when it sends HOP_RELEASE for hop 1 or hop N+1 (R674). -/
def State.releaseEnd (s : State) (r : Nat) (q : PenReq) : State :=
  if q.typ = 0x31 then
    let hop := leAt q.payload 0 2
    let w := if hop = 1 then (s.ends r).filter fun e => e.1 == 0 else if hop = s.ringN r + 1 then (s.ends r).filter fun e => e.1 == 1 else []
    w.foldl (fun s e => s.wrI BNT.PORT_STAT_UNRELEASED e.2 0) s
  else s

/-- The pennant of a hoist launched now, before its tag (R113, R143, R513). -/
def State.nextPen (s : State) (r port : Nat) : State × Bytes :=
  if s.mer.seq % 2 = 1 then (s, penBody 0 0 0 [])
  else if s.paired && s.twinLost && s.clrActive && s.firstRing == some r then (s, s.digestPen)
  else
    let s := s.countWaits r port
    match pickRequest (s.freeTxn r) [] (s.port port).entries with
    | some (t, q, e) =>
      let s := s.dropPrt port e
      let s := if q.answered then { s with txns := s.txns ++ [⟨r, q.target, t, port, s.mer.seq⟩] } else s
      (s.releaseEnd r q, penBody q.typ (t + 8 * s.unit) q.target q.payload)
    | none => if s.streams r then s.bootPen r else (s, penBody 0 0 0 [])

/-- The 64 bytes of a pennant; BOOT_DATA and KEY_AGREE carry no tag (R112, R565). -/
def sealPen (key : Bytes) (h : Head) (pen : Bytes) : Bytes :=
  if leAt pen 0 1 = 0x10 then sliceBytes pen 0 64
  else if leAt pen 0 1 = 0x20 then sliceBytes pen 0 56 ++ List.replicate 8 0
  else penBytes key h pen []

/-- The bytes of a hoist (R98, R100, R105, R140). -/
def hoistBytes (legacy : Bool) (key : Bytes) (h : Head) (cmd : Nat → Nat) (pen : Bytes) (flip : Bool) : Bytes :=
  let cells := (List.range h.count).map fun sl => cellOfSlot h.dir h.count sl
  if legacy then
    let b := legacyHead h ++ (cells.map fun c => legacySlot (cmd c)).flatten ++ legacyPen pen
    b ++ leBytes 4 (crc32 b)
  else
    let b := headBytes key h ++ (cells.map fun c => slotBytes key h c (cmd c)).flatten ++ sealPen key h pen
    b ++ trailerBytes b 0 0 flip

/-- The launch instant of a port's hoist: a fixed offset after the boundary (R78, R92). -/
def State.launchAt (s : State) (port : Nat) : Nat := s.mer.lastS + s.rdI BNT.LAUNCH_OFS port * (ns / 4)

/-- A hoist of a ring launched from a local end (R31). -/
def State.launchHoist (s : State) (r dir port : Nat) : State :=
  let h := s.hoistHead r dir
  let np := s.nextPen r port
  let data := hoistBytes (s.legacyRing r) (s.ring r).keyNow h (fun c => s.launchCmd (s.entryOf r c)) np.2 false
  (np.1.modRing r fun x => { x with outs := x.outs ++ [⟨s.mer.seq, dir, s.launchAt port⟩] }).sendHoist (s.legacyRing r) port
    (s.launchAt port) data

/-- Hoists still outstanding at instant `t` (R121). -/
def State.closeOuts (s : State) (r t : Nat) : State :=
  s.modRing r fun x => { x with outs := x.outs.filter fun o => decide (t < o.launch + (s.ctr.la + 1) * s.strideT) }

/-- The ring's hoists are launched: in service with RUN, or during bring-up. -/
def State.launches (s : State) (r : Nat) : Bool :=
  (s.inService r && s.on BNC.CTL_RUN) || decide (1 ≤ s.ringSt r ∧ s.ringSt r ≤ 4)

/-- The hoists of a ring launched; a closure in the same cycle is taken first (R121). -/
def State.launchRing (s : State) (r : Nat) : State :=
  if s.launches r then (s.ends r).foldl (fun s e => s.launchHoist r e.1 e.2) (s.closeOuts r s.mer.mer) else s

/-- HOIST_EXPIRE (R121): the hoists of a ring whose time has passed are closed. -/
def execHoistExpire (ring : Nat) (s : State) : Host.Outcome State Fault Refusal :=
  s.live fun s => s.closeOuts ring s.mer.mer

/-! Ports. -/

/-- A cell wraps at a side from now on (R126). -/
def State.startWrap (s : State) (port : Nat) : State :=
  if s.onI BNT.PORT_STAT_WRAPPED port then s else (s.wrI BNT.PORT_STAT_WRAPPED port 1).raise (0x10 + port) 8

/-- A wrap ends (R129). -/
def State.endWrap (s : State) (port : Nat) : State :=
  if s.onI BNT.PORT_STAT_WRAPPED port then (s.wrI BNT.PORT_STAT_WRAPPED port 0).raise (0x10 + port) 9 else s

/-- A lane of the twin link by its port number: 48 TWA, 49 TWB. -/
def laneOf (port : Nat) : Option Nat := if port = 48 then some 0 else if port = 49 then some 1 else none

/-- The port's hops train: always in a hub, and in a cell from ROM_WAIT on (R188, Table 5-1). -/
def State.trains (s : State) : Bool := !s.isCell || (s.rd CEL.STAT_LIFE != 0 && s.rd CEL.STAT_LIFE != 7)

/-- BLOCK_LOCK_LOSS (R93, R126): a port starts a retrain; a cell wraps at that side. -/
def execBlockLockLoss (port : Nat) (s : State) : Host.Outcome State Fault Refusal :=
  s.live fun s =>
    match laneOf port with
    | some l => (s.wrBit TWN.STAT_LANE_LOCK l false).raise 0x41 3
    | none =>
      if !s.trains then s
      else
        let s := ((s.wrI BNT.PORT_STAT_BLOCK_LOCK port 0).wrI BNT.PORT_STAT_RETRAINING port 1).wrI BNT.PORT_STAT_RETRAIN_CNT port 0
        let s := (s.incI BNT.CNT_LINK_LOCK_LOSS port).raise (0x10 + port) 0
        let s := s.wrI BNT.PORT_STAT_UNRELEASED port 1
        if s.isCell && s.onI BNT.PORT_CTL_WRAP_EN port then s.startWrap port else s

/-- RETRAIN_OK (R129, R132, R133): a port gains block lock toward a neighbour of the identity given; a hop that had lost it stays
unreleased, and at its first lock a cell that wrapped there for want of one stops (R126). -/
def execRetrainOk (port neighbour : Nat) (s : State) : Host.Outcome State Fault Refusal :=
  s.live fun s =>
    match laneOf port with
    | some l => s.wrBit TWN.STAT_LANE_LOCK l true
    | none =>
      if !s.trains then s
      else
      let was := s.rdI BNT.PORT_STAT_NEIGHBOUR_ID port
      let retrain := s.onI BNT.PORT_STAT_RETRAINING port
      let down := s.onI BNT.PORT_STAT_HOP_DOWN port
      let s := ((s.wrI BNT.PORT_STAT_BLOCK_LOCK port 1).wrI BNT.PORT_STAT_RETRAINING port 0).wrI BNT.PORT_STAT_HOP_DOWN port 0
      let s := (s.wrI BNT.PORT_STAT_NEIGHBOUR_ID port neighbour).raiseIf retrain (0x10 + port) 1
      let s := s.raiseIf down (0x10 + port) 3
      let s := s.raiseIf (retrain && was != neighbour % 65536) (0x10 + port) 4
      if s.isCell && !s.onI BNT.PORT_STAT_UNRELEASED port then s.endWrap port else s

/-- HOP_DOWN (R128): the retrain budget is spent; the port keeps trying. -/
def execHopDown (port : Nat) (s : State) : Host.Outcome State Fault Refusal :=
  s.live fun s =>
    if s.onI BNT.PORT_STAT_RETRAINING port && !s.onI BNT.PORT_STAT_HOP_DOWN port
        && decide (s.rdI BNT.RETRAIN_BUDGET port ≤ s.rdI BNT.PORT_STAT_RETRAIN_CNT port) then
      (s.wrI BNT.PORT_STAT_HOP_DOWN port 1).raise (0x10 + port) 2
    else s

/-- One stride of the retrains, of a hub's ports or of a cell's (R128). -/
def State.retrainStride (s : State) : State :=
  (List.range 48).foldl (fun s p =>
    if s.onI BNT.PORT_STAT_RETRAINING p then s.incI BNT.PORT_STAT_RETRAIN_CNT p else s) s

end Sys2Proof.Machine
end

