-- ==== Sys2Proof/Machine/Landing.lean ====
section
/-! DEFINITION. What arrives at the hub's ring ports: headers (R503, R504, R86), trailers and uplinks (R108 to R110, R121, R122, R125,
R130, R81, R493, R474, R144), and the Cell table cutoff (R35, R130, R493, R574). -/

namespace Sys2Proof.Machine

/-- A header that passes R106: HCRC and HTAG under the key that KEY_IDX names, or the CRC-16 of a generation-1 header. -/
def headOk (legacy : Bool) (keyOf : Nat → Option Bytes) (near : Nat) (bs : Bytes) : Option Head :=
  if legacy then if legacyHeadOk bs then some (parseLegacyHead near bs) else none
  else
    let h := parseHead bs
    match keyOf h.keyIdx with
    | some k => if hcrcOk bs && htagOk k bs then some h else none
    | none => none

/-- The ports of a hub that belong to a ring are retraining within their budget (R130). -/
def State.ringRetrains (s : State) (r : Nat) : Bool :=
  (s.ends r).any fun e => s.onI BNT.PORT_STAT_RETRAINING e.2 && !s.onI BNT.PORT_STAT_HOP_DOWN e.2

/-- The uplink of hoist `seq` in a Cell table entry, in whichever slot holds it. -/
def State.ulOf (s : State) (e seq : Nat) : Option Bytes :=
  let a := cellAddr e
  if !(s.cellAux e).everLanded then none
  else if s.memLe (a + 20 * s.ctr.slot + 16) 4 = seq then some (s.bytesRead (a + 20 * s.ctr.slot) 16)
  else if s.memLe (a + 20 * (1 - s.ctr.slot) + 16) 4 = seq then some (s.bytesRead (a + 20 * (1 - s.ctr.slot)) 16)
  else none

/-- The last uplink landed of a cell. -/
def State.lastUl (s : State) (e : Nat) : Option Bytes := s.ulOf e (s.cellAux e).lastSeq

/-- The digest of a hoist's landed uplinks (R493). -/
def State.ringDigest (s : State) (r seq : Nat) : Nat :=
  let cells := (List.range (s.ringN r)).map (· + 1)
  let got := cells.filterMap fun i => (s.ulOf (s.entryOf r i) seq).map fun u => (i, u)
  let mask := got.foldl (fun m g => putBit m (g.1 - 1) true) 0
  crc32 (leBytes 32 mask ++ (got.map (·.2)).flatten)

/-- A digest of this hub has been sent for a hoist of a ring. -/
def State.digSent (s : State) (r seq : Nat) : Bool := s.pair.digs.any fun d => d.1 == r && d.2.1 == seq

/-- RING_DIG sent for a hoist of a ring (R493). -/
def State.sendDig (s : State) (r seq : Nat) : State :=
  if s.paired && s.topo r == 2 && !s.digSent r seq then
    let d := s.ringDigest r seq
    let s := s.modPair fun p => { p with digs := ((r, seq, d) :: p.digs).take 512 }
    s.twinSend 2 (leBytes 1 r ++ leBytes 3 0 ++ leBytes 4 seq ++ leBytes 4 d ++ leBytes 4 0)
  else s

/-- A cell fire learned by the hub (R474): source of Table 13-5, SEQ of the hoist, ring and cell. -/
def State.hubFire (s : State) (src seq r cell : Nat) : State :=
  if s.on SVY.CTL_CELLS && bitOf (s.rd SVY.RINGS_LO + 2 ^ 32 * s.rd SVY.RINGS_HI) r then s.svyFire src 0 s.mer.mer seq r cell
  else s

/-- A valid uplink copy of a cell from hoist `seq` (R122, R125, R130, R474): a second copy is discarded without being counted; one older than the
entry's that arrives late is counted and not written. -/
def State.landUplink (s : State) (r port seq cell : Nat) (late : Bool) (ul : Bytes) : State :=
  let e := s.entryOf r cell
  let aux := s.cellAux e
  let s := s.modCell e fun x => { x with fresh := true, utagFails := 0 }
  if aux.everLanded && aux.seqs.contains seq then s
  else
    let s := if late then (s.incI BNT.CNT_LINK_LATE_RETURN port).raise 0x40 5 else s
    if late && aux.everLanded && !seqNewer seq aux.lastSeq then s
    else
      let s := s.memPut (cellAddr e + 20 * s.landingSlot) (sliceBytes ul 0 16 ++ leBytes 4 seq)
      let s := s.modCell e fun x =>
        { x with everLanded := true, lastSeq := seq, seqs := (seq :: x.seqs).take 8, silent := false, silentCnt := 0
                 sinceBack := if aux.silent then 0 else x.sinceBack }
      let s := s.raiseIf aux.silent 0x40 4
      let st := leAt ul 9 2
      let s := if bitOf st 5 then (s.inc CLR.CNT_MISMATCH).raiseIf s.paired 0x90 4 else s
      let s := if s.digSent r seq && !s.pair.lateSent && (seq + s.rdA BNC.RING_TBL_UA 0 r) % 2 ^ 32 == (s.mer.seq + 1) % 2 ^ 32 then s.modPair fun p => { p with late := putBit p.late r true } else s
      if bitOf st 14 then s.hubFire 9 seq r cell else s

/-- The uplink slot of a cell in a received hoist: landed when its UTAG verifies, counted when it fails (R108 to R110). -/
def State.landSlot (s : State) (r port : Nat) (lg : Bool) (key : Bytes) (h : Head) (late : Bool) (data : Bytes) (sl : Nat) : State :=
  let cell := cellOfSlot h.dir h.count sl
  let u := if lg then sliceBytes data (16 + 16 * sl + 6) 10 else sliceBytes data (32 + 32 * sl + 12) 20
  if allZero u then s
  else if lg then
    if leAt u 8 2 = crc16 (sliceBytes u 0 8) then s.landUplink r port h.seq cell late (fromLegacyUplink u)
    else (s.modCell (s.entryOf r cell) fun x => { x with utagBad := true })
  else
    let ul := sliceBytes u 0 16
    if sliceBytes u 16 4 = tagBytes 4 key (linkNonce 3 h cell) ul then s.landUplink r port h.seq cell late ul
    else ((s.modCell (s.entryOf r cell) fun x => { x with utagBad := true }).incI BNT.CNT_LINK_TAG_FAIL port).raise (0x10 + port) 7

/-- BOOT_STATE of a cell as its last landed uplink reports it; none before the first. -/
def State.bootStateOf (s : State) (e : Nat) : Option Nat := (s.lastUl e).map fun u => leAt u 11 1 % 4

/-- Every cell of a ring reports its image running or rejected. -/
def State.ringBooted (s : State) (r : Nat) : Bool :=
  (List.range (s.ringN r)).all fun i => match s.bootStateOf (s.entryOf r (i + 1)) with | some b => decide (2 ≤ b) | none => false

/-- Some cell of a ring reports ROM or loading. -/
def State.ringInRom (s : State) (r : Nat) : Bool :=
  (List.range (s.ringN r)).any fun i => match s.bootStateOf (s.entryOf r (i + 1)) with | some b => decide (b < 2) | none => false

/-- The boot stream ends when every cell of its rings has booted or rejected (R144); a keyed ring streams or goes on to step 7 (R118). -/
def State.bootCheck (s : State) (r : Nat) : State :=
  let mask := s.rd BNC.BOOT_MASK_LO + 2 ^ 32 * s.rd BNC.BOOT_MASK_HI
  let s := if s.on BNC.BOOT_CTL_ACTIVE && ((List.range 48).all fun q => !bitOf mask q || s.ringBooted q) then
      (s.wr BNC.BOOT_CTL_ACTIVE 0).raise 0x40 7
    else s
  if s.ringSt r = 4 && !(s.ring r).splitDue then
    if s.ringBooted r then
      let was := (s.ring r).booting
      (s.modRing r fun x => { x with booting := false, splitDue := true }).raiseIf was 0x40 7
    else if s.ringInRom r && !(s.ring r).booting then s.modRing r fun x => { x with booting := true, bootPos := 0 }
    else s
  else s

/-- LOOP_DRIFT (R81): the trailer's arrival against the survey's prediction, for 16 hoists of a direction. -/
def State.driftCheck (s : State) (r dir launch at_ : Nat) : State :=
  let x := s.ring r
  let want := launch + byteTime (s.legacyRing r) (s.ringLen r) + (if dir = 0 then x.lf else x.lr)
  let off := if want < at_ then at_ - want else want - at_
  let run := if 2 * ns < off then (if dir = 0 then x.driftF else x.driftR) + 1 else 0
  let s := s.modRing r fun x => if dir = 0 then { x with driftF := run } else { x with driftR := run }
  s.raiseIf (run == 16) 0x08 11

/-- Wrapped hoists seen on a ring: the state shows whether it runs wrapped (BNC_RING_TBL.STATE). -/
def State.wrapSeen (s : State) (r dir : Nat) (wrapped : Bool) : State :=
  let s := s.modRing r fun x => { x with wrapMask := if !wrapped && s.topo r == 2 then 0 else putBit x.wrapMask dir wrapped }
  if s.inService r then s.setRing r (if (s.ring r).wrapMask = 0 then 5 else 6) else s

/-- A pennant received with a hoist, held until its own command acts on it: responses, key messages of cells and DIGEST (R114, R673). -/
def State.hubPennant (s : State) (port : Nat) (lg : Bool) (key : Bytes) (h : Head) (tcrc : Bool) (pen : Bytes) : State :=
  let typ := leAt pen 0 1
  let keep := s
  let hold := fun (s : State) => { s with pens := s.pens ++ [⟨s.mer.mer, h.dir, h.seq, h.unit, tcrc, port, pen⟩] }
  if typ = 0 ∨ typ = 0x10 then keep
  else if typ = 0x20 then
    if !lg && (leAt pen 4 1 == 2 || leAt pen 4 1 == 4) then hold s else keep
  else if (h.seq % 2 == 1 && typ == 3) || (typ == 0x40 && h.unit != s.unit) then
    if lg then if legacyPenOk pen then hold s else (s.incI BNT.CNT_LINK_TAG_FAIL port).raise (0x10 + port) 7
    else if ptagOk key h pen [] then hold s
    else (s.incI BNT.CNT_LINK_TAG_FAIL port).raise (0x10 + port) 7
  else keep

/-- The edges that a flag's CMD commands, as offset in 250 ps steps and state, from the state before (Table 3-6). -/
def cmdEdges (start cmd : Nat) : List (Nat × Nat) :=
  let target := bitsOf cmd 2 2
  match bitsOf cmd 6 2 with
  | 0 => if target = start then [] else [(0, target)]
  | 1 => [(bitsOf cmd 8 20, target)]
  | _ => [(bitsOf cmd 8 20, bitsOf cmd 4 2), (bitsOf cmd 28 20, target)]

/-- STATE, LAST_EDGE and INS_HIST of a Cell table entry rebuilt from a CMD of the holder's hoist (R516). -/
def State.rebuildCell (s : State) (h : Head) (cell cmd : Nat) : State :=
  let e := s.entryOf h.ring cell
  let aux := s.cellAux e
  let mode := bitsOf cmd 0 2
  let run := mode = 0
  let es := if run then cmdEdges (aux.state % 4) cmd else []
  let fin := if run then endState (aux.state % 4) es else if mode = 3 then 3 else 0
  let frac := if run then insFraction (aux.state % 4) es (s.strideT / (ns / 4)) else 0
  let last := match es.getLast? with
    | none => aux.lastEdge
    | some x => h.start + (s.ctr.la * s.strideT + x.1 * (ns / 4)) / ns
  State.showEntry (s.modCell e fun y =>
    { y with lastEdge := last, state := y.state / 4 * 4 + fin, hist := (frac :: y.hist).take 12, endStates := (fin :: y.endStates).take 12 }) e

/-- A resynchronising hub reads the flags of the holder's hoist. -/
def State.rebuild (s : State) (r : Nat) (lg : Bool) (h : Head) (data : Bytes) : State :=
  if s.paired && s.clr == 2 && h.unit != s.unit && !lg then
    let s := if s.pair.rebuilt = 0 ∨ s.pair.rebuildSeq ≠ h.seq then s.modPair fun p => { p with rebuilt := p.rebuilt + 1, rebuildSeq := h.seq } else s
    (List.range h.count).foldl (fun s sl => s.rebuildCell { h with ring := r } (cellOfSlot h.dir h.count sl) (leAt data (32 + 32 * sl) 8)) s
  else s

/-- A hoist whose trailer has been received at port `port` of ring `r`; one that comes over a hop not yet released serves neither flags nor timing
(R129). -/
def State.hoistReceived (s : State) (r leave port : Nat) (data : Bytes) : State :=
  let lg := s.legacyRing r
  let at_ := s.mer.mer
  let tOk := tcrcOk data
  let s := if tOk then s else (s.incI BNT.CNT_ERR_CRC_ERR port).raise (0x10 + port) 5
  match headOk lg (s.ring r).keyOf s.mer.seq data with
  | none => (s.incI BNT.CNT_ERR_HDR_ERR port).raise (0x10 + port) 6
  | some h =>
    if h.enum then s
    else
      let own := s.topo r != 2 || h.unit == s.unit
      let out := ((s.ring r).outs).find? fun o => o.seq == h.seq && o.dir == h.dir
      let late := if own then out.isNone else decide (h.start * ns + (s.ctr.la + 1) * s.strideT < at_)
      let launch := match out with | some o => o.launch | none => h.start * ns
      let wrapped := s.topo r != 3 && h.dir == leave
      let s := s.modRing r fun x => { x with outs := x.outs.filter fun o => !(o.seq == h.seq && o.dir == h.dir) }
      let key := ((s.ring r).keyOf h.keyIdx).getD []
      let used := !s.onI BNT.PORT_STAT_UNRELEASED port
      let s := if used then (List.range h.count).foldl (fun s sl => s.landSlot r port lg key h late data sl) s else s
      let s := if used then s.rebuild r lg h data else s
      let s := if wrapped || !used then s else s.driftCheck r h.dir launch at_
      let s := s.wrapSeen r h.dir wrapped
      let fire := if lg then 0 else leAt data (96 + 32 * h.count) 2
      let s := if fire = 0 ∨ !tOk then s else s.hubFire 8 h.seq r fire
      let pen := if lg then sliceBytes data (16 + 16 * h.count) 32 else sliceBytes data (32 + 32 * h.count) 64
      let s := s.hubPennant port lg key h tOk pen
      let s := match s.txns.find? fun x => x.ring == r && x.target == 0 && x.seq == h.seq with
        | some x => (s.endTxn x).broadcastDone r
        | none => s
      (s.sendDig r h.seq).bootCheck r

/-- HOIST_TRAILER_RECEIVED (R121, R125): the hoist `data` has arrived whole at port `port` at Meridian instant `t`. -/
def execHoistTrailerReceived (port t : Nat) (data : Bytes) (s : State) : Host.Outcome State Fault Refusal :=
  s.live fun s =>
    let s := s.advanceTo t
    match s.portRing port with
    | some (r, leave) => if s.isHub && s.ringSt r != 0 && s.ringSt r != 7 then s.hoistReceived r leave port data else s
    | none => s

/-- HUB_HEADER_CHECK (R504, R503, R86): a header of a ring's hoist passes port `port` at Meridian instant `t`. -/
def execHubHeaderCheck (port t : Nat) (head : Bytes) (s : State) : Host.Outcome State Fault Refusal :=
  s.live fun s =>
    let s := s.advanceTo t
    match s.portRing port with
    | none => s
    | some (r, _) =>
      match headOk (s.legacyRing r) (s.ring r).keyOf s.mer.seq head with
      | none => s
      | some h =>
        if s.paired && s.topo r == 2 && h.unit != s.unit then
          let s := if h.lease = 0 then s else s.hearPeer
          let s := s.seeTerm h.term
          let held := h.term != 0 && h.term == s.rd CLR.STAT_TERM && h.unit == s.rd CLR.STAT_HOLDER
          let s := if !held then s
            else s.modPair fun p => if sameCycle cyc400 t s.mer.lastS then { p with leaseRun := 0 } else { p with leaseSeen := true }
          let lat := if h.dir = 0 then (s.ring r).lf else (s.ring r).lr
          if held && s.twinLost && s.clr == 3 && !s.onI BNT.PORT_STAT_UNRELEASED port then s.slewTo ((h.start * ns + lat : Nat) - (t : Int)) else s
        else s

/-- A header that waits to be checked in the cycle of boundary `b` carries the holder's term and UNIT (R503). -/
def State.holderComes (s : State) (b : Nat) : Instr → Bool
  | .hubHeaderCheck port t head =>
    sameCycle cyc400 t b && match s.portRing port with
      | none => false
      | some (r, _) => match headOk (s.legacyRing r) (s.ring r).keyOf s.mer.seq head with
        | none => false
        | some h => s.topo r == 2 && h.unit != s.unit && h.term != 0 && (h.term == s.rd CLR.STAT_TERM || termNewer h.term (s.rd CLR.STAT_TERM))
            && h.unit == termOwner h.term
  | _ => false

/-- A cell at the Cell table cutoff: silence and suspicion counted (R130, R574). -/
def State.cutoffCell (s : State) (r cell : Nat) (retrains : Bool) : State :=
  let e := s.entryOf r cell
  let a := s.cellAux e
  let cnt := if a.fresh then 0 else if retrains then a.silentCnt else a.silentCnt + 1
  let nowSilent := !a.silent && decide (max 1 (s.rd BNC.CTL_SILENT_N) ≤ cnt)
  let fails := if a.fresh then 0 else if a.utagBad then a.utagFails + 1 else a.utagFails
  let nowSuspect := !a.suspect && decide (max 1 (s.rd SEC.RING_SUSPECT_N) ≤ fails)
  let s := s.modCell e fun x =>
    { x with silentCnt := cnt, silent := a.silent || nowSilent, utagFails := fails, suspect := a.suspect || nowSuspect
             utagLast := !a.fresh && a.utagBad, fresh := false, utagBad := false }
  let s := if nowSilent then (s.pushPrt (s.homePort r) (.silent r cell)).raise 0x40 3 else s
  if nowSuspect then (s.inc SEC.CNT_SUSPECTS).raise 0xA0 4 else s

/-- The SEQ of the hoist that compute stride `seq` reads on a ring (R40). -/
def State.hoistRead (s : State) (r seq : Nat) : Nat := (seq + 2 ^ 32 - s.rdA BNC.RING_TBL_UA 0 r) % 2 ^ 32

/-- The twin's part of the cutoff (R493): the digests not yet sent, then the late mask. -/
def State.cutoffTwin (s : State) : State :=
  if s.paired then
    let s := (List.range 48).foldl (fun s r =>
      if s.inService r then s.sendDig r (s.hoistRead r ((s.mer.seq + 1) % 2 ^ 32)) else s) s
    let s := s.twinSend 3 (leBytes 6 s.pair.late ++ leBytes 2 0)
    s.modPair fun p => { p with lateSent := true, lateCut := p.late, late := 0 }
  else s

/-- CELL_TABLE_CUTOFF (R35, R130, R493, R574): at the end of the cycle of S − t_land; `retraining` marks the rings of which a cell's port retrains within its
budget. -/
def execCellTableCutoff (retraining : Nat) (s : State) : Host.Outcome State Fault Refusal :=
  s.live fun s =>
    if s.isHub && !s.ctr.cut then
      let s := s.advanceTo (cycleEnd cyc400 s.cutoffAt)
      let s := { s with ctr := { s.ctr with cut := true } }
      let s := (List.range 48).foldl (fun s r =>
        if s.inService r && s.launches r then
          (List.range (s.ringN r)).foldl (fun s i => s.cutoffCell r (i + 1) (bitOf retraining r || s.ringRetrains r)) s
        else s) s
      s.cutoffTwin
    else s

end Sys2Proof.Machine
end

