-- ==== Sys2Proof/Machine/Bringup.lean ====
section
/-! DEFINITION. Ring bring-up (R118, R79, R80, R120, R40, R95), take-down, the split (R675), trunks (R134 to R138, R570), the boot stream's
start and stop (R143), and the latencies of a hop that has changed (R132). -/

namespace Sys2Proof.Machine

/-- t_hop in ns (Table 1-6, R141). -/
def tHop (legacy : Bool) : Nat := if legacy then 96 else 28

/-- The sum of a list. -/
def sumNat (l : List Nat) : Nat := l.foldl (· + ·) 0

/-- The round trips of a hop's two exchanges added, each less its turnaround: twice the RTT_k of R79 step 1. -/
def hopTwice (m : HopMarks) : Nat := (m.there1 - m.turn1) + (m.there2 - m.turn2)

/-- The delays of each hop from twice its round trip and the ring's asymmetry (R79 step 3), in 2⁻¹⁶ ns, rounded down. -/
def hopDelays (rtt2 : List Nat) (a : Int) : List Nat :=
  let total : Int := max 1 (sumNat rtt2 : Nat)
  rtt2.map fun x => ((x : Int) * (total + 2 * a) / (4 * total)).toNat

/-- L_W of cell `i`: forward delays up to it and the cells before it (R79 step 4). -/
def latWest (df : List Nat) (hop i : Nat) : Nat := sumNat (df.take i) + (i - 1) * hop * ns

/-- L_E of cell `i` among `n` (R79 step 4). -/
def latEast (dr : List Nat) (hop n i : Nat) : Nat := sumNat (dr.drop i) + (n - i) * hop * ns

/-- The figures of R120 of a ring, in fifths of 2⁻¹⁶ ns: delivery, serialization and return time. -/
def State.ringTimes (s : State) (r : Nat) : Nat × Nat × Nat :=
  let lg := s.legacyRing r
  let x := s.ring r
  let n := s.ringN r
  let hop := tHop lg * ns
  let chain := s.topo r == 3
  let fwd := sumNat (x.df.take n)
  let rev := sumNat (x.dr.drop 1)
  let delivery := (if lg then 512 * ns else 256 * ns) + 5 * (n * hop + max fwd rev)
  let ser := s.ringLen r * (if lg then 16 * ns else 4 * ns)
  let ret := ser + 5 * (if chain then 2 * fwd + (2 * n - 1) * hop else max x.lf x.lr)
  (delivery, ser, ret)

/-- C3, C4 and C5 of a ring at look-ahead `la` and stride `t` (R120). -/
def State.ringFits (s : State) (r la t : Nat) : Bool :=
  let x := s.ringTimes r
  decide (x.1 + 5000 * ns ≤ 5 * la * t ∧ x.2.1 ≤ 5 * t ∧ x.2.2 ≤ 5 * (la + 1) * t)

/-- The uplink age of a ring at stride `t` (R40). -/
def State.uplinkAge (s : State) (r t : Nat) : Nat := ceilDiv ((s.ringTimes r).2.2 + 1000 * ns) (5 * max 1 t)

/-- A local end port agrees with the ring's topology (R95). -/
def State.useAgrees (s : State) (r port : Nat) : Bool :=
  s.rdI BNT.PORT_CTL_USE port == (if s.topo r = 3 then 1 else 0)

/-- The latencies of a cell written by pennant (R79 step 5). -/
def State.writeLat (s : State) (r cell w e : Nat) : State :=
  s.request (s.homePort r) ⟨2, cell, leBytes 1 0x08 ++ leBytes 2 0x090 ++ leBytes 1 2 ++ leBytes 4 w ++ leBytes 4 e⟩

/-- A ring that cannot go on: state refused (R118). -/
def State.refuseRing (s : State) (r : Nat) : State := s.setRing r 7

/-- Step 5 begins (R567, R142, R568, R550, R579): a generation-1 ring is keyed at once; else the hub's operation is asked for. -/
def State.startKeying (s : State) (r : Nat) : State :=
  if s.legacyRing r then s.setRing r 4
  else if s.topo r = 2 ∧ s.onA BNC.RING_TBL_WEST_REMOTE 0 r then s
  else if s.on SEC.STAT_CLAIMED && s.fuses.endorsement == [] then (s.raise 0xA0 2).refuseRing r
  else if s.security.entropyBad then (s.wr SEC.STAT_LAST_RES 0x21).refuseRing r
  else if s.on SEC.STAT_DBG_OPEN || !s.on SEC.STAT_ID_OK then (s.wr SEC.STAT_LAST_RES 0x22).refuseRing r
  else s.askOp (.hubStart r)

/-- Steps 3 to 5: survey (R79, R80), conditions (R120) and keys; `fwd` and `rev` hold the launch and the arrival of the two loops. -/
def State.surveyRing (s : State) (r n : Nat) (marks : List HopMarks) (fwd rev : Nat × Nat) : State :=
  let lg := s.legacyRing r
  let chain := s.topo r == 3
  let lf := fwd.2 - fwd.1
  let lr := rev.2 - rev.1
  let a : Int := if chain then 0 else (lf : Int) - lr
  let rtt2 := marks.map hopTwice
  let df := hopDelays rtt2 a
  let dr := hopDelays rtt2 (-a)
  let hop := tHop lg
  let back := 2 * sumNat df + (2 * n - 1) * hop * ns
  let s := s.modRing r fun x =>
    { x with df := df, dr := dr, lf := if chain then back else lf, lr := if chain then back else lr, driftF := 0, driftR := 0 }
  let pred := sumNat df + n * hop * ns
  let off := if pred < lf then lf - pred else pred - lf
  if !chain && decide (2 * ns < off) then (s.raise 0x08 10).refuseRing r
  else
    let s := (List.range n).foldl (fun s i => s.writeLat r (i + 1) (latWest df hop (i + 1)) (latEast dr hop n (i + 1))) (s.setRing r 3)
    if s.ringFits r s.ctr.la s.strideT then
      ((s.wrA BNC.RING_TBL_RING_BUDGET 0 r 0).wrA BNC.RING_TBL_UA 0 r (satNat 8 (s.uplinkAge r s.strideT))).startKeying r
    else ((s.wrA BNC.RING_TBL_RING_BUDGET 0 r 1).raise 0x40 2).refuseRing r

/-- The ENUM hoist of step 2 (R118), launched eastbound by the hub at the west end (R96) in the next request slot (R113): COUNT 0, running
count 0. -/
def State.sendEnum (s : State) (r : Nat) : State :=
  if s.westHere r then
    let odd := s.mer.seq % 2
    let h := { s.hoistHead r 0 with
      start := nsOf (s.mer.lastS + odd * s.strideT), seq := (s.mer.seq + odd) % 2 ^ 32, count := 0, flags := 64 + 4 * s.unit, keyIdx := 0 }
    s.sendHoist (s.legacyRing r) (s.homePort r) (s.launchAt (s.homePort r) + odd * s.strideT)
      (hoistBytes (s.legacyRing r) bringUpKey h (fun _ => 0) (penBody 0x38 0 0 (leBytes 2 0)) false)
  else s

/-- A ring taken out of use: what was known of it is gone, and its requests with it. -/
def State.clearRing (s : State) (r : Nat) : State :=
  let s := s.modRing r fun _ => emptyRing
  let s := { s with txns := s.txns.filter fun x => x.ring != r }
  (s.ends r).foldl (fun s e => s.modPort e.2 fun p => { p with entries := p.entries.filter PrtEntry.forHost }) s

/-- The cells of a ring as a bring-up takes them: nothing landed. -/
def State.freshCells (s : State) (r : Nat) : State :=
  (List.range (s.ringN r)).foldl (fun s i => s.modCell (s.entryOf r (i + 1)) fun x =>
    { x with
      everLanded := false, seqs := [], fresh := false, silent := false, silentCnt := 0, utagBad := false, utagLast := false, utagFails := 0 }) s

/-- A ring brought up that was down: its cells are no longer excluded as BYPASS_CLOSED (Table 4-3, R159). -/
def State.reopenCells (s : State) (r : Nat) : State :=
  (List.range (s.ringN r)).foldl (fun s i => s.modCell (s.entryOf r (i + 1)) fun x =>
    { x with excl := putBit x.excl 1 false, shown0 := putBit x.shown0 1 false, shown1 := putBit x.shown1 1 false }) s

/-- The ring is being brought up, in service or wrapped. -/
def State.ringUp (s : State) (r : Nat) : Bool := s.ringSt r != 0 && s.ringSt r != 7

/-- An end port of a ring is the other end's too, or an end of another ring that is up. The spec names no refusal of it; a port carries
the hoists of one ring. DESIGN CHOICE, unsafe (assumption 159). -/
def State.sharesPort (s : State) (r : Nat) : Bool :=
  !((s.ends r).map (·.2)).Nodup
    || (List.range 48).any fun q => q != r && s.ringUp q && (s.ends q).any fun e => (s.ends r).any fun d => d.2 == e.2

/-- Step 1 of a bring-up (R118, R95, R133): training begins, with the survey of the ring's end ports ended, unless an end port's USE disagrees or a
port is shared; a ring in service goes out of it first (R81). -/
def State.startUp (s : State) (r : Nat) : State :=
  if s.topo r = 0 ∨ 48 ≤ r then s
  else
    let s := if s.ringSt r = 0 then s.reopenCells r else s
    let s := (((s.clearRing r).freshCells r).setRing r 1).raiseIf (s.inService r) 0x40 1
    let s := (s.ends r).foldl (fun s e => s.wrI BNT.PORT_STAT_UNRELEASED e.2 0) s
    let bad := (s.ends r).filter fun e => !s.useAgrees r e.2
    let s := bad.foldl (fun s e => s.accessErr (0x10 + e.2) 0x040 4) s
    if bad.isEmpty && !s.sharesPort r then s else s.refuseRing r

/-- The cells that a ring may have: 256, or 128 on a generation-1 ring (R118, R141), and no more than the Cell table holds behind CELL_BASE.
The spec names no refusal for the latter. DESIGN CHOICE, unsafe (assumption 159). -/
def State.ringRoom (s : State) (r : Nat) : Nat :=
  min (if s.legacyRing r then 128 else 256) (8192 - s.rdA BNC.RING_TBL_CELL_BASE 0 r)

/-- A write of BNC_RING_TBL.UP (R118), with what training, enumeration and survey find: every hop trained, the enumerated count,
the markers of each hop and the loop times. -/
def State.bringUp (s : State) (r : Nat) (trained : Bool) (n : Nat) (marks : List HopMarks) (fwd rev : Nat × Nat) : State :=
  let down := s.ringSt r == 0
  let s := s.startUp r
  if s.topo r != 0 && s.ringSt r == 1 && trained && ((s.ends r).all fun e => s.onI BNT.PORT_CTL_EN e.2) then
    let s := s.sendEnum r
    if s.ringRoom r < n then s.refuseRing r
    else
      let s := (s.wrA BNC.RING_TBL_N 0 r n).freshCells r
      ((if down then s.reopenCells r else s).setRing r 2).surveyRing r n marks fwd rev
  else s

/-- RING_BRINGUP (R118). -/
def execRingBringup (ring : Nat) (trained : Bool) (n : Nat) (marks : List HopMarks) (fwd rev : Nat × Nat) (s : State) :
    Host.Outcome State Fault Refusal :=
  s.live fun s => s.actWrite 0x40 (0x100 + 16 * (ring % 48)) (2 ^ 31) fun s => s.bringUp (ring % 48) trained n marks fwd rev

/-- A write of BNC_RING_TBL.DOWN. -/
def State.takeDown (s : State) (r : Nat) : State :=
  (((s.clearRing r).freshCells r).setRing r 0).raiseIf (s.inService r) 0x40 1

/-- RING_TAKE_DOWN (R118). -/
def execRingTakeDown (ring : Nat) (s : State) : Host.Outcome State Fault Refusal :=
  s.live fun s => s.actWrite 0x40 (0x100 + 16 * (ring % 48)) (2 ^ 30) fun s => s.takeDown (ring % 48)

/-- SPLIT_BROADCAST (R675): the split due on a ring is requested as a broadcast REG_WR. -/
def execSplitBroadcast (ring : Nat) (s : State) : Host.Outcome State Fault Refusal :=
  s.live fun s =>
    if (s.ring ring).splitDue then
      (s.modRing ring fun x => { x with splitDue := false }).broadcastWrite ring 0x40 0x084 (s.rdA BNC.RING_TBL_PRIMARY_SPLIT 0 ring)
    else s

/-- A write of BNC_BOOT_CTL (R143). -/
def State.bootCtlWrite (s : State) (v : Nat) : State :=
  let s := if bitOf v 0 then
      { (List.range 48).foldl (fun s r => s.modRing r fun x => { x with bootPos := 0 }) (s.wr BNC.BOOT_CTL_ACTIVE 1) with bootStop := false }
    else s
  if bitOf v 1 && s.on BNC.BOOT_CTL_ACTIVE then { s with bootStop := true } else s

/-- BOOT_STREAM_START (R143). -/
def execBootStreamStart (s : State) : Host.Outcome State Fault Refusal :=
  s.live fun s => s.busWrite 0x40 0x078 1 fun s => s.bootCtlWrite 1

/-- BOOT_STREAM_STOP (R143). -/
def execBootStreamStop (s : State) : Host.Outcome State Fault Refusal :=
  s.live fun s => s.busWrite 0x40 0x078 2 fun s => s.bootCtlWrite 2

/-- The boot stream at a boundary: a STOP takes effect after the current chunk (R143). -/
def State.bootStride (s : State) : State :=
  if s.bootStop then { s.wr BNC.BOOT_CTL_ACTIVE 0 with bootStop := false } else s

/-- A ring that has been surveyed and is up: a change of T or of LA is judged on it (R120). -/
def State.surveyed (s : State) (r : Nat) : Bool := decide (3 ≤ s.ringSt r ∧ s.ringSt r ≤ 6)

/-- The surveyed rings that fail C3, C4 or C5 at a new look-ahead and stride. -/
def State.unfitRings (s : State) (la t : Nat) : List Nat := (List.range 48).filter fun r => s.surveyed r && !s.ringFits r la t

/-- The outcome of R120 at a change of T or of LA: each surveyed ring shows whether it failed, and RING_BUDGET is raised for a failure. -/
def State.judgeRings (s : State) (la t : Nat) : State :=
  let bad := s.unfitRings la t
  ((List.range 48).foldl (fun s r => if s.surveyed r then s.wrA BNC.RING_TBL_RING_BUDGET 0 r (ofBool (bad.contains r)) else s) s).raiseIf
    (!bad.isEmpty) 0x40 2

/-- The uplink ages at a new stride (R120). -/
def State.agesAt (s : State) (t : Nat) : State :=
  (List.range 48).foldl (fun s r => if s.surveyed r then s.wrA BNC.RING_TBL_UA 0 r (satNat 8 (s.uplinkAge r t)) else s) s

/-! Trunks. -/

/-- A port serves as a trunk of the given USE: enabled, and no ring names it (R94, R95). -/
def State.trunkPort (s : State) (use p : Nat) : Bool :=
  s.onI BNT.PORT_CTL_EN p && s.rdI BNT.PORT_CTL_USE p == use && (s.portRing p).isNone

/-- The ports used as trunks downstream. -/
def State.downPorts (s : State) : List Nat := (List.range 48).filter (s.trunkPort 2)

/-- The port of a branch toward the lead, while it serves as a trunk upstream (R94). -/
def State.upPort (s : State) : Option Nat := if s.trunkPort 3 (s.rd BNC.TRUNK_UP_PORT) then some (s.rd BNC.TRUNK_UP_PORT) else none

/-- The key of the trunk tree and its index: as the lead made it, or as the branch received it (R570). -/
def State.trunkKey (s : State) : Bytes × Nat :=
  if s.isBranch then (if s.cell.keyIdx = 0 then bringUpKey else s.cell.key, s.cell.keyIdx) else ((s.ring 48).keyNow, (s.ring 48).keyIdx)

/-- A key of the trunk tree that KEY_IDX names. -/
def State.trunkKeyOf (s : State) (idx : Nat) : Option Bytes :=
  if s.isBranch then keyNamed s.cell.key s.cell.keyIdx s.cell.nextKey s.cell.nextIdx idx else (s.ring 48).keyOf idx

/-- TRUNK_BRINGUP (R137, R138, R570): in a branch, the delays of the trunk hops of its path and the record count; in a lead, the
branches of the tree, for which the tree's key is made. -/
def execTrunkBringup (hops : List HopMarks) (records : Nat) (branches : List Nat) (s : State) : Host.Outcome State Fault Refusal :=
  s.live fun s =>
    if s.isBranch then
      let path := sumNat (hopDelays (hops.map hopTwice) 0) + (hops.length - 1) * 28 * ns
      let delivery5 := 5 * path + 128 * ns + records * 64 * ns
      let ok := decide (delivery5 ≤ 250 * ns + 5 * s.ctr.dl * s.strideT / 100)
      let s := { s with trunk := { s.trunk with delay := path, service := ok } }
      (s.wr BNC.TRUNK_DEPTH hops.length).raiseIf (!ok) 0x40 8
    else if s.isHub then
      { s.modRing 48 fun _ => emptyRing with trunk := { s.trunk with branches := branches, service := true } }.askOp (.hubStart 48)
    else s

/-- A value of a downlink trunk record: the signal's, or a free value where the signal is not usable (assumption 140). -/
def State.downValue (s : State) (branch g k i : Nat) : Nat :=
  if (s.sig i).ok then (s.sig i).bits else Config.trunkNoPoint branch g s.mer.seq k

/-- A downlink trunk record of the lead (Table 3-13); the signals, the mode and what an unusable signal sends are free (assumption 140). -/
def State.downRecord (s : State) (x : Nat × Nat × Nat × Nat × Nat) : Bytes :=
  let val := s.downValue x.1 x.2.1
  leBytes 1 x.1 ++ leBytes 1 (x.2.1 % 16 + 16 * (Config.trunkMode x.1 x.2.1 s.mer.seq % 4)) ++ leBytes 2 0
    ++ leBytes 4 (val 0 x.2.2.1) ++ leBytes 4 (val 1 x.2.2.2.1) ++ leBytes 4 (val 2 x.2.2.2.2)

/-- The bytes of a trunk hoist (R134). -/
def trunkHoist (key : Bytes) (h : Head) (recs pen : Bytes) : Bytes :=
  let p := if leAt pen 0 1 = 0x20 then sliceBytes pen 0 56 ++ List.replicate 8 0 else penBytes key h pen recs
  let b := headBytes key h ++ recs ++ p
  b ++ trailerBytes b 0 0 false

/-- The header of a trunk hoist of `g` records. -/
def State.trunkHead (s : State) (dir g : Nat) : Head :=
  { start := nsOf s.mer.lastS, term := 0, lease := 0, keyIdx := s.trunkKey.2,
    flags := ofBool s.mer.stepFlag + 2 * dir + 4 * s.unit + 16 * ofBool (s.ring 48).rekey + 32, seq := s.mer.seq, ring := 0, count := g }

/-- The request that waits first in a port ring. -/
def PortRing.firstReq (q : PortRing) : Option (PenReq × PrtEntry) :=
  q.entries.findSome? fun e => match e with | .request x c => some (x, .request x c) | _ => none

/-- The pennant of a trunk port: EMPTY, but for a request of the lead in a request slot and a response of a branch in a response slot
(R113, R114). -/
def State.trunkPen (s : State) (p : Nat) : State × Bytes :=
  if (s.mer.seq % 2 == 1) == s.isBranch then
    match (s.port p).firstReq with
    | some (q, e) => (s.dropPrt p e, penBody q.typ 0 q.target q.payload)
    | none => (s, penBody 0 0 0 [])
  else (s, penBody 0 0 0 [])

/-- A record that had landed by the Cell table cutoff before the boundary that has just come (R136, R35). -/
def State.landedInTime (s : State) (x : Nat × Bytes) : Bool := decide (x.1 ≤ cycleEnd cyc400 (s.mer.lastS - 200 * ns))

/-- The trunk hoists of a boundary: the lead's downlink on every trunk port, a branch's return upward with the records landed before its Cell
table cutoff (R134, R136, R137). -/
def State.launchTrunks (s : State) : State :=
  if s.isBranch then
    match s.upPort with
    | some up =>
      if s.trunk.service then
        let own := ((List.range 12).map fun g => (s.group g).ret).filter (· != [])
        let recs := own ++ (s.trunk.landed.filter s.landedInTime).map (·.2)
        let np := s.trunkPen up
        let s := np.1.sendHoist false up (s.launchAt up) (trunkHoist s.trunkKey.1 (s.trunkHead 1 recs.length) recs.flatten np.2)
        { s with trunk := { s.trunk with landed := s.trunk.landed.filter fun x => !s.landedInTime x } }
      else s
    | none => s
  else if s.isHub then
    let recs := (Config.trunkRecords.map s.downRecord).flatten
    s.downPorts.foldl (fun s p =>
      let np := s.trunkPen p
      np.1.sendHoist false p (s.launchAt p) (trunkHoist s.trunkKey.1 (s.trunkHead 0 Config.trunkRecords.length) recs np.2)) s
  else s

/-- A downlink record addressed to this branch, of the trunk hoist `seq` (R45, R182). -/
def State.takeRecord (s : State) (seq : Nat) (rec : Bytes) : State :=
  if leAt rec 0 1 = s.rd BNC.TRUNK_BRANCH_ID then
    s.modGroup (leAt rec 1 1 % 16) fun gr =>
      { gr with tMode := bitsOf (leAt rec 1 1) 4 2, tRef1 := leAt rec 4 4, tRef2 := leAt rec 8 4, tI := leAt rec 12 4, tSeq := some seq }
  else s

/-- The records of a trunk hoist. -/
def trunkRecs (g : Nat) (data : Bytes) : List Bytes := (List.range g).map fun i => sliceBytes data (32 + 16 * i) 16

/-- A KEY_AGREE pennant of a trunk hoist is held: a branch reads it from any hoist whose HCRC is valid (R565, R570). -/
def State.trunkKeyPen (s : State) (port : Nat) (h : Head) (data : Bytes) : State :=
  let pen := sliceBytes data (32 + 16 * h.count) 64
  if leAt pen 0 1 = 0x20 then { s with pens := s.pens ++ [⟨s.mer.mer, h.dir, h.seq, h.unit, tcrcOk data, port, pen⟩] } else s

/-- The check of a trunk hoist: its header when it passes R106, and whether its records count, whose tag is the pennant's (Table 16-8). -/
def State.trunkChecked (s : State) (port : Nat) (data : Bytes) : State × Option (Head × Bool) :=
  match headOk false s.trunkKeyOf s.mer.seq data with
  | none =>
    let s := if s.isBranch && hcrcOk data then s.trunkKeyPen port (parseHead data) data else s
    ((s.incI BNT.CNT_ERR_HDR_ERR port).raise (0x10 + port) 6, none)
  | some h =>
    let s := if tcrcOk data then s else (s.incI BNT.CNT_ERR_CRC_ERR port).raise (0x10 + port) 5
    let recs := sliceBytes data 32 (16 * h.count)
    let pen := sliceBytes data (32 + 16 * h.count) 64
    if leAt pen 0 1 = 0x20 then (s.trunkKeyPen port h data, some (h, tcrcOk data))
    else if ptagOk ((s.trunkKeyOf h.keyIdx).getD []) h pen recs then (s, some (h, true))
    else ((s.incI BNT.CNT_LINK_TAG_FAIL port).raise (0x10 + port) 7, some (h, false))

/-! LAT_ADJ, HOP_RELEASE and LINK_BYPASS at the hub. -/

/-- The request of a LAT_ADJ pennant (Table 3-10). -/
def latAdjReq (first dir : Nat) (d : Int) : PenReq :=
  ⟨0x30, 0, leBytes 2 first ++ leBytes 1 dir ++ leBytes 1 0 ++ leBytes 4 (wrapTo 32 d)⟩

/-- The request of a broadcast HOP_RELEASE pennant (R674). -/
def hopReleaseReq (hop : Nat) : PenReq := ⟨0x31, 0, leBytes 2 hop⟩

/-- A request on every local end of a ring, so that it reaches the cells on both sides of a broken hop (R132, R674). -/
def State.requestAll (s : State) (r : Nat) (q : PenReq) : State := (s.ends r).foldl (fun s e => s.request e.2 q) s

/-- A cell has been by-passed (R132): the new hop, with the markers `m`, replaces hops `cell` and `cell + 1`; the change of delay goes out
for each direction, then the release of the hop's ends. -/
def State.hubLatAdj (s : State) (r cell : Nat) (m : HopMarks) : State :=
  let x := s.ring r
  let hop := tHop (s.legacyRing r) * ns
  let at2 := fun (l : List Nat) => l.getD (cell - 1) 0 + l.getD cell 0 + hop
  let dF : Int := (hopTwice m / 4 : Nat) - (at2 x.df : Int)
  let dR : Int := (hopTwice m / 4 : Nat) - (at2 x.dr : Int)
  let put := fun (l : List Nat) (d : Int) => l.set (cell - 1) ((l.getD (cell - 1) 0 : Int) + d).toNat
  let s := s.modRing r fun x =>
    { x with df := put x.df dF, dr := put x.dr dR, lf := ((x.lf : Int) + dF).toNat, lr := ((x.lr : Int) + dR).toNat }
  let s := (s.requestAll r (latAdjReq (cell + 1) 0 dF)).requestAll r (latAdjReq (cell - 1) 1 dR)
  (s.requestAll r (hopReleaseReq cell)).requestAll r (hopReleaseReq (cell + 1))

end Sys2Proof.Machine
end

