-- ==== Sys2Proof/Machine/Keys.lean ====
section
/-! DEFINITION. Key agreement and rekeying of a ring (R564 to R573), at the hub and in the cell, and suspect cells (R574). A hub sends its
messages as requests and a cell its own as responses; each is consumed at the other end by the command of its name. A branch hub
takes the role of a cell on its trunk (R570), and the lead keeps the tree's key under ring number 48. -/

namespace Sys2Proof.Machine

/-- The security island changed. -/
def State.modSec (s : State) (f : SecState → SecState) : State := { s with security := f s.security }

/-- The cell's end of the link changed. -/
def State.modCellRole (s : State) (f : CellState → CellState) : State := { s with cell := f s.cell }

/-- The first held pennant that satisfies a test, and the state without it. -/
def State.takePen (s : State) (f : HeldPen → Bool) : Option (HeldPen × State) :=
  match s.pens.find? f with
  | none => none
  | some p => some (p, { s with pens := s.pens.erase p })

/-- A KEY_AGREE pennant of the given step (Table 16-9). -/
def HeldPen.isKey (p : HeldPen) (step : Nat) : Bool := leAt p.data 0 1 == 0x20 && leAt p.data 4 1 == step

/-- SHA-384 of the device's identity public key (R552). -/
def State.secId (s : State) : Bytes := Config.sha384 (Config.publicKey s.security.identity)

/-- The index after a ring key's (R564): 1 to 255, skipping 0. -/
def nextKeyIdx (i : Nat) : Nat := i % 255 + 1

/-- The pairwise key (R567 step 3). -/
def pairKey (eph peer hubId cellId : Bytes) (ring cell : Nat) : Bytes :=
  Config.hkdf (Config.ecdh eph peer) (hubId ++ cellId) (leBytes 1 ring ++ leBytes 2 cell) 32

/-- The IV of a wrapped ring key (R567 step 3). -/
def wrapIv (idx : Nat) : Bytes := leBytes 1 idx ++ List.replicate 11 0

/-- What a cell acknowledges a ring key with (R567 step 4). -/
def ackOf (key : Bytes) : Bytes := tagBytes 4 key [] (List.replicate 16 0)

/-- The payload of a KEY_AGREE fragment (Table 16-9). -/
def keyPayload (step idx part : Nat) (data : Bytes) : Bytes :=
  leBytes 1 step ++ leBytes 1 idx ++ leBytes 2 part ++ sliceBytes data (48 * part) 48

/-- Fragments put together: the parts of a list by number. -/
def joinParts (ps : List (Nat × Bytes)) (n : Nat) : Bytes :=
  ((List.range n).map fun i => (Sparse.get ps i).getD (List.replicate 48 0)).flatten

/-- Parts 0 to `n` − 1 are all held. -/
def allParts (ps : List (Nat × Bytes)) (n : Nat) : Bool := (List.range n).all fun i => (Sparse.get ps i).isSome

/-- A request on a ring, or on every trunk downstream for the tree. -/
def State.ringRequest (s : State) (r : Nat) (q : PenReq) : State :=
  if r = 48 then s.downPorts.foldl (fun s p => s.pushPrt p (.request q false)) s
  else s.request (s.homePort r) q

/-- The members that a ring key has to reach: the enumerated cells, or the branches of the tree. -/
def State.members (s : State) (r : Nat) : List Nat :=
  if r = 48 then s.trunk.branches else (List.range (s.ringN r)).map (· + 1)

/-- A cell that keying does not wait for in a rekey: declared SILENT (R571). -/
def State.memberSilent (s : State) (r c : Nat) : Bool := r != 48 && (s.cellAux (s.entryOf r c)).silent

/-- SEC_SUSPECT.MARK and SEC_CELL_ID show the cell selected (R567, R574). -/
def State.showSuspect (s : State) : State :=
  let e := s.rd SEC.SUSPECT_CELL
  let id := match s.ringOf e with
    | some (r, c) => (Sparse.get (s.ring r).ids c).getD []
    | none => []
  let s := s.wr SEC.SUSPECT_MARK (ofBool (s.cellAux e).suspect)
  (List.range 12).foldl (fun s i => s.wrA SEC.CELL_ID_HASH 0 i (leAt id (4 * i) 4)) s

/-- The credentials of the hub for a ring (R567 step 1): 387 bytes. -/
def State.hubCred (s : State) (r : Nat) : Bytes :=
  let eph := sliceBytes (Config.compress (Config.publicKey (s.ring r).eph)) 0 49
  sliceBytes s.security.ownerPub 0 97 ++ sliceBytes s.fuses.endorsement 0 96
    ++ sliceBytes (Config.compress (Config.publicKey s.security.identity)) 0 49 ++ eph
    ++ sliceBytes (Config.sign s.security.identity (eph ++ leBytes 1 r)) 0 96

/-- The credentials of the cell (R567 step 2): 194 bytes; `hubEph` is the hub's ephemeral key. -/
def State.cellCred (s : State) (hubEph : Bytes) : Bytes :=
  let eph := sliceBytes (Config.compress (Config.publicKey s.cell.eph)) 0 49
  eph ++ sliceBytes (Config.compress (Config.publicKey s.security.identity)) 0 49
    ++ sliceBytes (Config.sign s.security.identity (hubEph ++ eph)) 0 96

/-- KEY_REFUSED raised (R567). -/
def State.keyRefused (s : State) : State := s.raise 0xA0 2

/-- The hub holds an ephemeral key for the ring and draws the key to be agreed. -/
def State.hubStartDone (s : State) (r : Nat) : State :=
  let k := sliceBytes (Config.random s.freeCtr) 0 32
  let e := sliceBytes (Config.random (s.freeCtr + 1)) 0 48
  ({ s with freeCtr := s.freeCtr + 2 }).modRing r fun x =>
    { x with eph := e, nextKey := k, nextIdx := nextKeyIdx x.keyIdx, acked := [], creds := [], pairs := [], wrapDue := [] }

/-- The hub has checked a CELL_CRED (R567 step 3): K_pair and identity kept, KEY_WRAP due. -/
def State.hubPairDone (s : State) (r c : Nat) : State :=
  let x := s.ring r
  let m := joinParts ((Sparse.get x.creds c).getD []) 5
  let cEph := sliceBytes m 0 49
  let cId := sliceBytes m 49 49
  let hEph := sliceBytes (Config.compress (Config.publicKey x.eph)) 0 49
  if Config.verify cId (hEph ++ cEph) (sliceBytes m 98 96) then
    let id := Config.sha384 (Config.expand cId)
    let k := pairKey x.eph cEph s.secId id r c
    (s.modRing r fun x =>
      { x with pairs := Sparse.insert x.pairs c k, ids := Sparse.insert x.ids c id, wrapDue := x.wrapDue ++ [c] }).showSuspect
  else s.keyRefused

/-- The cell has checked HUB_CRED and made its own key (R567 step 2); an unclaimed device skips the endorsement. -/
def State.cellCredDone (s : State) (idx : Nat) : State :=
  let m := joinParts s.cell.hubCred 9
  let pub := sliceBytes m 0 97
  let hId := sliceBytes m 193 49
  let hEph := sliceBytes m 242 49
  let hubId := Config.sha384 (Config.expand hId)
  let endorsed := s.fuses.owner == Config.sha384 pub
    && Config.verify pub (Config.sha384 (hubId ++ leBytes 1 0x48)) (sliceBytes m 97 96)
  let ring := if s.isBranch then 48 else s.cell.ring
  if (!s.on SEC.STAT_CLAIMED || endorsed) && Config.verify hId (hEph ++ leBytes 1 ring) (sliceBytes m 291 96) then
    let e := sliceBytes (Config.random s.freeCtr) 0 48
    let me := if s.isBranch then s.rd BNC.TRUNK_BRANCH_ID else s.rd BNC.CELL_INDEX
    s.nextFree.modCellRole fun c =>
      { c with eph := e, hubPub := hEph, pair := pairKey e hEph hubId s.secId ring me, credDue := some idx }
  else s.keyRefused

/-- The time of a key-agreement operation (R553, R567, as Table 16-10 sums them): the hub generates and signs; the hub verifies and computes
ECDH; the cell verifies twice, once where it skips the endorsement, generates and signs. -/
def State.opTime (s : State) : SecOp → Nat
  | .hubStart _ => curveTime + signTime
  | .hubPair _ _ => verifyTime + curveTime
  | .cellCred _ => (if s.on SEC.STAT_CLAIMED then 2 else 1) * verifyTime + curveTime + signTime

/-- KEY_AGREE_OPERATION_DONE (R553, R567): the operation at the head of the island's queue completes, its time after it began; with the entropy
source or the identity refused it has no result (R550, R579). -/
def execKeyAgreeOperationDone (s : State) : Host.Outcome State Fault Refusal :=
  s.live fun s =>
    match s.security.ops with
    | [] => s
    | (op, asked) :: rest =>
      let s := (s.modSec fun x => { x with ops := rest }).engineDone asked (s.opTime op)
      if s.on SEC.STAT_DBG_OPEN then s.wr SEC.STAT_LAST_RES 0x22
      else
        match op with
        | .hubStart r => if s.security.entropyBad then s.wr SEC.STAT_LAST_RES 0x21 else s.hubStartDone r
        | .hubPair r c => s.hubPairDone r c
        | .cellCred i => if s.security.entropyBad then s.wr SEC.STAT_LAST_RES 0x21 else s.cellCredDone i

/-- The device takes the cell's part in key agreement: a cell, or a branch on its trunk (R570). -/
def State.keyCell (s : State) : Bool := s.isCell || s.isBranch

/-- A key message of the cell waits for a response slot (R114); a branch sends it up its trunk. -/
def State.keyReply (s : State) (unit : Nat) (payload : Bytes) : State :=
  let me := if s.isBranch then s.rd BNC.TRUNK_BRANCH_ID else s.rd BNC.CELL_INDEX
  if s.isBranch then s.pushPrt (s.rd BNC.TRUNK_UP_PORT) (.request ⟨0x20, me, payload⟩ false)
  else s.modCellRole fun c => { c with resp := c.resp ++ [(unit, penBody 0x20 (8 * unit) me payload)] }

/-- HUB_CRED (R567 step 1): the hub broadcasts its fragments on a ring; a cell keeps a fragment, and with all nine held asks for the
check. -/
def execHubCred (ring : Nat) (s : State) : Host.Outcome State Fault Refusal :=
  s.live fun s =>
    match s.takePen fun p => p.isKey 1 with
    | some (p, s) =>
      if s.keyCell then
        let idx := leAt p.data 5 1
        let s := s.modCellRole fun c => { c with hubCred := Sparse.insert c.hubCred (leAt p.data 6 2) (sliceBytes p.data 8 48), keyUnit := p.unit }
        if allParts s.cell.hubCred 9 && !s.opAsked (.cellCred idx) && s.cell.credDue.isNone then s.askOp (.cellCred idx) else s
      else s
    | none =>
      if s.isHub && (s.ring ring).eph != [] && (s.ringSt ring == 3 || ring == 48) then
        let m := s.hubCred ring
        (List.range 9).foldl (fun s i => s.ringRequest ring ⟨0x20, 0, keyPayload 1 (s.ring ring).nextIdx i m⟩) s
      else s

/-- CELL_CRED (R567 step 2): the cell answers with its five fragments; the hub keeps a fragment, and with all five of a cell held asks
for the check. -/
def execCellCred (ring : Nat) (s : State) : Host.Outcome State Fault Refusal :=
  s.live fun s =>
    match s.takePen fun p => p.isKey 2 with
    | some (p, s) =>
      let c := leAt p.data 2 2
      let s := s.modRing ring fun x =>
        { x with creds := Sparse.insert x.creds c (Sparse.insert ((Sparse.get x.creds c).getD []) (leAt p.data 6 2) (sliceBytes p.data 8 48)) }
      if allParts ((Sparse.get (s.ring ring).creds c).getD []) 5 && !s.opAsked (.hubPair ring c) then s.askOp (.hubPair ring c)
      else s
    | none =>
      match s.cell.credDue with
      | some idx =>
        let m := s.cellCred s.cell.hubPub
        let s := (List.range 5).foldl (fun s i => s.keyReply s.cell.keyUnit (keyPayload 2 idx i m)) s
        s.modCellRole fun c => { c with credDue := none, hubCred := [] }
      | none => s

/-- KEY_WRAP (R567 step 3, R571, R572): the hub sends a cell the ring key under K_pair, and again until it acknowledges; the cell opens it and
owes KEY_ACK. With debug open K_pair refuses its use (R579). -/
def execKeyWrap (ring cell : Nat) (s : State) : Host.Outcome State Fault Refusal :=
  s.live fun s =>
    match s.takePen fun p => p.isKey 3 with
    | some (p, s) =>
      let idx := leAt p.data 5 1
      if s.keyCell && s.on SEC.STAT_DBG_OPEN then s.wr SEC.STAT_LAST_RES 0x22
      else if s.keyCell then
        match Config.gcmOpen s.cell.pair (wrapIv idx) [] (sliceBytes p.data 8 48) with
        | some k => s.modCellRole fun c =>
            { c with nextKey := if idx = c.keyIdx then c.nextKey else k, nextIdx := if idx = c.keyIdx then c.nextIdx else idx, ackDue := some idx, keyUnit := p.unit }
        | none => s.keyRefused
      else s
    | none =>
      let x := s.ring ring
      match Sparse.get x.pairs cell with
      | some k =>
        if !(s.isHub && x.wrapDue.contains cell) then s
        else if s.on SEC.STAT_DBG_OPEN then s.wr SEC.STAT_LAST_RES 0x22
        else
          let idx := if x.nextIdx = 0 then x.keyIdx else x.nextIdx
          let key := if x.nextIdx = 0 then x.key else x.nextKey
          let w := Config.gcmSeal k (wrapIv idx) [] key
          s.ringRequest ring ⟨0x20, cell, keyPayload 3 idx 0 w⟩
      | none => s

/-- The ring's next key taken into use (R571, R572). -/
def State.switchKey (s : State) (r : Nat) : State :=
  s.modRing r fun x =>
    { x with key := x.nextKey, keyIdx := x.nextIdx, nextKey := [], nextIdx := 0, rekey := false, rekeyRun := 0, served := 0 }

/-- A rekey's switch counted and reported (R571). -/
def State.rekeyed (s : State) (r : Nat) : State := ((s.switchKey r).inc SEC.CNT_REKEYS).raise 0xA0 5

/-- The peer of a dual-ended ring gets the ring's new key (R568): STATE region 0x7F00, the key under the twin key. -/
def State.shareKey (s : State) (r : Nat) : State :=
  let x := s.ring r
  if s.paired && r != 48 && s.topo r == 2 then
    let pairs := (x.pairs.map fun c => leBytes 2 c.1 ++ sliceBytes c.2 0 32).flatten
    let body := leBytes 1 r ++ leBytes 1 x.nextIdx ++ x.nextKey ++ pairs
    s.twinSend 5 (leBytes 2 0x7F00 ++ leBytes 2 0 ++ leBytes 4 0 ++ Config.gcmSeal s.pair.key (wrapIv x.nextIdx) [] body)
  else s

/-- Every member has acknowledged: bring-up goes on to step 6, or REKEY stands for 16 strides (R567, R571). -/
def State.allAcked (s : State) (r : Nat) : State :=
  let x := s.ring r
  if x.nextIdx = 0 ∨ x.rekey then s
  else if x.keyIdx = 0 then
    if (s.members r).all fun c => x.acked.contains c then
      let s := (s.shareKey r).switchKey r
      if r = 48 then s else s.setRing r 4
    else s
  else if (s.members r).all fun c => x.acked.contains c || s.memberSilent r c then
    (s.shareKey r).modRing r fun x => { x with rekey := true, rekeyRun := 16 }
  else s

/-- KEY_ACK (R567 step 4): the cell acknowledges; the hub checks it and, when every member has acknowledged, takes the key on. -/
def execKeyAck (ring : Nat) (s : State) : Host.Outcome State Fault Refusal :=
  s.live fun s =>
    match s.takePen fun p => p.isKey 4 with
    | some (p, s) =>
      let x := s.ring ring
      let idx := leAt p.data 5 1
      let key := if idx = x.nextIdx then x.nextKey else x.key
      if (idx = x.nextIdx ∨ idx = x.keyIdx) ∧ idx ≠ 0 ∧ sliceBytes p.data 8 4 = ackOf key then
        let c := leAt p.data 2 2
        let s := s.modRing ring fun x => { x with acked := if x.acked.contains c then x.acked else x.acked ++ [c], wrapDue := x.wrapDue.erase c }
        s.allAcked ring
      else s.keyRefused
    | none =>
      match s.cell.ackDue with
      | some idx =>
        let key := if idx = s.cell.nextIdx then s.cell.nextKey else s.cell.key
        (s.keyReply s.cell.keyUnit (keyPayload 4 idx 0 (ackOf key))).modCellRole fun c => { c with ackDue := none }
      | none => s

/-- A rekey of a ring starts (R571). -/
def State.startRekey (s : State) (r : Nat) : State :=
  let k := sliceBytes (Config.random s.freeCtr) 0 32
  s.nextFree.modRing r fun x => { x with nextKey := k, nextIdx := nextKeyIdx x.keyIdx, acked := [], wrapDue := s.members r }

/-- A rekey of the ring runs. -/
def Ring.rekeying (x : Ring) : Bool := x.keyIdx != 0 && x.nextIdx != 0

/-- The peer makes the keys of the ring: it holds the ring's west end (R568). -/
def State.keyedByPeer (s : State) (r : Nat) : Bool := r != 48 && s.topo r == 2 && s.onA BNC.RING_TBL_WEST_REMOTE 0 r

/-- A write of SEC_RING.REKEY_NOW (R571, R573); no ring has a number above 47, and the hub at a ring's west end makes its keys (R568). -/
def State.rekeyNow (s : State) (r : Nat) : State :=
  let x := s.ring r
  if 48 ≤ r ∨ s.keyedByPeer r then s
  else if x.rekeying then s.accessErr 0xA0 0x048 4
  else if x.keyIdx = 0 then s
  else if s.security.entropyBad then s.wr SEC.STAT_LAST_RES 0x21
  else s.startRekey r

/-- REKEY_NOW (R571). -/
def execRekeyNow (ring : Nat) (s : State) : Host.Outcome State Fault Refusal :=
  s.live fun s => s.busWrite 0xA0 0x048 (2 ^ 22 + 65536 * (ring % 64)) fun s => (s.wr SEC.RING ring).rekeyNow (ring % 64)

/-- REKEY_START (R571): the key in use has served 2^REKEY_LOG strides. -/
def execRekeyStart (ring : Nat) (s : State) : Host.Outcome State Fault Refusal :=
  s.live fun s =>
    let x := s.ring ring
    if x.keyIdx != 0 && !x.rekeying && !s.keyedByPeer ring && decide (2 ^ s.rd SEC.RING_REKEY_LOG ≤ x.served) && !s.security.entropyBad then s.startRekey ring
    else s

/-- KEY_EXPIRED (R572): a key that reaches 2³¹ strides is switched anyway. -/
def execKeyExpired (ring : Nat) (s : State) : Host.Outcome State Fault Refusal :=
  s.live fun s =>
    let x := s.ring ring
    if x.keyIdx != 0 && decide (2 ^ 31 ≤ x.served) && (x.rekeying || !s.keyedByPeer ring) then
      let s := if x.rekeying then s else s.startRekey ring
      (s.rekeyed ring).raise 0xA0 3
    else s

/-- One stride of a ring's key (R571); a cell declared SILENT since is no longer waited for. -/
def State.keyStride (s : State) (r : Nat) : State :=
  let x := s.ring r
  if x.keyIdx = 0 then s
  else
    let s := if x.rekeying then s.allAcked r else s
    let s := s.modRing r fun x => { x with served := x.served + 1, rekeyRun := x.rekeyRun - 1 }
    if x.rekey && x.rekeyRun == 1 then s.rekeyed r else s

/-- The Cell table cutoff of this stride has been taken in the cycle of now. -/
def State.atCutoff (s : State) : Bool := s.ctr.cut && sameCycle cyc400 s.mer.mer s.cutoffAt

/-- A write of SEC_SUSPECT.CLR (R574); a failure counted in its cycle counts from 0. -/
def State.suspectClr (s : State) (e : Nat) : State :=
  let n := ofBool (s.atCutoff && (s.cellAux e).utagLast)
  let again := decide (max 1 (s.rd SEC.RING_SUSPECT_N) ≤ n)
  (s.modCell e fun x => { x with suspect := again, utagFails := n }).showSuspect

/-- SUSPECT_CLR (R574): for the Cell table entry given. -/
def execSuspectClr (cell : Nat) (s : State) : Host.Outcome State Fault Refusal :=
  s.live fun s => s.busWrite 0xA0 0x04C (2 ^ 17 + cell % 8192) fun s => (s.wr SEC.SUSPECT_CELL cell).suspectClr (cell % 8192)

end Sys2Proof.Machine
end

