-- ==== Sys2Proof/Machine/Envelope.lean ====
section
/-! DEFINITION. Signed envelopes (R557 to R562, Tables 16-3 and 16-6) and the commands of the security island (R550 to R559, R575, R578,
R579, Table 16-2). -/

namespace Sys2Proof.Machine

/-- All bytes of a range of a string are 0. -/
def zeroAt (bs : Bytes) (o n : Nat) : Bool := (sliceBytes bs o n).all fun b => b == 0

/-- The identity and image keys may not be used: no identity (R551), or debug open (R579). -/
def State.keysShut (s : State) : Bool := !s.on SEC.STAT_ID_OK || s.on SEC.STAT_DBG_OPEN

/-- The checks 0x01 to 0x07 of an envelope, in order (R561, R558): 256 bytes of header and the data behind it, for a destination of a
kind and a size, with the number of data bytes received where a count is known. The status and the plaintext. -/
def State.envelope (s : State) (kind room : Nat) (hdr body : Bytes) (got : Option Nat) : Nat × Bytes :=
  let len := leAt hdr 12 4
  let plain := bitOf (leAt hdr 7 1) 0
  let pub := sliceBytes hdr 44 97
  let claimed := s.on SEC.STAT_CLAIMED
  let data := sliceBytes body 0 len
  if leAt hdr 0 4 ≠ 0x4E455647 ∨ leAt hdr 4 2 ≠ 1 ∨ 2 ≤ leAt hdr 7 1 ∨ !zeroAt hdr 141 7 ∨ !zeroAt hdr 244 12 then (0x01, [])
  else if leAt hdr 6 1 ≠ kind then (0x02, [])
  else if room < len ∨ got.any (· != len) then (0x03, [])
  else if (if claimed then plain || Config.sha384 pub != s.fuses.owner else !plain) then (0x04, [])
  else if !Config.verify pub (Config.sha384 (sliceBytes hdr 0 148 ++ data)) (sliceBytes hdr 148 96) then (0x05, [])
  else if leAt hdr 8 4 < s.fuses.svnMin then (0x06, [])
  else if plain then (0x00, data)
  else if s.keysShut then (0x22, [])
  else
    match Config.gcmOpen s.security.imageKey (sliceBytes hdr 16 12) (sliceBytes hdr 0 148) (data ++ sliceBytes hdr 28 16) with
    | none => (0x07, [])
    | some p => (0x00, p)

/-- The time of an envelope's checks that ended with a status, over `len` bytes of data behind the hash (R553, R561): nothing of Table 16-1 before the
check of SIG, and no decryption of plaintext or after a check that failed before it. -/
def envelopeTime (st len : Nat) (plain : Bool) : Nat :=
  if st = 0x05 ∨ st = 0x06 then verifyTime
  else if st = 0x00 ∨ st = 0x07 ∨ st = 0x08 then verifyTime + (if plain then 0 else gcmTime len)
  else 0

/-- The time of the hash that the check of SIG needs (R560, Table 16-1); none where the checks end before it. -/
def hashTime (st len : Nat) : Nat := if st = 0 ∨ (5 ≤ st ∧ st ≤ 8) then shaTime (148 + len) else 0

/-- The checks of an envelope, asked for at uptime `asked`, end (R553); `hashed`: its bytes were hashed as they were read (Table 18-6). -/
def State.envelopeDone (s : State) (asked st : Nat) (hashed : Bool) (hdr : Bytes) : State :=
  let len := leAt hdr 12 4
  s.engineDone asked ((if hashed then 0 else hashTime st len) + envelopeTime st len (bitOf (leAt hdr 7 1) 0))

/-- The measurement of an envelope (R559). -/
def envMeas (hdr body : Bytes) : Bytes := Config.sha384 (hdr ++ sliceBytes body 0 (leAt hdr 12 4))

/-- An envelope's result in SEC_STAT.LAST_RES; a refusal counted (R561). -/
def State.envResult (s : State) (st : Nat) : State :=
  let s := s.wr SEC.STAT_LAST_RES st
  if st = 0 then s else s.inc SEC.CNT_REJECTS

/-- The bytes of the mailbox. -/
def State.mbox (s : State) (n : Nat) : Bytes := ((List.range 256).map fun i => leBytes 4 (s.rdA SEC.MBOX_DATA 0 i)).flatten.take n

/-- Output written to the mailbox from byte 0. -/
def State.mboxOut (s : State) (bs : Bytes) : State :=
  (List.range (ceilDiv bs.length 4)).foldl (fun s i => s.wrA SEC.MBOX_DATA 0 i (leAt bs (4 * i) 4)) s

/-- A write of SEC_CMD (R554): the command starts over the first LEN bytes of the mailbox; while one runs, the write is discarded. -/
def State.secCmdWrite (s : State) (value : Nat) : State :=
  if s.on SEC.STAT_BUSY then s.accessErr 0xA0 0x040 4
  else
    let s := s.noteErrors 0xA0 0x040 value
    let cmd := value % 256
    let input := s.mbox (min 1024 (bitsOf value 8 11))
    (s.wr SEC.STAT_BUSY 1).modSec fun x => { x with cmd := some (cmd, input, s.mer.uptime) }

/-- A command started by its row: a host write of SEC_CMD. -/
def State.startCmd (s : State) (cmd len : Nat) : State :=
  s.busWrite 0xA0 0x040 (cmd + 256 * (len % 2048)) fun s => s.secCmdWrite (cmd + 256 * (len % 2048))

/-- CLAIM_CMD (R556). -/
def execClaimCmd (len : Nat) (s : State) : Host.Outcome State Fault Refusal := s.live fun s => s.startCmd 0x01 len

/-- ATTEST (R559). -/
def execAttest (len : Nat) (s : State) : Host.Outcome State Fault Refusal := s.live fun s => s.startCmd 0x02 len

/-- ENDORSE (R554). -/
def execEndorse (len : Nat) (s : State) : Host.Outcome State Fault Refusal := s.live fun s => s.startCmd 0x03 len

/-- DBG_CHALLENGE (R578). -/
def execDbgChallenge (len : Nat) (s : State) : Host.Outcome State Fault Refusal := s.live fun s => s.startCmd 0x04 len

/-- DBG_RESPONSE (R578). -/
def execDbgResponse (len : Nat) (s : State) : Host.Outcome State Fault Refusal := s.live fun s => s.startCmd 0x05 len

/-- KEY_LOAD (R575). -/
def execKeyLoad (len : Nat) (s : State) : Host.Outcome State Fault Refusal := s.live fun s => s.startCmd 0x06 len

/-- KEY_ERASE (R575). -/
def execKeyErase (len : Nat) (s : State) : Host.Outcome State Fault Refusal := s.live fun s => s.startCmd 0x07 len

/-- ROLL_FWD (R562). -/
def execRollFwd (len : Nat) (s : State) : Host.Outcome State Fault Refusal := s.live fun s => s.startCmd 0x08 len

/-- A claim (R556, Table 16-4): burned only when every check passes. -/
def State.burnClaim (s : State) (m : Bytes) : Nat × State :=
  let pub := sliceBytes m 0 97
  let wrap := Config.hkdf (Config.ecdh s.security.identity (sliceBytes m 97 97)) s.secId [0x49] 32
  if s.on SEC.STAT_CLAIMED ∨ s.fuses.owner ≠ [] then (0x10, s)
  else if !Config.verify pub (sliceBytes m 0 292) (sliceBytes m 292 96) || sliceBytes m 244 48 != s.secId then (0x10, s)
  else
    match Config.gcmOpen wrap (List.replicate 12 0) [] (sliceBytes m 194 48) with
    | none => (0x10, s)
    | some ik =>
      let s := { s with fuses := { s.fuses with owner := Config.sha384 pub, imageKey := Config.pufWrap ik } }
      (0x00, (s.showSec.wr SEC.STAT_CLAIMED 1).modSec fun x => { x with ownerPub := pub, imageKey := ik })

/-- The attestation report (R559, R551, Table 16-5). -/
def State.report (s : State) (nonce : Bytes) : Bytes :=
  let shut := s.keysShut
  let body := sliceBytes nonce 0 32 ++ (if shut then List.replicate 48 0 else sliceBytes s.secId 0 48) ++ sliceBytes s.fuses.owner 0 48
    ++ sliceBytes s.security.measBoot 0 48
    ++ (if s.isCell || !s.on GRF.STAT_ACTIVE_VALID then List.replicate 48 0 else sliceBytes s.security.measChart 0 48)
    ++ leBytes 1 (s.rd SYS.STRAP_ROLE + 4 * s.rd SYS.STRAP_UNIT + 8 * s.rd SEC.STAT_CLAIMED + 16 * s.rd SEC.STAT_DBG_OPEN)
    ++ leBytes 1 s.fuses.svnMin ++ [0xB0, 0]
  body ++ (if shut then List.replicate 96 0 else sliceBytes (Config.sign s.security.identity body) 0 96)

/-- A debug challenge (R578, R579): the status, the output and the state. -/
def State.dbgChallenge (s : State) (scope : Nat) : Nat × Bytes × State :=
  if (List.range 48).any s.inService then (0x30, [], s)
  else if s.security.entropyBad then (0x21, [], s)
  else
    let ch := sliceBytes (Config.random s.freeCtr) 0 32
    (0x00, ch, s.nextFree.modSec fun x => { x with challenge := some (ch, scope % 4, s.mer.uptime) })

/-- A debug response (R578, R579), written at uptime `asked`. -/
def State.dbgResponse (s : State) (asked : Nat) (sig : Bytes) : Nat × State :=
  let t := s.modSec fun x => { x with challenge := none }
  match s.security.challenge with
  | none => (0x11, t)
  | some (ch, scope, at_) =>
    if asked ≤ at_ + 60 * sec
        ∧ Config.verify s.security.ownerPub (s.secId ++ ch ++ leBytes 1 scope) (sliceBytes sig 0 96) then
      (0x00, ((t.wr SEC.STAT_DBG_OPEN 1).modSec fun x => { x with scope := x.scope ||| scope }).raise 0xA0 6)
    else (0x11, t)

/-- A key placed in a slot (R575). -/
def State.keyLoad (s : State) (m : Bytes) : Nat × State :=
  let slot := leAt m 0 1
  let use := leAt m 1 1
  let alg := leAt m 2 1
  if use = 0 ∨ 3 < use ∨ alg = 0 ∨ 2 < alg ∨ (use ≠ 1 ∧ alg = 2) then (0x13, s)
  else if 16 ≤ slot then (0x30, s)
  else
    (0x00, (s.modSec fun x => { x with slots := Sparse.insert x.slots slot ⟨use, alg, leAt m 4 4, sliceBytes m 8 32⟩ }).wrBit SEC.KEYS_LOADED slot true)

/-- A slot erased. -/
def State.keyErase (s : State) (slot : Nat) : Nat × State :=
  if 16 ≤ slot then (0x30, s)
  else (0x00, (s.modSec fun x => { x with slots := Sparse.erase x.slots slot }).wrBit SEC.KEYS_LOADED slot false)

/-- Anti-rollback steps burned up to a target (R562). -/
def State.rollFwd (s : State) (target : Nat) : Nat × State :=
  if s.security.bootSvn < target ∨ target ≤ s.fuses.svnMin ∨ 64 < target then (0x12, s)
  else (0x00, { s with fuses := { s.fuses with svnMin := target } }.wr SEC.STAT_SVN_MIN target)

/-- What a security command does at its end (R554, R555, Table 16-2): status, output and state. -/
def State.runCmd (s : State) (cmd : Nat) (m : Bytes) (asked : Nat) : Nat × Bytes × State :=
  let out := fun (r : Nat × State) => (r.1, ([] : Bytes), r.2)
  if cmd = 0 ∨ 8 < cmd ∨ (s.isCell ∧ cmd ≠ 1 ∧ cmd ≠ 2 ∧ (cmd ≠ 8 ∨ s.cell.key = [])) then (0x30, [], s)
  else if cmd = 2 then (if s.keysShut then 0x22 else 0x00, s.report m, s)
  else if !s.on SEC.STAT_ID_OK then (0x22, [], s)
  else if cmd = 1 then (if s.keysShut then (0x22, [], s) else out (s.burnClaim m))
  else if cmd = 3 then
    if Config.verify s.security.ownerPub (Config.sha384 (s.secId ++ [0x48])) (sliceBytes m 0 96) && s.on SEC.STAT_CLAIMED then
      (0x00, [], { s with fuses := { s.fuses with endorsement := sliceBytes m 0 96 } })
    else (0x11, [], s)
  else if cmd = 4 then s.dbgChallenge (leAt m 0 1)
  else if cmd = 5 then out (s.dbgResponse asked m)
  else if cmd = 6 then out (s.keyLoad m)
  else if cmd = 7 then out (s.keyErase (leAt m 0 1))
  else out (s.rollFwd (leAt m 0 1))

/-- The time of a command that ends with a status (R553): what it does of Table 16-1; as in Table 17-5, the hash of a short message takes no time of
its own. -/
def cmdTime (cmd st : Nat) : Nat :=
  if 0x20 ≤ st then 0
  else if cmd = 1 then verifyTime + curveTime
  else if cmd = 2 then signTime
  else if cmd = 3 then verifyTime
  else if cmd = 5 then verifyTime
  else 0

/-- CMD_DONE (R554): the command that runs ends, its time after it began. -/
def execCmdDone (s : State) : Host.Outcome State Fault Refusal :=
  s.liveBurn fun s =>
    match s.security.cmd with
    | none => s
    | some (cmd, m, asked) =>
      let (st, out, s) := s.runCmd cmd m asked
      let s := s.engineDone asked (cmdTime cmd st)
      let s := ((s.mboxOut out).wr SEC.STAT_LAST_RES st).wr SEC.STAT_LAST_CMD cmd
      ((s.wr SEC.STAT_BUSY 0).modSec fun x => { x with cmd := none }).raise 0xA0 0

/-- ENTROPY_FAIL (R550). -/
def execEntropyFail (s : State) : Host.Outcome State Fault Refusal :=
  s.live fun s => ((s.wr SEC.STAT_ENTROPY_OK 0).modSec fun x => { x with entropyBad := true }).raise 0xA0 1

/-- ENTROPY_OK (R550, R551). -/
def execEntropyOk (s : State) : Host.Outcome State Fault Refusal := s.liveBurn fun s => s.entropyGood

/-- The key in a slot for a use (R575, R579): none where the slot is not loaded, is loaded for another use, or keys are refused. -/
def State.slotKey (s : State) (slot use : Nat) : Option Bytes :=
  if s.on SEC.STAT_DBG_OPEN then none
  else match Sparse.get s.security.slots slot with
    | none => none
    | some k => if k.use = use then some k.key else none

end Sys2Proof.Machine
end

