-- ==== Sys2Proof/Machine/Chart.lean ====
section
/-! DEFINITION. Chart images (R295 to R298, Tables 8-3 and 8-4) and the load checks of the staged half (R319, Table 8-8). -/

namespace Sys2Proof.Machine

/-- The offset of a half of the Chart store. -/
def chartBase (half : Nat) : Nat := if half = 0 then 0 else 0x100000

/-- The offset of the coefficient bank paired with a half. -/
def coefBase (half : Nat) : Nat := if half = 0 then 0x300000 else 0x340000

/-- The offset of Plotter scratch (Table 1-3). -/
def scratchBase : Nat := 0xF00000

/-- An operation descriptor (Table 8-4). -/
structure Desc where
  opcode : Nat
  prio   : Nat
  deps   : Nat
  flags  : Nat
  wkind  : Nat
  warg   : Nat
  wtmo   : Nat
  succN  : Nat
  succIx : Nat
  guard  : Nat
  ins    : List Nat
  outs   : List Nat
  coef   : Nat
  state  : Nat
  param  : Nat
  deriving DecidableEq, Repr

/-- The offset of descriptor `d` of the image at `base`. -/
def State.descAddr (s : State) (base d : Nat) : Nat := base + s.memLe (base + 20) 4 + 64 * d

/-- Descriptor `d` of the image at `base`; the slots that its opcode uses. -/
def State.descOf (s : State) (base d : Nat) : Desc :=
  let a := s.descAddr base d
  let op := s.memLe a 2
  let row := (legendRow op).getD ⟨0, 0, 0, 0, 0, 0⟩
  { opcode := op, prio := s.memLe (a + 2) 1 % 32, deps := s.memLe (a + 3) 1, flags := s.memLe (a + 4) 1
    wkind := s.memLe (a + 5) 1, warg := s.memLe (a + 6) 2, wtmo := s.memLe (a + 8) 3
    succN := s.memLe (a + 12) 2, guard := s.memLe (a + 14) 2, succIx := s.memLe (a + 16) 4
    ins := (List.range row.ins).map fun i => s.memLe (a + 20 + 2 * i) 2
    outs := (List.range row.outs).map fun i => s.memLe (a + 36 + 2 * i) 2
    coef := s.memLe (a + 44) 2, state := s.memLe (a + 48) 4 % 2 ^ 17, param := s.memLe (a + 52) 4 }

/-- FLAGS bits. -/
def Desc.standing (d : Desc) : Bool := bitOf d.flags 0

/-- POST: the Contour engine does not wait for the operation. -/
def Desc.post (d : Desc) : Bool := bitOf d.flags 1

/-- SKIP_PROP. -/
def Desc.skipProp (d : Desc) : Bool := bitOf d.flags 2

/-- WAIT_EN. -/
def Desc.waitEn (d : Desc) : Bool := bitOf d.flags 3

/-- GUARD_EN. -/
def Desc.guardEn (d : Desc) : Bool := bitOf d.flags 5

/-- The successor list of a descriptor of the image at `base`, as 16-bit pool entries. -/
def State.succWords (s : State) (base : Nat) (d : Desc) : List Nat :=
  (List.range d.succN).map fun i => s.memLe (base + s.memLe (base + 24) 4 + 2 * (d.succIx + i)) 2

/-- The successors of descriptor `d` of the image at `base`. -/
def State.succsOf (s : State) (base d : Nat) : List Nat := (s.succWords base (s.descOf base d)).map (· % 4096)

/-- What is reached from a set along the successor lists, within `n` rounds. -/
def reachFrom (succ : Nat → List Nat) : Nat → List Nat → List Nat → List Nat
  | 0, _, seen => seen
  | n + 1, front, seen =>
    let new := ((front.flatMap succ).dedup).filter fun x => !seen.contains x
    if new.isEmpty then seen else reachFrom succ n new (seen ++ new)

/-- The members of a set that a member of it precedes, taken `n` times: empty for a graph without a cycle. -/
def peel (succ : Nat → List Nat) : Nat → List Nat → List Nat
  | 0, l => l
  | n + 1, l =>
    let kept := l.filter fun x => l.any fun y => (succ y).contains x
    if kept.length = l.length then l else peel succ n kept

/-- The header checks (R295, R296): code 0x02. -/
def State.headerOk (s : State) (b : Nat) : Bool :=
  let f := fun (o n : Nat) => s.memLe (b + o) n
  let len := f 8 4
  let secs := [(f 20 4, 64 * f 18 2), (f 24 4, 2 * f 28 4), (f 32 4, f 36 4)]
  let apart := fun (x y : Nat × Nat) => decide (x.2 = 0 ∨ y.2 = 0 ∨ x.1 + x.2 ≤ y.1 ∨ y.1 + y.2 ≤ x.1)
  f 0 4 == 0x48435647 && f 4 2 == 1 && f 6 2 == 0x40 && f 56 4 == 0 && f 60 4 == crc32 (s.bytesAt b 60)
    && decide (len ≤ 0x100000 ∧ 1 ≤ f 18 2 ∧ f 18 2 ≤ 4096 ∧ f 36 4 % 4 = 0 ∧ f 36 4 ≤ 262144)
    && secs.all (fun x => decide (x.1 % 64 = 0 ∧ x.1 + x.2 ≤ len))
    && apart (secs.getD 0 (0, 0)) (secs.getD 1 (0, 0)) && apart (secs.getD 0 (0, 0)) (secs.getD 2 (0, 0))
    && apart (secs.getD 1 (0, 0)) (secs.getD 2 (0, 0))

/-- The descriptor fields are in range (code 0x04). -/
def State.fieldOk (s : State) (b d : Nat) : Bool :=
  let a := s.descAddr b d
  let f := fun (o n : Nat) => s.memLe (a + o) n
  let x := s.descOf b d
  let row := (legendRow x.opcode).getD ⟨0, 0, 0, 0, 0, 0⟩
  decide (f 2 1 < 32 ∧ f 11 1 = 0 ∧ f 46 2 = 0 ∧ f 48 4 < 2 ^ 17) && x.param &&& (2 ^ 32 - 1 - row.param) == 0
    && (if x.guardEn then x.guard != 0xFFFF else x.guard == 0xFFFF)
    && (row.coefs == 0 || decide (4 * (x.coef + row.coefs) ≤ s.memLe (b + 36) 4))

/-- The load checks 0x02 to 0x0C of the image at `b`, in order: 0 when all pass (Table 8-8). -/
def State.loadChecks (s : State) (b : Nat) : Nat :=
  if !s.headerOk b then 0x02
  else
    let n := s.memLe (b + 18) 2
    let ids := List.range n
    let ds := ids.map (s.descOf b)
    let at_ := fun (d : Nat) => ds.getD d (s.descOf b d)
    if 0x0100 < s.memLe (b + 16) 2 || ds.any (fun x => (legendRow x.opcode).isNone) then 0x03
    else if !ids.all (s.fieldOk b) then 0x04
    else if ds.any (fun x => decide (s.memLe (b + 28) 4 < x.succIx + x.succN ∨ 4095 < x.succN)
        || (s.succWords b x).any fun w => decide (n ≤ w)) then 0x05
    else
      let lists := ds.map fun x => s.succWords b x
      let succ := fun (d : Nat) => lists.getD d []
      if ids.any (fun d => (at_ d).deps != (lists.filter fun l => l.contains d).length) then 0x06
      else if !(peel succ n ids).isEmpty then 0x07
      else
        let down := ids.map fun d => reachFrom succ n [d] []
        let below := fun (x y : Nat) => (down.getD x []).contains y
        let reads := fun (d : Nat) => (at_ d).ins.filter (· != 0xFFFF) ++ (if (at_ d).guardEn then [(at_ d).guard] else [])
        let writes := fun (d : Nat) => (at_ d).outs.filter (· != 0xFFFF)
        let stand := fun (d : Nat) => (at_ d).standing
        if ids.any (fun w => !stand w && ids.any fun r => !stand r && r != w && (reads r).any (writes w).contains && !below w r && !below r w) then
          0x08
        else if ids.any (fun x => !(writes x).Nodup || ids.any fun y => x < y && (writes x).any (writes y).contains)
            || ids.any (fun w => stand w && ids.any fun r => !stand r && (reads r).any (writes w).contains) then 0x09
        else
          let roots := ids.filter fun d => stand d && (at_ d).deps == 0
          if ids.any (fun d => (succ d).any fun e => stand d != stand e)
              || roots.any (fun r => !(at_ r).waitEn || roots.any fun q => q != r && (down.getD r []).any ((down.getD q []).contains ·)) then 0x0A
          else if ds.any (fun x => let w := ((legendRow x.opcode).getD ⟨0, 0, 0, 0, 0, 0⟩).state
              decide (w ≠ 0 ∧ 0x1E000 < x.state + w)) then 0x0B
          else if ds.any (fun x => x.waitEn && (x.wtmo == 0
              || !(x.wkind == 1 && decide (x.warg < 8192) || x.wkind == 2 && decide (x.warg < 16) || x.wkind == 3 && decide (x.warg < 16)))) then 0x0C
          else 0

end Sys2Proof.Machine
end

