-- ==== Sys2Proof/Machine/Graph.lean ====
section
/-! DEFINITION. The graph engine and its scheduler (R289 to R324) and the coefficient queue (R358 to R362): dependence counters, ready
rings, dispatch, legs, waits, skips, cancels, the boundary, staging and swapping. -/

namespace Sys2Proof.Machine

/-- An event of the EVT page that a condition of the GRF page raises (R632). -/
def State.evt (s : State) (n : Nat) : State := s.raise 0xB1 n

/-- The graph engine changed. -/
def State.modGraph (s : State) (f : GraphState → GraphState) : State := { s with graph := f s.graph }

/-- The offset of the active half. -/
def State.activeBase (s : State) : Nat := chartBase (s.rd GRF.STAT_ACTIVE_HALF)

/-- The offset of the staged half. -/
def State.stagedBase (s : State) : Nat := chartBase (1 - s.rd GRF.STAT_ACTIVE_HALF)

/-- The offset of the active coefficient bank. -/
def State.coefBank (s : State) : Nat := coefBase (s.rd GRF.STAT_ACTIVE_HALF)

/-- A descriptor of the active Chart. -/
def State.desc (s : State) (d : Nat) : Desc := s.descOf s.activeBase d

/-- The successors of a descriptor of the active Chart. -/
def State.succs (s : State) (d : Nat) : List Nat := s.succsOf s.activeBase d

/-- An operation not yet run. -/
def idleOp : OpRun :=
  { st := 0, cnt := 0, skipIn := false, tmo := false, full := false, preempt := false, resume := false, since := 0, waitEnd := 0, base := 0,
    left := 0, legAt := 0, res := none, lastDone := none }

/-- A descriptor's present run. -/
def State.op (s : State) (d : Nat) : OpRun := s.graph.ops.getD d idleOp

/-- A descriptor's present run changed. -/
def State.modOp (s : State) (d : Nat) (f : OpRun → OpRun) : State := s.modGraph fun g => { g with ops := modAt g.ops d f }

/-- The descriptors of the active Chart. -/
def State.descs (s : State) : List Nat := List.range s.graph.ops.length

/-- Operations that hold a leg-save slot. -/
def State.waiting (s : State) : Nat := (s.graph.ops.filter fun r => r.st == 3).length

/-- What GRS_STAT, GRS_RDY, GRS_QUERY and GRF_PLOT report. -/
def State.showGraph (s : State) : State :=
  let busy := (List.range 16).filter fun p => (s.graph.plot.getD p none).isSome
  let w := s.waiting
  let q := s.op (s.rd GRS.QUERY_IDX)
  let s := ((s.wr GRF.PLOT_BUSY (maskOf busy)).wr GRF.PLOT_PEAK (max (s.rd GRF.PLOT_PEAK) busy.length)).wr GRS.STAT_EXEC busy.length
  let s := ((s.wr GRS.STAT_WAITING w).wr GRS.STAT_PEAK_WAIT (max (s.rd GRS.STAT_PEAK_WAIT) w)).wr GRS.RDY_NONEMPTY
    (maskOf (s.graph.ready.map fun d => (s.desc d).prio))
  ((s.wr GRS.QUERY_STATE q.st).wrB GRS.QUERY_SKIP_IN q.skipIn).wrB GRS.QUERY_TMO q.tmo

/-! Skips and enqueueing (R301, R310, R313). -/

/-- STALE set in an operation's outputs (R292). -/
def State.staleOuts (s : State) (d : Nat) : State := (s.desc d).outs.foldl State.staleSig s

/-- An operation skipped (R313): outputs stale, GUARDED or SKIPPED counted. -/
def State.markSkipped (s : State) (d : Nat) (guarded : Bool) : State :=
  let s := (s.staleOuts d).modOp d fun r => { r with st := 5 }
  if guarded then s.inc GRS.CNT3_GUARDED else (s.inc GRS.CNT2_SKIPPED).raise 0x61 2

/-- The guard lets an operation run (R310). -/
def State.guardOk (s : State) (d : Desc) : Bool :=
  let g := s.sig d.guard
  !d.guardEn || ((g.valid && (if g.isTime then g.bits != 0 else !(num32 g.bits).isZero)) != bitOf d.flags 6)

/-- The offset of an entry of a ready ring (Table 1-4): 4 096 entries of 2 bytes. -/
def rdySlot (n i : Nat) : Nat := 0xE00000 + 0x2000 * n + 2 * (i % 4096)

/-- A descriptor entered in a list of those ready or resumable, in the cycle that begins at `c`: those of one cycle stand in ascending index
(R301, R302). -/
def State.enterRun (s : State) (l : List Nat) (d c : Nat) : List Nat :=
  l.filter (fun e => (s.op e).since != c) ++ (l.filter (fun e => (s.op e).since == c) ++ [d]).mergeSort fun a b => decide (a ≤ b)

/-- An operation enters its ready ring in the scheduler cycle that begins at `c` (R301), and the ring in the Ring store (R27). -/
def State.enqueue (s : State) (d c : Nat) : State :=
  let x := s.desc d
  let p := x.prio % 32
  let ready := s.enterRun s.graph.ready d c
  let s := (s.modOp d fun r =>
    { r with
      st := 1, full := false, tmo := false, preempt := false, resume := false, since := c, res := none
      base := s.graph.samples.getD x.warg 0 }).modGraph fun g => { g with ready := ready, rdyAt := modAt g.rdyAt p (· + 1) }
  let tie := ready.filter fun e => (s.op e).since == c && (s.desc e).prio % 32 == p
  s.memPut (rdySlot p (s.graph.rdyAt.getD p 0 - tie.length)) (tie.flatMap (leBytes 2))

/-- An operation becomes resumable in the scheduler cycle that begins at `c` (R302). -/
def State.enterResume (s : State) (d c : Nat) : State :=
  let l := s.enterRun s.graph.resume d c
  (s.modOp d fun r => { r with resume := true, since := c }).modGraph fun g => { g with resume := l }

/-- The scheduler's cycle, 2.5 ns at reset: that of output OUT1 of the main PLL (R583, Table 17-2), whose VCO runs at 4 GHz. -/
def State.schedCyc (s : State) : Nat := ns * s.rdA CLK.OUT_DIV 0 1 / 4

/-- The first scheduler cycle that begins at or after the present instant (Table 8-5), by its first instant. -/
def State.schedCycle (s : State) : Nat := ceilDiv s.mer.mer s.schedCyc * s.schedCyc

/-- An operation whose counter is 0 is enqueued or skipped in the cycle `c` (R301, R310 to R313): the second part, that it was skipped. -/
def State.admitOne (s : State) (c d : Nat) : State × Bool :=
  let r := s.op d
  let x := s.desc d
  if r.st = 6 ∨ (r.skipIn ∧ x.skipProp) then (s.markSkipped d false, true)
  else if s.guardOk x then (s.enqueue d c, false)
  else (s.markSkipped d true, true)

/-- Operations admitted in ascending index: the state and those skipped. -/
def State.admitAll (s : State) (c : Nat) (ds : List Nat) : State × List Nat :=
  ds.foldl (fun (p : State × List Nat) d => let (t, sk) := p.1.admitOne c d; (t, if sk then p.2 ++ [d] else p.2)) (s, [])

/-- One successor decrement, with or without a skip marker: the state and whether the counter reached 0. -/
def State.decrement (s : State) (d : Nat) (marker : Bool) : State × Bool :=
  let r := s.op d
  if (r.st = 0 ∨ r.st = 6) ∧ r.cnt ≠ 0 then
    (s.modOp d fun r => { r with cnt := r.cnt - 1, skipIn := r.skipIn || marker }, r.cnt == 1)
  else (s, false)

/-- Successor decrements from the scheduler cycle `c` on, at most 8 in each, in list order (R301, Table 8-5), with the skips that they bring
about. -/
def State.settle : Nat → State → Nat → List (Nat × Bool) → State
  | 0, s, _, _ => s
  | n + 1, s, c, work =>
    if work.isEmpty then s
    else
      let (s, zero) := (work.take 8).foldl (fun (p : State × List Nat) w =>
        let (t, z) := p.1.decrement w.1 w.2; (t, if z then p.2 ++ [w.1] else p.2)) (s, [])
      let (s, skipped) := s.admitAll c (zero.mergeSort fun a b => decide (a ≤ b))
      s.settle n (c + s.schedCyc) (work.drop 8 ++ skipped.flatMap fun d => (s.succs d).map fun e => (e, true))

/-- The scheduler cycles that settling takes at most. -/
def State.settleFuel (s : State) : Nat := 4096 + s.memLe (s.activeBase + 28) 4

/-- The successors of an ended operation decremented. -/
def State.release (s : State) (d : Nat) (marker : Bool) : State :=
  s.settle s.settleFuel s.schedCycle ((s.succs d).map fun e => (e, marker))

/-- Operations admitted, and the successors of those skipped decremented. -/
def State.admitRun (s : State) (ds : List Nat) : State :=
  let c := s.schedCycle
  let (s, skipped) := s.admitAll c ds
  s.settle s.settleFuel c (skipped.flatMap fun d => (s.succs d).map fun e => (e, true))

/-! Standing chains (R300). -/

/-- The standing roots. -/
def State.roots (s : State) : List Nat := s.descs.filter fun d => (s.desc d).standing && (s.desc d).deps == 0

/-- The operations of a root's chain. -/
def State.chain (s : State) (root : Nat) : List Nat := reachFrom s.succs s.graph.ops.length [root] [root]

/-- The counter of an operation reloaded for a new run. -/
def State.reload (s : State) (d : Nat) : State :=
  let x := s.desc d
  s.modOp d fun r =>
    { r with st := 0, cnt := x.deps, skipIn := false, tmo := false, full := false, preempt := false, resume := false, res := none }

/-- A chain's counters reloaded and its root enqueued. -/
def State.startChain (s : State) (root : Nat) : State := ((s.chain root).foldl State.reload s).admitRun [root]

/-- The operation has completed or been skipped in this run. -/
def OpRun.over (r : OpRun) : Bool := r.st == 4 || r.st == 5

/-- Chains all of whose operations have ended run again while the Chart runs (R300, R324). -/
def State.reloadChains (s : State) : State :=
  if s.on GRF.STAT_RUNNING then
    s.roots.foldl (fun s r => if (s.chain r).all fun d => (s.op d).over then s.startChain r else s) s
  else s

/-- The scheduler's state after a command. -/
def State.graphDone (s : State) : State := s.reloadChains.showGraph

/-! Persistent state (R298, R333). -/

/-- The initial state words of an operation. -/
def initState (op param : Nat) (k : Nat → Nat) : List Nat :=
  match op with
  | 0x10 => [0, 0] | 0x11 => [0, fresh, 0] | 0x18 => [0, 0] | 0x20 => [fresh] | 0x21 => [0, 0, 3 * (param % 2)] | 0x34 => [0, 0, 15]
  | 0x38 => [0, 0, pllWord (put32 0 (to32 (num32 (k 2)))) 0 0] | 0x41 => [fresh] | 0x50 => [0, 0, 0] | 0x68 => [0] | 0x69 => [0] | 0x78 => [0]
  | _ => []

/-- State words written from a unit of Plotter scratch. -/
def State.putState (s : State) (u : Nat) (ws : List Nat) : State := s.memPut (scratchBase + 8 * u) (ws.flatMap (leBytes 8))

/-- The operations with INIT_STATE initialised, in the first stride in which the Chart runs. -/
def State.initChart (s : State) : State :=
  s.descs.foldl (fun s d =>
    let x := s.desc d
    if bitOf x.flags 7 then s.putState x.state (initState x.opcode x.param fun k => s.memLe (s.coefBank + 4 * (x.coef + k)) 4) else s) s

/-! Dispatch (R302, R306, R314). -/

/-- The wait condition of an operation holds (Table 8-6, R307). -/
def State.waitHolds (s : State) (d : Nat) : Bool :=
  let x := s.desc d
  if x.wkind = 1 then
    (s.cellAux x.warg).everLanded && s.memLe (cellAddr x.warg + 20 * s.landingSlot + 16) 4 == s.mer.seq
  else if x.wkind = 2 then
    s.graph.samples.getD x.warg 0 != (if x.standing then (s.op d).base else s.graph.atBound.getD x.warg 0)
  else s.rdA HIF.HST_PI 0 x.warg != s.rdA HIF.HST_CI 0 x.warg

/-- A free Plotter whose island executes. -/
def State.freePlotter (s : State) : Option Nat :=
  (List.range 16).find? fun p => (s.graph.plot.getD p none).isNone && s.isl (26 + p / 4) == 2

/-- The cycle cost of an operation (Table 9-1). -/
def State.costOf (s : State) (x : Desc) : Nat :=
  legendCost x.opcode ((x.ins.filter (· != 0xFFFF)).length) (bitOf x.param 0) (sext 32 (s.memLe (s.coefBank + 4 * x.coef) 4))

/-- The candidates for a dispatch at instant `t`, in order: by falling priority, the resumable before the ready; `true`: resumable. What
entered in this cycle waits for the next (Table 8-5). -/
def State.candidates (s : State) (t : Nat) : List (Nat × Bool) :=
  let old := fun (d p : Nat) => (s.desc d).prio == p && decide ((s.op d).since / s.schedCyc < t / s.schedCyc)
  (List.range 32).reverse.flatMap fun p =>
    ((s.graph.resume.filter fun d => old d p).map fun d => (d, true)) ++ (s.graph.ready.filter fun d => old d p).map fun d => (d, false)

/-- The candidate dispatched: an operation that needs a leg-save slot when none is free is held and passed over (R314). -/
def State.choose (s : State) : List (Nat × Bool) → State × Option (Nat × Bool)
  | [] => (s, none)
  | (d, r) :: rest =>
    if r || !(s.desc d).waitEn || s.waitHolds d || decide (s.waiting < 128) then (s, some (d, r))
    else
      let s := if (s.op d).full then s else (s.inc GRS.CNT_WAIT_FULL).raise 0x61 0
      State.choose (s.modOp d fun o => { o with st := 7, full := true }) rest

/-- An operation put on a Plotter: it starts to execute 5 ns after the dispatch, two cycles of the scheduler (Table 8-5, R583). -/
def State.execute (s : State) (d p t : Nat) : State :=
  (s.modOp d fun r => { r with st := 2, preempt := false, resume := false, legAt := t + 2 * s.schedCyc }).modGraph fun g =>
    { g with plot := setAt g.plot p (some d) }

/-- The dispatch of the scheduler cycle of instant `t`, the only one in it (Table 8-5). -/
def State.dispatch (s : State) (t : Nat) : State :=
  match if s.graph.dispAt.any (sameCycle s.schedCyc t) then none else s.freePlotter with
  | none => s
  | some p =>
    let (s, c) := s.choose (s.candidates t)
    let s := if c.isSome then s.modGraph fun g => { g with dispAt := some t } else s
    match c with
    | none => s
    | some (d, true) => (s.modGraph fun g => { g with resume := g.resume.erase d }).execute d p t
    | some (d, false) =>
      let x := s.desc d
      let s := (s.modGraph fun g => { g with ready := g.ready.erase d }).modOp d fun r => { r with left := s.costOf x }
      if !x.waitEn || s.waitHolds d then s.execute d p t
      else s.modOp d fun r => { r with st := 3, waitEnd := t + x.wtmo * ns }

/-- OP_DISPATCH (R302): the scheduler cycle at Meridian instant `t`. -/
def execOpDispatch (t : Nat) (s : State) : Host.Outcome State Fault Refusal :=
  s.live fun s =>
    let s := s.advanceTo t
    (s.dispatch s.mer.mer).graphDone

/-- The Plotter of an operation freed. -/
def State.freePlot (s : State) (d : Nat) : State :=
  s.modGraph fun g => { g with plot := g.plot.map fun p => if p = some d then none else p }

/-- Plotter cycles of a full leg (R304). -/
def legCycles : Nat := 256

/-- The instant at which `n` Plotter cycles from the leg's start have passed: 1.25 ns each at reset, those of output OUT0 (R583, Table 17-2). -/
def State.after (s : State) (r : OpRun) (n : Nat) : Nat := r.legAt + n * ns * s.rdA CLK.OUT_DIV 0 0 / 4

/-- The operation at a leg end is the one to be pre-empted among those that reach a leg end in the same cycle (R304). -/
def State.lowestAt (s : State) (d : Nat) : Bool :=
  let t := s.after (s.op d) legCycles
  let p := (s.desc d).prio
  s.descs.all fun e => e == d || (s.op e).st != 2 || decide ((s.op e).left ≤ legCycles) || s.after (s.op e) legCycles != t
    || decide (p < (s.desc e).prio) || (decide (p = (s.desc e).prio) && decide (e < d))

/-- An operation of strictly higher priority is ready or resumable. -/
def State.higherReady (s : State) (d : Nat) : Bool :=
  let p := (s.desc d).prio
  s.graph.resume.any (fun e => decide (p < (s.desc e).prio))
    || s.graph.ready.any fun e => (s.op e).st == 1 && decide (p < (s.desc e).prio)

/-- LEG_END (R304, R305): operation `d` reaches the end of a leg that is not its last. -/
def execLegEnd (d : Nat) (s : State) : Host.Outcome State Fault Refusal :=
  s.live fun s =>
    let r := s.op d
    if r.st = 2 ∧ legCycles < r.left then
      let s := s.advanceTo (s.after r legCycles)
      let wants := s.higherReady d && s.freePlotter.isNone && s.lowestAt d
      let go := fun (s : State) => s.modOp d fun r => { r with left := r.left - legCycles, legAt := s.after r legCycles }
      if wants then
        if s.waiting < 128 then
          let s := ((s.freePlot d).modOp d fun r => { r with st := 3, preempt := true, left := r.left - legCycles }).enterResume d s.schedCycle
          ((s.inc GRS.CNT3_PREEMPT).raise 0x61 4).graphDone
        else (((go s).inc GRS.CNT_WAIT_FULL).raise 0x61 0).graphDone
      else (go s).graphDone
    else s

/-! Waits (R308, R309). -/

/-- An operation waits in a wait condition. -/
def OpRun.inWait (r : OpRun) : Bool := r.st == 3 && !r.preempt && !r.resume

/-- The wait of an operation ends: it is resumable. -/
def State.endWait (s : State) (d : Nat) (tmo : Bool) : State :=
  (s.modOp d fun r => { r with tmo := tmo }).enterResume d s.schedCycle

/-- WAIT_MET (R308). -/
def execWaitMet (d : Nat) (s : State) : Host.Outcome State Fault Refusal :=
  s.live fun s => if (s.op d).inWait && s.waitHolds d then (s.endWait d false).graphDone else s

/-- A run ended without execution: skipped, and its successors decremented with the skip marker. -/
def State.skipRun (s : State) (d : Nat) : State := (s.markSkipped d false).release d true

/-- WAIT_TMO (R308, R309): a condition that holds in the cycle of the timeout counts as met, one too that becomes true later in that cycle. -/
def execWaitTmo (due : WaitDue) (s : State) : Host.Outcome State Fault Refusal :=
  s.live fun s =>
    let d := due.d
    if (s.op d).inWait then
      let s := s.advanceTo (s.op d).waitEnd
      if due.met || s.waitHolds d then (s.endWait d false).graphDone
      else
        let s := (s.inc GRS.CNT_WAIT_TMO).raise 0x61 1
        (if bitOf (s.desc d).flags 4 then s.skipRun d else s.endWait d true).graphDone
    else s

/-! Execution and completion (R291, R301). -/

/-- The coefficient words that an operation uses: of LUT, those of its N points (Table 9-1). -/
def State.coefWords (s : State) (x : Desc) : Nat :=
  let n := s.memLe (s.coefBank + 4 * x.coef) 4
  if x.opcode = 0x48 then (if n ≤ 1024 then 1 + 2 * n else 1) else ((legendRow x.opcode).getD ⟨0, 0, 0, 0, 0, 0⟩).coefs

/-- What an operation works on as its first leg starts (R291, R330). -/
def State.opIn (s : State) (d : Nat) (x : Desc) (start : Nat) : OpIn :=
  let row := (legendRow x.opcode).getD ⟨0, 0, 0, 0, 0, 0⟩
  let words := s.coefWords x
  let cb := s.coefBank
  let sb := scratchBase + 8 * x.state
  { ins := x.ins.map fun i => if i = 0xFFFF then none else some (s.sig i)
    param := x.param
    coef := fun k => s.memLe (cb + 4 * (x.coef + k)) 4
    room := 65536 - x.coef
    st := (List.range row.state).map fun k => s.memLe (sb + 8 * k) 8
    h := if x.standing then (match (s.op d).lastDone with
        | none => .zero
        | some t => secsOf (min (start - t) sec : Nat)) else s.strideSecs
    now := nsOf start
    hold := s.rd GRF.FBL_HOLD
    bad := s.memBad (cb + 4 * x.coef) (4 * words) || s.memBad sb (8 * row.state) }

/-- The words that an operation reads as its first leg starts: descriptor, inputs, coefficients and state. Those in error are reported (R24). -/
def State.noteOp (s : State) (d : Nat) (x : Desc) : State :=
  let row := (legendRow x.opcode).getD ⟨0, 0, 0, 0, 0, 0⟩
  let s := x.ins.foldl (fun s i => if i = 0xFFFF then s else s.noteRead (sigAddr i) 16) (s.noteRead (s.descAddr s.activeBase d) 64)
  (s.noteRead (s.coefBank + 4 * x.coef) (4 * s.coefWords x)).noteRead (scratchBase + 8 * x.state) (8 * row.state)

/-- The operation of descriptor `d`, of the opcode given, starts its first leg: it reads its inputs and its result is computed, to be written
at its completion. -/
def State.runOp (s : State) (d code : Nat) (f : OpIn → OpRes) : State :=
  let r := s.op d
  let x := s.desc d
  if r.st = 2 ∧ r.res = none ∧ x.opcode = code then
    let s := s.advanceTo r.legAt
    let res := f (s.opIn d x r.legAt)
    (s.noteOp d x).modOp d fun r => { r with res := some res }
  else s

/-- A small integer held as a binary32 status value. -/
def statusOf (bits : Nat) : Nat := ((num32 bits).trunc.toNat) % 2 ^ 24

/-- One output written (R291, R308). -/
def State.putOut (s : State) (d i : Nat) (tmo : Bool) (v : OutV) : State :=
  let s := match v with
    | .val b ok t => s.putSig i b ok t false d
    | .keep ok => s.putSig i (s.sig i).bits ok (s.sig i).isTime false d
    | .mark m ok => s.putSig i (bits32 (numNat (statusOf (s.sig i).bits ||| m))) ok false false d
  if tmo then s.staleSig i else s

/-- The outputs written in one transaction. -/
def State.putOuts (s : State) (d : Nat) (x : Desc) (tmo : Bool) (outs : List (Option OutV)) : State :=
  (x.outs.zip outs).foldl (fun s o => match o.2 with
    | none => s
    | some v => if o.1 = 0xFFFF then s else s.putOut d o.1 tmo v) s

/-- NUM_FAULT counted `n` times (R332). -/
def State.numFaults (s : State) (n : Nat) : State := (List.range n).foldl (fun s _ => (s.inc GRF.LGD_CNT_NUM_FAULT).evt 2) s

/-- CONTROL_FEEDBACK_LOST raised by a descriptor (R356). -/
def State.raiseCfl (s : State) (d : Nat) : State :=
  let was := s.on GRF.FBL_STAT_CFL
  let s := { s with ctr := { s.ctr with cflNext := true } }
  if was then
    if s.graph.cflSeq = s.mer.seq then s.wr GRF.FBL_STAT_DESC (min d (s.rd GRF.FBL_STAT_DESC)) else s
  else (((s.wr GRF.FBL_STAT_CFL 1).wr GRF.FBL_STAT_DESC d).modGraph fun g => { g with cflSeq := s.mer.seq }).evt 0

/-- The entries queued reported. -/
def State.showCoefs (s : State) : State := s.wr GRF.COEF_STAT_DEPTH s.graph.coefs.length

/-- COEF_WAIT counted (R360, R361). -/
def State.coefWait (s : State) : State := (s.inc GRF.LGD_CNT_COEF_WAIT).evt 4

/-- COEF_WR enqueues its value (R361), before the host's entries of its cycle; those that name its word are discarded (R359). -/
def State.coefWr (s : State) (d : Nat) (x : Desc) (v : Nat) : State :=
  let w := x.param % 65536
  if s.memLe (s.coefBank + 4 * w) 4 = v % 2 ^ 32 ∨ s.graph.coefs.any (fun c => c.desc == some d) then s
  else if 256 ≤ s.graph.coefs.length then s.coefWait
  else
    let tie := fun (c : CoefEntry) => c.desc.isNone && sameCycle s.schedCyc c.time s.mer.mer
    let hosts := s.graph.coefs.filter tie
    let s := (hosts.filter fun c => c.word == w).foldl (fun s _ => s.inc GRF.CNT2_HOST_COLLIDE) s
    (s.modGraph fun g =>
      { g with coefs := g.coefs.filter (fun c => !tie c) ++ [⟨w, v % 2 ^ 32, some d, s.mer.mer⟩] ++ hosts.filter fun c => c.word != w }).showCoefs

/-- A cancel of a descriptor (R311, Table 8-7); one in the cycle in which its target's wait was met wins (R312). -/
def State.cancel (s : State) (d : Nat) : State :=
  let r := s.op d
  if s.graph.ops.length ≤ d ∨ r.st = 6 then s
  else if r.st = 0 then s.modOp d fun r => { r with st := 6 }
  else if r.st = 1 ∨ r.st = 7 then (s.modGraph fun g => { g with ready := g.ready.erase d }).skipRun d
  else if r.inWait then s.skipRun d
  else if r.st = 3 ∧ !r.preempt ∧ !r.tmo ∧ r.since = s.schedCycle then (s.modGraph fun g => { g with resume := g.resume.erase d }).skipRun d
  else (s.inc GRS.CNT2_CANCEL_LATE).raise 0x61 3

/-- The action of a CMP event (R352). -/
def State.cmpEvent (s : State) (param : Nat) : State :=
  let s := if bitOf param 3 then
      let t := s.wrBit GRF.LGD_EVT_LINE (bitsOf param 28 4) true
      if s.rd GRF.LGD_EVT_LINE = t.rd GRF.LGD_EVT_LINE then t else t.evt 1
    else s
  if bitOf param 2 then s.cancel (bitsOf param 16 12) else s

/-- The stop sources of a STOPREQ, from the next launch boundary (R353). -/
def State.stopReq (s : State) (groups : Nat) (on : Bool) : State :=
  let m := if on then s.ctr.chartNext ||| groups else s.ctr.chartNext &&& (4095 - groups % 4096)
  ({ s with ctr := { s.ctr with chartNext := m } }).wr GRF.STOPREQ_GROUPS m

/-- The end of a stride operation with POST clear in GRF_DL, in 10 ns units after the boundary. -/
def State.noteEnd (s : State) (x : Desc) (t : Nat) : State :=
  if x.standing || x.post then s
  else s.modGraph fun g => { g with lastEnd := max g.lastEnd (min 0xFFFF (ceilDiv (t - s.mer.lastS) (10 * ns))) }

/-- A host ring's entry consumed by an operation whose wait on it was met (R625). -/
def State.takeEntry (s : State) (x : Desc) (tmo : Bool) : State :=
  if x.waitEn && x.wkind == 3 && !tmo && s.rdA HIF.HST_USE 0 x.warg == 1 then s.wrA HIF.HST_CI 0 x.warg (s.rdA HIF.HST_CI 0 x.warg + 1)
  else s

/-- What an operation's result does beside its outputs and its state. -/
def State.sideEffects (s : State) (d : Nat) (x : Desc) (r : OpRes) : State :=
  let s := s.numFaults r.faults
  let s := if r.cfl then s.raiseCfl d else s
  let s := match r.stop with
    | none => s
    | some on => s.stopReq (x.param % 4096) on
  let s := match r.coef with
    | none => s
    | some v => s.coefWr d x v
  let s := match r.axis with
    | none => s
    | some (th, om) => s.driveAxis (x.param % 16) th om (match r.outs.headD none with
      | some (.val _ ok _) => ok
      | _ => false)
  if r.event then s.cmpEvent x.param else s

/-- OP_COMPLETE (R291, R301): operation `d`, in its last leg, ends. -/
def execOpComplete (d : Nat) (s : State) : Host.Outcome State Fault Refusal :=
  s.live fun s =>
    let r := s.op d
    match r.st, r.res with
    | 2, some res =>
      if legCycles < r.left then s
      else
        let x := s.desc d
        let t := s.after r r.left
        let s := s.advanceTo t
        let s := ((s.putOuts d x r.tmo res.outs).putState x.state res.st).freePlot d
        let s := s.modOp d fun r => { r with st := 4, lastDone := some t }
        let s := ((s.noteEnd x t).takeEntry x r.tmo).sideEffects d x res
        (s.release d false).graphDone
    | _, _ => s

/-- CANCEL (R311): a host write of GRS_CANCEL. -/
def execCancel (idx : Nat) (s : State) : Host.Outcome State Fault Refusal :=
  s.live fun s => s.busWrite 0x61 0x040 (idx % 4096) fun s => (s.cancel (idx % 4096)).graphDone

/-! The operations of the Legend, each at the start of its first leg. -/

/-- XCOPY (R354). -/
def execXcopy (d : Nat) (s : State) : Host.Outcome State Fault Refusal := s.live fun s => s.runOp d 0x01 opXcopy

/-- WSUM (R334). -/
def execWsum (d : Nat) (s : State) : Host.Outcome State Fault Refusal := s.live fun s => s.runOp d 0x08 opWsum

/-- MUL (R334). -/
def execMul (d : Nat) (s : State) : Host.Outcome State Fault Refusal := s.live fun s => s.runOp d 0x09 opMul

/-- PI (R340). -/
def execPi (d : Nat) (s : State) : Host.Outcome State Fault Refusal := s.live fun s => s.runOp d 0x10 opPi

/-- PI_RS (R341). -/
def execPiRs (d : Nat) (s : State) : Host.Outcome State Fault Refusal := s.live fun s => s.runOp d 0x11 opPiRs

/-- RAMP (R342). -/
def execRamp (d : Nat) (s : State) : Host.Outcome State Fault Refusal := s.live fun s => s.runOp d 0x18 opRamp

/-- LPF1 (R343). -/
def execLpf1 (d : Nat) (s : State) : Host.Outcome State Fault Refusal := s.live fun s => s.runOp d 0x20 opLpf1

/-- BIQ2 (R344). -/
def execBiq2 (d : Nat) (s : State) : Host.Outcome State Fault Refusal := s.live fun s => s.runOp d 0x21 opBiq2

/-- CLARKE (R345). -/
def execClarke (d : Nat) (s : State) : Host.Outcome State Fault Refusal := s.live fun s => s.runOp d 0x30 opClarke

/-- ICLARKE (R345). -/
def execIclarke (d : Nat) (s : State) : Host.Outcome State Fault Refusal := s.live fun s => s.runOp d 0x31 opIclarke

/-- PARK (R346). -/
def execPark (d : Nat) (s : State) : Host.Outcome State Fault Refusal := s.live fun s => s.runOp d 0x32 opPark

/-- IPARK (R346). -/
def execIpark (d : Nat) (s : State) : Host.Outcome State Fault Refusal := s.live fun s => s.runOp d 0x33 opIpark

/-- SEQ (R347). -/
def execSeq (d : Nat) (s : State) : Host.Outcome State Fault Refusal := s.live fun s => s.runOp d 0x34 opSeq

/-- PLL (R348). -/
def execPll (d : Nat) (s : State) : Host.Outcome State Fault Refusal := s.live fun s => s.runOp d 0x38 opPll

/-- LIM (R336). -/
def execLim (d : Nat) (s : State) : Host.Outcome State Fault Refusal := s.live fun s => s.runOp d 0x40 opLim

/-- RLIM (R337). -/
def execRlim (d : Nat) (s : State) : Host.Outcome State Fault Refusal := s.live fun s => s.runOp d 0x41 opRlim

/-- LUT (R338). -/
def execLut (d : Nat) (s : State) : Host.Outcome State Fault Refusal := s.live fun s => s.runOp d 0x48 opLut

/-- CCSC (R350). -/
def execCcsc (d : Nat) (s : State) : Host.Outcome State Fault Refusal := s.live fun s => s.runOp d 0x50 opCcsc

/-- MIN (R335). -/
def execMin (d : Nat) (s : State) : Host.Outcome State Fault Refusal := s.live fun s => s.runOp d 0x58 opMin

/-- MAX (R335). -/
def execMax (d : Nat) (s : State) : Host.Outcome State Fault Refusal := s.live fun s => s.runOp d 0x59 opMax

/-- MED (R335). -/
def execMed (d : Nat) (s : State) : Host.Outcome State Fault Refusal := s.live fun s => s.runOp d 0x5A opMed

/-- GEAR (R339). -/
def execGear (d : Nat) (s : State) : Host.Outcome State Fault Refusal := s.live fun s => s.runOp d 0x60 opGear

/-- CMP (R352). -/
def execCmp (d : Nat) (s : State) : Host.Outcome State Fault Refusal := s.live fun s => s.runOp d 0x68 opCmp

/-- STOPREQ (R353). -/
def execStopreq (d : Nat) (s : State) : Host.Outcome State Fault Refusal := s.live fun s => s.runOp d 0x69 opStopreq

/-- COEF_WR (R361). -/
def execCoefWr (d : Nat) (s : State) : Host.Outcome State Fault Refusal := s.live fun s => s.runOp d 0x78 opCoefWr

/-! The compute stride (R299, R315 to R317, R324). -/

/-- CHART_START (R299): S + t_cs of the present compute stride. -/
def execChartStart (s : State) : Host.Outcome State Fault Refusal :=
  s.live fun s =>
    let s := s.advanceTo (s.mer.lastS + 50 * ns)
    if s.on GRF.STAT_RUNNING && !s.graph.started then
      let ds := s.descs.filter fun d => !(s.desc d).standing
      let s := ds.foldl State.reload (s.modGraph fun g => { g with started := true, lastEnd := 0 })
      (s.admitRun (ds.filter fun d => (s.desc d).deps == 0)).graphDone
    else s

/-- An executing operation ends in the present scheduler cycle: it is in time for a deadline that falls in it (R315). -/
def State.endsNow (s : State) (d : Nat) : Bool :=
  let r := s.op d
  r.st == 2 && decide (r.left ≤ legCycles ∧ s.after r r.left ≤ cycleEnd s.schedCyc s.mer.mer)

/-- CHART_DEADLINE (R315, R316). -/
def execChartDeadline (s : State) : Host.Outcome State Fault Refusal :=
  s.live fun s =>
    let s := s.advanceTo s.deadlineAt
    if s.graph.started && s.descs.any (fun d => !(s.desc d).standing && !(s.desc d).post && !(s.op d).over && !s.endsNow d) then
      (((s.modGraph fun g => { g with lastEnd := 0xFFFF }).inc GRF.CNT_DL_MISS).raise 0x60 5).diagnose 1
    else s

/-- An unfinished operation aborted (R317). -/
def State.abortOp (s : State) (d : Nat) : State :=
  let r := s.op d
  if r.over then s
  else
    let s := if r.st = 2 ∨ r.st = 3 then (s.freePlot d).staleOuts d else s.markSkipped d false
    (s.modOp d fun r => { r with st := 5 }).modGraph fun g => { g with ready := g.ready.erase d, resume := g.resume.erase d }

/-- Operations aborted; OVERRUN counted when one was and it is to be counted. -/
def State.abortAll (s : State) (ds : List Nat) (counted : Bool) : State :=
  let left := ds.filter fun d => !(s.op d).over
  let s := left.foldl State.abortOp s
  if left.isEmpty || !counted then s else ((s.inc GRF.CNT_OVERRUN).raise 0x60 6).diagnose 2

/-- GRF_DL of the stride just ended. -/
def State.showDl (s : State) : State :=
  if s.graph.started then (s.wr GRF.DL_LAST_END s.graph.lastEnd).wr GRF.DL_PEAK_END (max (s.rd GRF.DL_PEAK_END) s.graph.lastEnd) else s

/-- The armed swap takes place at this boundary (R321). -/
def State.swapDue (s : State) : Bool :=
  s.on GRF.STAT_SWAP_PEND && s.rd GRF.STAT_STAGED == 2 && (!s.on GRF.CTL_AT_SEQ || s.rd GRF.SWAP_SEQ == s.mer.seq)

/-- The held coefficient writes enter the queue while it has room (R360). -/
def State.coefResume (s : State) : State :=
  match s.graph.coefHeld with
  | [] => s
  | c :: rest =>
    if s.graph.coefs.length < 256 then (s.modGraph fun g => { g with coefs := g.coefs ++ [c], coefHeld := rest }).showCoefs else s

/-- Entries still queued at a swap discarded (R362). -/
def State.dropCoefs (s : State) : State :=
  let n := s.graph.coefs.length
  ((List.range n).foldl (fun s _ => (s.inc GRF.LGD_CNT_COEF_DROP).evt 3) (s.modGraph fun g => { g with coefs := [] })).showCoefs

/-- The active and staged pairs exchanged (R321). -/
def State.swapPairs (s : State) : State :=
  let s := s.dropCoefs
  let was := s.on GRF.STAT_ACTIVE_VALID
  let s := s.wr GRF.STAT_ACTIVE_HALF (1 - s.rd GRF.STAT_ACTIVE_HALF)
  let n := s.memLe (s.activeBase + 18) 2
  let s := (List.range 4).foldl (fun s i => (s.wrA GRF.ACTIVE_ID_CHART_ID 0 i (s.rdA GRF.STAGED_ID_CHART_ID 0 i)).wrA GRF.STAGED_ID_CHART_ID 0 i 0) s
  let s := (((s.wr GRF.STAT_ACTIVE_VALID 1).wr GRF.STAT_N_DESC n).wr GRF.STAT_STAGED 0).wr GRF.STAT_SWAP_PEND 0
  let s := (s.modSec fun x => { x with measChart := x.measStage, measStage := x.measChart }).modGraph fun g =>
    { g with ops := List.replicate n idleOp, ready := [], resume := [], plot := List.replicate 16 none, fresh := true, opened := was, axisErr := [] }
  (s.inc GRF.CNT2_SWAPS).raise 0x60 3

/-- Up to 16 queued coefficients applied to the active bank (R358). -/
def State.applyCoefs (s : State) : State :=
  let now := s.graph.coefs.take 16
  let s := now.foldl (fun s c => s.memPutLe (s.coefBank + 4 * c.word) 4 c.value) s
  ((s.modGraph fun g => { g with coefs := g.coefs.drop 16 }).wr GRF.COEF_STAT_APPLIED now.length).showCoefs

/-- RUN takes effect (R324): standing chains start with the Chart (R300), and its state is initialised in its first stride (R298). -/
def State.runNow (s : State) (swapped : Bool) : State :=
  let run := s.on GRF.CTL_RUN && s.on GRF.STAT_ACTIVE_VALID
  let was := s.on GRF.STAT_RUNNING
  let s := s.wrB GRF.STAT_RUNNING run
  let s := if was && !run then s.abortAll s.descs false else s
  let s := if run && s.graph.fresh then s.initChart.modGraph fun g => { g with fresh := false } else s
  if run && (!was || swapped) then s.roots.foldl State.startChain s else s

/-- The stop sources that the Chart ordered take effect, and a clear of CFL (R353, R356, R357). -/
def State.stopsNow (s : State) : State :=
  let s := if s.graph.cflClr then
      ({ s.wr GRF.FBL_STAT_CFL 0 with ctr := { s.ctr with cflNext := false } }).modGraph fun g => { g with cflClr := false }
    else s
  let s := { s with ctr := { s.ctr with chartStop := s.ctr.chartNext, cflStop := s.ctr.cflNext } }
  s.wrB GRF.FBL_STAT_STOP_ACTIVE (s.ctr.cflStop && s.on GRF.FBL_STOP_EN)

/-- What the graph engine does at a boundary: the last stride's operations aborted, the swap, RUN, coefficients, stop sources (R317, R321,
R324, R353, R356 to R358). -/
def State.graphBoundary (s : State) : State :=
  let s := s.showDl
  let s := if s.graph.started then s.abortAll (s.descs.filter fun d => !(s.desc d).standing) (s.on GRF.CTL_RUN) else s
  let swap := s.swapDue
  let s := if swap then (s.abortAll s.descs (s.on GRF.CTL_RUN && s.on GRF.STAT_RUNNING)).swapPairs else s.applyCoefs
  let s := (s.runNow swap).stopsNow
  (s.modGraph fun g => { g with started := false, lastEnd := 0, atBound := g.samples }).graphDone

/-! Staging and swapping (R319 to R323). -/

/-- The staged half is emptied by a write into it (R320). -/
def State.stageLost (s : State) : State :=
  let st := s.rd GRF.STAT_STAGED
  let s := s.modGraph fun g => { g with opened := false }
  if st = 1 ∨ st = 2 then ((s.wr GRF.STAT_STAGED 0).wr GRF.STAT_SWAP_PEND 0).raise 0x60 2 else s

/-- A swap armed in the scheduler cycle of a boundary that has been taken is made at that boundary (R323): the Chart of its stride has not
started. -/
def State.swapLate (s : State) : State :=
  if s.swapDue && s.isHub && !s.on GRF.CTL_AT_SEQ && s.mer.lastS != 0 && sameCycle cyc400 s.mer.mer s.mer.lastS && !s.graph.started then
    ((s.abortAll s.descs (s.on GRF.CTL_RUN && s.on GRF.STAT_RUNNING)).swapPairs.runNow true).graphDone
  else s

/-- A swap armed, or refused (R321, R322, R323). -/
def State.armSwap (s : State) : State :=
  let d := (s.rd GRF.SWAP_SEQ + 2 ^ 32 - s.mer.seq) % 2 ^ 32
  if s.rd GRF.STAT_STAGED ≠ 2 ∨ s.on GRF.STAT_SWAP_PEND ∨ (s.on GRF.CTL_AT_SEQ ∧ (d = 0 ∨ 2 ^ 31 ≤ d)) then s.raise 0x60 4
  else (s.wr GRF.STAT_SWAP_PEND 1).swapLate

/-- A write of GRF_CTL (R319, R321, R323, R324). -/
def State.grfCtlWrite (s : State) (v : Nat) : State :=
  let s := s.noteErrors 0x60 0x040 v
  let s := s.wrB GRF.CTL_AT_SEQ (bitOf v 4)
  let s := if bitOf v 0 && !s.on GRF.STAT_ACTIVE_VALID then s.accessErr 0x60 0x040 4 else s.wrB GRF.CTL_RUN (bitOf v 0)
  let s := if bitOf v 1 then (s.wr GRF.STAT_STAGED 1).modGraph fun g => { g with checkAt := s.mer.uptime } else s
  let s := if bitOf v 2 then s.armSwap else s
  if bitOf v 3 then s.wr GRF.STAT_SWAP_PEND 0 else s

/-- GRF_CTL with its RW fields as they are and the bits given. -/
def State.grfCtl (s : State) (bits : Nat) : State :=
  s.actWrite 0x60 0x040 bits fun s => s.grfCtlWrite (ofBool (s.on GRF.CTL_RUN) + 16 * ofBool (s.on GRF.CTL_AT_SEQ) + bits)

/-- STAGE (R319). -/
def execStage (s : State) : Host.Outcome State Fault Refusal := s.live fun s => s.grfCtl 2

/-- SWAP (R321, R322). -/
def execSwap (s : State) : Host.Outcome State Fault Refusal := s.live fun s => s.grfCtl 4

/-- SWAP_CANCEL (R323). -/
def execSwapCancel (s : State) : Host.Outcome State Fault Refusal := s.live fun s => s.grfCtl 8

/-- RUN (R324): a write of GRF_CTL.RUN. -/
def execRun (on : Bool) (s : State) : Host.Outcome State Fault Refusal :=
  s.live fun s =>
    let v := 16 * ofBool (s.on GRF.CTL_AT_SEQ) + ofBool on
    s.busWrite 0x60 0x040 v fun s => s.grfCtlWrite v

/-- The staged half rejected with a code. -/
def State.stageReject (s : State) (code : Nat) : State :=
  (((s.wr GRF.STAT_STAGED 3).wr GRF.STAT_REJECT code).inc GRF.CNT2_REJECTS).raise 0x60 1

/-- The envelope checks of the staged half (R319, R561): the state with the plaintext at the start of the half, and the status. A half that
still holds a plaintext that they released passes. -/
def State.openStaged (s : State) : State × Nat :=
  if s.graph.opened then (s, 0)
  else
    let b := s.stagedBase
    let hdr := s.bytesAt b 256
    let body := s.bytesAt (b + 256) (min 0xFFF00 (leAt hdr 12 4))
    let (st, plain) := s.envelope 3 0xFFF00 hdr body none
    let st := if st = 0 ∧ leAt plain 12 4 ≠ leAt hdr 8 4 then 0x08 else st
    let s := (s.envelopeDone s.graph.checkAt st false hdr).envResult st
    if st = 0 then (((s.memPut b plain).modSec fun x => { x with measStage := envMeas hdr body }).modGraph fun g => { g with opened := true }, 0)
    else (s, st)

/-- The checks of the staged half end (R319): rejected with the first code, or valid with its coefficients in the staged bank. -/
def State.stageCheck (s : State) : State :=
  let (s, st) := s.openStaged
  if st ≠ 0 then s.stageReject 0x01
  else
    let b := s.stagedBase
    let code := s.loadChecks b
    if code ≠ 0 then s.stageReject code
    else
      let s := s.memPut (coefBase (1 - s.rd GRF.STAT_ACTIVE_HALF)) (s.bytesAt (b + s.memLe (b + 32) 4) (s.memLe (b + 36) 4))
      let s := (List.range 4).foldl (fun s i => s.wrA GRF.STAGED_ID_CHART_ID 0 i (s.memLe (b + 40 + 4 * i) 4)) s
      (s.wr GRF.STAT_STAGED 2).raise 0x60 0

/-- STAGE_CHECK_DONE (R319). -/
def execStageCheckDone (s : State) : Host.Outcome State Fault Refusal :=
  s.live fun s => if s.rd GRF.STAT_STAGED = 1 then s.stageCheck else s

/-! Coefficient writes and feedback loss (R357 to R360). -/

/-- An entry that arrives in the cycle of a boundary already taken counts as arrived before it: the boundary still applies it while it has
applied fewer than 16 (R35, R358). -/
def State.coefLate (s : State) : State :=
  match s.graph.coefs with
  | c :: rest =>
    if s.isHub && s.mer.lastS != 0 && sameCycle cyc400 s.mer.mer s.mer.lastS && decide (s.rd GRF.COEF_STAT_APPLIED < 16) then
      (((s.memPutLe (s.coefBank + 4 * c.word) 4 c.value).modGraph fun g => { g with coefs := rest }).wr GRF.COEF_STAT_APPLIED
        (s.rd GRF.COEF_STAT_APPLIED + 1)).showCoefs
    else s
  | [] => s

/-- A write of GRF_COEF_DATA (R358 to R360): `collides`, it arrives in the cycle of the graph's last entry. -/
def State.coefDataWrite (s : State) (v : Nat) (collides : Bool) : State :=
  let w := s.rd GRF.COEF_ADDR_WORD
  let s := if s.on GRF.COEF_ADDR_AUTOINC then s.wr GRF.COEF_ADDR_WORD (w + 1) else s
  let c : CoefEntry := ⟨w, v % 2 ^ 32, none, s.mer.mer⟩
  if collides && (s.graph.coefs.getLast?.any fun e => e.desc.isSome && e.word == w) then (s.inc GRF.CNT2_HOST_COLLIDE)
  else if s.graph.coefs.length < 256 && s.graph.coefHeld.isEmpty then
    (s.modGraph fun g => { g with coefs := g.coefs ++ [c] }).showCoefs.coefLate
  else (s.modGraph fun g => { g with coefHeld := g.coefHeld ++ [c] }).coefWait

/-- COEF_DATA_WRITE (R358, R359). -/
def execCoefDataWrite (value : Nat) (collides : Bool) (s : State) : Host.Outcome State Fault Refusal :=
  s.live fun s => s.busWrite 0x60 0x084 value fun s => s.coefDataWrite value collides

/-- COEF_WRITE_RESUME (R360): a held write enters the queue when an entry has freed. -/
def execCoefWriteResume (s : State) : Host.Outcome State Fault Refusal := s.live fun s => s.coefResume

/-- A write of GRF_FBL_STAT (R357): a clear of CFL waits for the boundary. -/
def State.fblStatWrite (s : State) (v : Nat) : State :=
  let s := s.noteErrors 0x60 0x090 v
  if bitOf v 0 && s.on GRF.FBL_STAT_CFL then s.modGraph fun g => { g with cflClr := true } else s

/-- CFL_CLEAR (R357). -/
def execCflClear (s : State) : Host.Outcome State Fault Refusal :=
  s.live fun s => s.busWrite 0x60 0x090 1 fun s => s.fblStatWrite 1

end Sys2Proof.Machine
end

