-- ==== Sys2Proof/Machine/HostRing.lean ====
section
/-! DEFINITION. Host writes into SRAM (R22, R293, R294, R320, R487, R622), the host rings (R28, R624, R625) and the DMA engines (R626 to
R628). -/

namespace Sys2Proof.Machine

/-- The host interface changed. -/
def State.modHif (s : State) (f : HifState → HifState) : State := { s with hif := f s.hif }

/-! Writes into SRAM. -/

/-- The half of the Chart store, or the coefficient bank paired with it, that an offset lies in. -/
def chartPart (a : Nat) : Option Nat :=
  if a < 0x200000 then some (a / 0x100000)
  else if 0x300000 ≤ a ∧ a < 0x380000 then some ((a - 0x300000) / 0x40000)
  else none

/-- An offset lies in the active Chart's half or in its coefficient bank (R22). -/
def State.activePart (s : State) (a : Nat) : Bool := s.on GRF.STAT_ACTIVE_VALID && chartPart a == some (s.rd GRF.STAT_ACTIVE_HALF)

/-- An offset lies in a signal slot. -/
def inSignals (a : Nat) : Bool := decide (0x200000 ≤ a ∧ a < 0x300000)

/-- Software's own bytes of a Cell table entry (R151). -/
def softCell (a : Nat) : Bool :=
  let o := a % 128
  decide (0x400000 ≤ a ∧ a < 0x500000) && (decide (44 ≤ o ∧ o < 52) || o == 66 || decide (96 ≤ o))

/-- A write cut at every 16-byte boundary and where the bytes pass into or out of the mirrored set: offset and bytes of each piece. -/
def cutWrite (a : Nat) : Bytes → List (Nat × Bytes)
  | [] => []
  | b :: bs =>
    match cutWrite (a + 1) bs with
    | (c, p) :: ps => if (a + 1) % 16 ≠ 0 ∧ softCell a = softCell c then (a, b :: p) :: ps else (a, [b]) :: (c, p) :: ps
    | [] => [(a, [b])]

/-- A piece of a host write is discarded: the active Chart's part, or a slot without its bytes 0 to 8 (R22, R293). -/
def State.pieceBarred (s : State) (a : Nat) (p : Bytes) : Bool :=
  s.activePart a || (inSignals a && (a % 16 != 0 || decide (p.length < 9)))

/-- One piece of a host write performed (R293, R294, R320); `collides` holds the slots that the graph writes in the same cycle. -/
def State.writePiece (s : State) (collides : List Nat) (a : Nat) (p : Bytes) : State :=
  if inSignals a then
    let i := (a - 0x200000) / 16
    if collides.contains i then (s.inc GRF.CNT2_HOST_COLLIDE).raise 0x60 7
    else s.putSig i (leAt p 0 8) (bitOf (leAt p 8 1) 0) (bitOf (leAt p 8 1) 2) true 0xFFFF
  else
    let s := s.memPut a p
    if (chartPart a).isSome then s.stageLost else s

/-- A piece of a BAR2 write: mirrored, discarded or performed. -/
def State.bar2Piece (s : State) (collides : List Nat) (a : Nat) (p : Bytes) : State :=
  if s.pieceBarred a p then s.accessErr 0xB0 a 7
  else if s.mirroring && (inSignals a || softCell a) then
    s.mirrorWrite { b := 0, page := 0, bar2 := true, ofs := a, data := p, unit := 0 }
  else s.writePiece collides a p

/-- A BAR2 write (R622). -/
def State.bar2Write (s : State) (a : Nat) (data : Bytes) (collides : List Nat) : State :=
  (cutWrite a data).foldl (fun s p => s.bar2Piece collides p.1 p.2) s

/-- What a write of `data` at `a` leaves beside the bytes from `o` to `o + n`: the runs before and after them. -/
def writeBeside (o n a : Nat) (data : Bytes) : List (Nat × Bytes) :=
  [(a, data.take (o - a)), (max a (o + n), data.drop (o + n - a))]

/-- BAR2_WRITE (R622): bytes from an offset; where a DMA write reaches one in the same cycle, its value stands (R628). -/
def execBar2Write (ofs : Nat) (data : Bytes) (ties : StoreTies) (s : State) : Host.Outcome State Fault Refusal :=
  if 0x1000000 < ofs + data.length then .fault (.outsideSram (ofs + data.length))
  else s.live fun s =>
    if !s.isHub then s
    else if ties.dma.2 = 0 then s.bar2Write ofs data ties.slots
    else (writeBeside ties.dma.1 ties.dma.2 ofs data).foldl (fun s p => s.bar2Write p.1 p.2 ties.slots) s

/-! Host rings. -/

/-- The offset of an entry of a host ring by its index. -/
def hstSlot (r i : Nat) : Nat := 0xE70000 + 0x8000 * r + 64 * (i % 512)

/-- Entries that a host ring holds (R624). -/
def State.hstCount (s : State) (r : Nat) : Nat := (s.rdA HIF.HST_PI 0 r + 65536 - s.rdA HIF.HST_CI 0 r) % 65536

/-- A wait on a full host ring counted (R28). -/
def State.hstFull (s : State) (r : Nat) : State := (s.addCntA HIF.HST_RING_FULL 0 r 1).raise 0xB0 5

/-- An entry written and PI advanced. -/
def State.hstPut (s : State) (r : Nat) (e : Bytes) : State :=
  (s.memPut (hstSlot r (s.rdA HIF.HST_PI 0 r)) (sliceBytes e 0 64)).wrA HIF.HST_PI 0 r (s.rdA HIF.HST_PI 0 r + 1)

/-- An entry that the device produces: written, or its producer waits (R28). -/
def State.hstPush (s : State) (r : Nat) (e : Bytes) : State :=
  if s.hstCount r < 512 ∧ s.hif.waits.getD r [] = [] then s.hstPut r e
  else (s.modHif fun h => { h with waits := modAt h.waits r fun l => l ++ [e] }).hstFull r

/-- A host write of PI (R624). -/
def State.hstPiWrite (s : State) (r v : Nat) : State :=
  let v := v % 65536
  let ofs := 0x104 + 16 * r
  if s.rdA HIF.HST_USE 0 r = 4 ∨ s.rdA HIF.HST_USE 0 r = 5 then s.accessErr 0xB0 ofs 2
  else if 512 < (v + 65536 - s.rdA HIF.HST_PI 0 r) % 65536 then s.accessErr 0xB0 ofs 4
  else if 512 < (v + 65536 - s.rdA HIF.HST_CI 0 r) % 65536 ∨ s.hif.piWaits.any (fun w => w.1 == r) then
    (s.modHif fun h => { h with piWaits := h.piWaits ++ [(r, v)] }).hstFull r
  else s.wrA HIF.HST_PI 0 r v

/-- A host write of CI (R624): the device's own where it consumes. -/
def State.hstCiWrite (s : State) (r v : Nat) : State :=
  let u := s.rdA HIF.HST_USE 0 r
  if u = 1 ∨ u = 2 ∨ u = 3 then s.accessErr 0xB0 (0x108 + 16 * r) 2 else s.wrA HIF.HST_CI 0 r v

/-- HOST_RING_PI_WRITE (R624). -/
def execHostRingPiWrite (ring value : Nat) (s : State) : Host.Outcome State Fault Refusal :=
  s.live fun s => s.busWrite 0xB0 (0x104 + 16 * (ring % 16)) value fun s => s.hstPiWrite (ring % 16) value

/-- A host ring whose waiting producer has room again (R28). -/
def State.hstResume (s : State) (r : Nat) : State :=
  match s.hif.waits.getD r [] with
  | e :: rest => if s.hstCount r < 512 then (s.hstPut r e).modHif fun h => { h with waits := setAt h.waits r rest } else s
  | [] =>
    match s.hif.piWaits.find? fun w => w.1 == r with
    | some w =>
      if (w.2 + 65536 - s.rdA HIF.HST_CI 0 r) % 65536 ≤ 512 then
        (s.modHif fun h => { h with piWaits := h.piWaits.erase w }).wrA HIF.HST_PI 0 r w.2
      else s
    | none => s

/-- RING_WRITE_RESUME (R28): hardware ring 32 to 79, of which an entry is taken, or 80 to 95. -/
def execRingWriteResume (ring : Nat) (s : State) : Host.Outcome State Fault Refusal :=
  s.live fun s =>
    if 32 ≤ ring ∧ ring < 80 then s.freePrt (ring - 32)
    else if 80 ≤ ring ∧ ring < 96 then s.hstResume (ring - 80)
    else s

/-! DMA. -/

/-- A run of an engine recorded. -/
def State.setDma (s : State) (d : Nat) (r : Option DmaRun) : State :=
  (s.wrA HIF.DMA_BUSY 0 d (ofBool r.isSome)).modHif fun h => { h with dma := setAt h.dma d r }

/-- The command that an engine takes next: its ring and entry (R625, R626). -/
def State.dmaNext (s : State) (d : Nat) : Option (Nat × Bytes) :=
  if !s.onA HIF.DMA_EN 0 d || (s.hif.dma.getD d none).isSome || decide (2 ≤ d) || !s.isHub then none
  else
    ((List.range 16).find? fun r => s.rdA HIF.HST_USE 0 r == 2 + d && s.hstCount r != 0).map fun r =>
      (r, s.bytesAt (hstSlot r (s.rdA HIF.HST_CI 0 r)) 64)

/-- An entry is malformed: an operation that Table 18-3 lacks, or a length outside its range. -/
def dmaBad (e : Bytes) : Bool :=
  let op := leAt e 0 1
  let len := leAt e 4 4
  op == 0 || decide (3 < op) || (op != 3 && (len == 0 || decide (16777216 < len)))

/-- The status that the checks before the start give a command (R627): 0x00 to go on. -/
def State.dmaCheck (s : State) (e : Bytes) (data : Bytes) : Nat :=
  let ofs := leAt e 16 4
  let len := leAt e 4 4
  if dmaBad e then 4
  else if leAt e 0 1 = 3 then 0
  else if 0x1000000 < ofs + len then 3
  else if leAt e 0 1 = 1 ∧ (cutWrite ofs (sliceBytes data 0 len)).any fun p => s.pieceBarred p.1 p.2 then 2
  else 0

/-- A command of operation `op` started on an engine: `moved` bytes that the host side passed, and their data where they go to SRAM. -/
def State.dmaStart (s : State) (d op moved : Nat) (data : Bytes) (collides : List Nat) : State :=
  match s.dmaNext d with
  | none => s
  | some (r, e) =>
    let len := leAt e 4 4
    let st := s.dmaCheck e data
    if st ≠ 4 ∧ leAt e 0 1 ≠ op then s
    else
      let s := s.wrA HIF.HST_CI 0 r (s.rdA HIF.HST_CI 0 r + 1)
      let n := if st ≠ 0 ∨ op = 3 then 0 else min moved len
      let st := if st = 0 ∧ op ≠ 3 ∧ moved < len then 1 else st
      let s := s.setDma d (some ⟨e, st, n⟩)
      let a := leAt e 16 4
      if op = 1 then (cutWrite a (data.take n)).foldl (fun s p => s.writePiece collides p.1 p.2) s
      else if op = 2 ∧ n ≠ 0 then (s.noteRead a n).emit (.hostWrite (leAt e 8 8) (s.bytesRead a n))
      else s

/-- DMA_HOST_TO_SRAM (R626 to R628): the bytes that the host returned, short of LEN after a host error, and the slots that the graph
writes in the same cycle. -/
def execDmaHostToSram (engine : Nat) (data : Bytes) (collides : List Nat) (s : State) : Host.Outcome State Fault Refusal :=
  s.live fun s => s.dmaStart engine 1 data.length data collides

/-- DMA_SRAM_TO_HOST (R626): the bytes that the host took. -/
def execDmaSramToHost (engine taken : Nat) (s : State) : Host.Outcome State Fault Refusal :=
  s.live fun s => s.dmaStart engine 2 taken [] []

/-- DMA_NO_TRANSFER (R626). -/
def execDmaNoTransfer (engine : Nat) (s : State) : Host.Outcome State Fault Refusal :=
  s.live fun s => s.dmaStart engine 3 0 [] []

/-- A completion entry (Table 18-3). -/
def dmaCompletion (d now : Nat) (r : DmaRun) : Bytes :=
  sliceBytes r.entry 20 4 ++ leBytes 1 r.status ++ leBytes 1 d ++ leBytes 2 0 ++ leBytes 4 r.moved ++ leBytes 4 0 ++ leBytes 8 now
    ++ List.replicate 40 0

/-- DMA_COMPLETE (R626). -/
def execDmaComplete (engine : Nat) (s : State) : Host.Outcome State Fault Refusal :=
  s.live fun s =>
    match s.hif.dma.getD engine none with
    | none => s
    | some r =>
      let c := s.rdA HIF.DMA_CRING 0 engine
      let s := s.setDma engine none
      let s := if s.rdA HIF.HST_USE 0 c = 4 then s.hstPush c (dmaCompletion engine s.merNs r) else s
      if r.status = 0 then s else (s.addCntA HIF.DMA_ERRORS 0 engine 1).raise 0xB0 4

/-! The endpoint. -/

/-- A reset of the endpoint, the DMA engines and the HIF_HSTr indices (R623). -/
def State.pcieReset (s : State) : State :=
  let s := (((s.wr HIF.PCIE_LINK_UP 0).wr HIF.PCIE_SPEED 0).wr HIF.PCIE_WIDTH 0).wr HIF.PCIE_MSIX_EN 0
  let s := (List.range 2).foldl (fun s d => ((s.wrA HIF.DMA_EN 0 d 0).wrA HIF.DMA_CRING 0 d 0).wrA HIF.DMA_ERRORS 0 d 0 |>.setDma d none) s
  let s := (List.range 16).foldl (fun s r => (s.wrA HIF.HST_PI 0 r 0).wrA HIF.HST_CI 0 r 0) s
  let s := s.modHif fun h => { h with piWaits := [] }
  ({ s with msix := [], msixPending := 0 }).raise 0xB0 2

/-- PCIE_RESET (R623): a hot reset, FLR or PERST_N. -/
def execPcieReset (s : State) : Host.Outcome State Fault Refusal := s.live fun s => if s.isHub then s.pcieReset else s

/-- PCIE_LINK_CHANGE (R623, R648): the link in L0 with its speed code and lanes, or down; MSI-X as the host has enabled it. -/
def execPcieLinkChange (up : Bool) (speed width : Nat) (msix : Bool) (s : State) : Host.Outcome State Fault Refusal :=
  s.live fun s =>
    if !s.isHub then s
    else if up then
      let s := ((s.wr HIF.PCIE_SPEED speed).wr HIF.PCIE_WIDTH width).wrB HIF.PCIE_MSIX_EN msix
      (s.wr HIF.PCIE_LINK_UP 1).raise 0xB0 0
    else (s.raise 0xB0 1).pcieReset

end Sys2Proof.Machine
end

