-- ==== Sys2Proof/Machine/Gate.lean ====
section
/-! DEFINITION. Gate channels, legs and the field die (06, 07): switch requests (R217, R218, R241, R242), the transitions of a leg with dwell
and merging (R226, R232, R233), dead time and interlock (R229, R230), trips (R235 to R240), latches (R283 to R286), float channels and
their refills (R269 to R274, R676). Channels 0 to 3 are GF0, GL0, GF1, GL1; instants are Meridian instants in 2⁻¹⁶ ns. -/

namespace Sys2Proof.Machine

/-- The edge scheduler changed. -/
def State.modEdge (s : State) (f : EdgeState → EdgeState) : State := { s with edge := f s.edge }

/-- The field die changed. -/
def State.modGate (s : State) (f : GateState → GateState) : State := { s with gate := f s.gate }

/-- A leg. -/
def State.leg (s : State) (n : Nat) : Leg := s.edge.legs.getD n ⟨[], none, false, false, false, none, 0, 0⟩

/-- A leg changed. -/
def State.modLeg (s : State) (n : Nat) (f : Leg → Leg) : State := s.modEdge fun e => { e with legs := modAt e.legs n f }

/-- A channel. -/
def State.chan (s : State) (c : Nat) : Chan := s.edge.chans.getD c idleChan

/-- A channel changed. -/
def State.modChan (s : State) (c : Nat) (f : Chan → Chan) : State := s.modEdge fun e => { e with chans := modAt e.chans c f }

/-- The other channel of a channel's leg. -/
def otherChan (c : Nat) : Nat := if c % 2 = 0 then c + 1 else c - 1

/-- t_dead (R229). -/
def State.tDead (s : State) : Nat := s.rd EDG.DEAD * (10 * ns)

/-- An instant moved by a channel's trim in force (R222); after 16 failed calibrations, at the nearest cycle of 2 ns (R225). -/
def State.trimmed (s : State) (c e : Nat) : Nat :=
  let t := ((e : Int) + sext 8 (bitsOf s.edge.trim (8 * c) 8) * (ns / 4 : Nat)).toNat
  if 16 ≤ s.rd EDG.CAL_FAIL_CNT then (t + ns) / (2 * ns) * (2 * ns) else t

/-- An instant of a channel before its trim. -/
def State.untrimmed (s : State) (c t : Nat) : Nat := ((t : Int) - sext 8 (bitsOf s.edge.trim (8 * c) 8) * (ns / 4 : Nat)).toNat

/-- The instant of the incoming channel `c` of a forced refill after the other acted off at `o`: R229, and no earlier than R230 allows. -/
def State.afterDead (s : State) (c o : Nat) : Nat := max (o + s.tDead) (s.trimmed c (o + s.tDead))

/-- Full-bridge (EDG_CTL.FB). -/
def State.fullBridge (s : State) : Bool := s.on EDG.CTL_FB

/-- The requests of a leg, high side and low side, for a state (Table 6-1). -/
def stateReq (fb : Bool) (st leg : Nat) : Bool × Bool :=
  if !fb then (leg == 0 && st == 1, leg == 0 && st == 0)
  else
    let hi := if leg = 0 then st == 1 || st == 3 else st == 2 || st == 3
    (hi, !hi)

/-- A channel's request after its override (R242). -/
def State.override (s : State) (c : Nat) (b : Bool) : Bool :=
  match bitsOf (s.rd EDG.OVR) (2 * c) 2 with
  | 1 => false
  | 2 => true
  | _ => b

/-- The requests of a leg's float and direct channel after swap, override and the static both-on check, and that check (R241, R242, R231). -/
def State.legReq (s : State) (n : Nat) (hi lo : Bool) : Bool × Bool × Bool :=
  if n = 1 ∧ !s.fullBridge then (false, false, false)
  else
    let sw := if n = 0 then s.on EDG.MAP_SWAP0 else s.on EDG.MAP_SWAP1
    let g := s.override (2 * n) (if sw then lo else hi)
    let l := s.override (2 * n + 1) (if sw then hi else lo)
    if g && l then (false, false, true) else (g, l, false)

/-! Latches and enables. -/

/-- The latch bits of GDR_LATCH, in its order. -/
def State.latches (s : State) : Nat :=
  s.rd GDR.LATCH_DSAT0 + 2 * s.rd GDR.LATCH_DSAT1 + 4 * s.rd GDR.LATCH_UV_VGP + 8 * s.rd GDR.LATCH_UV_VGN + 16 * s.rd GDR.LATCH_UV_VDDF
    + 32 * s.rd GDR.LATCH_DECK0 + 64 * s.rd GDR.LATCH_DECK1 + 256 * s.rd GDR.LATCH_TRIPCNT

/-- Bit `k` of GDR_LATCH given a level. -/
def State.setLatch (s : State) (k : Nat) (b : Bool) : State :=
  match k with
  | 0 => s.wrB GDR.LATCH_DSAT0 b
  | 1 => s.wrB GDR.LATCH_DSAT1 b
  | 2 => s.wrB GDR.LATCH_UV_VGP b
  | 3 => s.wrB GDR.LATCH_UV_VGN b
  | 4 => s.wrB GDR.LATCH_UV_VDDF b
  | 5 => s.wrB GDR.LATCH_DECK0 b
  | 6 => s.wrB GDR.LATCH_DECK1 b
  | _ => if 8 ≤ k then (s.wrBit GDR.LATCH_TRIPCNT (k - 8) b).wrBit EDG.TRIP_STAT_LATCH (k - 8) b else s

/-- A gate fault: a latch set or GEN low (R284, R285). -/
def State.gateFault (s : State) : Bool := s.latches != 0 || s.gate.genHeld

/-- A gate supply is low (R279). -/
def State.supplyLow (s : State) : Bool := s.on GDR.STAT_VGP_LOW || s.on GDR.STAT_VGN_LOW || s.on GDR.STAT_VDDF_LOW

/-- DECK_ST of a float channel: 0 NOT_READY, 1 READY, 2 REFILL, 3 LATCHED. -/
def State.deckSt (s : State) (m : Nat) : Nat := if m = 0 then s.rd GDR.STAT_DECK_ST0 else s.rd GDR.STAT_DECK_ST1

/-- A float channel in TRICKLE mode (R268). -/
def State.trickle (s : State) (m : Nat) : Bool := if m = 0 then s.on GDR.CTL_DECK0 else s.on GDR.CTL_DECK1

/-- Q_FULL in fC. -/
def State.qFull (s : State) (m : Nat) : Nat := s.rdA GDR.BS_Q_FULL 0 m * 10000000

/-- The account of a float channel in fC. -/
def State.account (s : State) (m : Nat) : Nat := s.gate.account.getD m 0

/-- The account, as its latest update left it, lies below `f`/255 of Q_FULL (R271). -/
def State.accountBelow (s : State) (m : Nat) (f : RegField) : Bool :=
  decide (s.gate.accountUpd.getD m 0 * 255 < s.qFull m * s.rdA f 0 m)

/-- The account of a float channel given a value that the thresholds see at once. -/
def State.setAccount (s : State) (m q : Nat) : State :=
  s.modGate fun g => { g with account := setAt g.account m q, accountUpd := setAt g.accountUpd m q }

/-- The account as the uplink and GDR_BSm report it (R272). -/
def State.bsReport (s : State) (m : Nat) : Nat :=
  if !s.trickle m then 255
  else if s.deckSt m = 0 ∨ s.deckSt m = 3 then 0
  else if s.qFull m = 0 then 0 else 255 * s.account m / s.qFull m

/-- A refill is requested (R272). -/
def State.refillReq (s : State) : Bool :=
  [0, 1].any fun m => bitOf (s.rd GDR.CTL_CH_EN) (2 * m) && s.trickle m
    && (s.deckSt m == 0 || s.deckSt m == 3 || s.accountBelow m GDR.BS_Q_WARN)

/-- The count toward T_START of a float channel runs (Table 7-4): NOT_READY in PUMP mode with GATE_EN set. -/
def State.startRuns (s : State) (m : Nat) : Bool := !s.trickle m && s.deckSt m == 0 && s.on GDR.CTL_GATE_EN

/-- GDR_STAT and the accounts reported; REFILL_REQ is raised as it sets (R288). -/
def State.showGate (s : State) : State :=
  let req := s.refillReq
  let s := (s.raiseIf (req && !s.on GDR.STAT_REFILL_REQ) 0x59 6).wrB GDR.STAT_REFILL_REQ req
  let s := s.wrB GDR.STAT_ENABLED (s.on GDR.CTL_GATE_EN && s.on GDR.STAT_GEN_LVL)
  let s := s.modGate fun g => { g with pumpAt := [0, 1].map fun m =>
    (if s.startRuns m then some ((g.pumpAt.getD m none).getD s.mer.uptime) else none) }
  (s.wrA GDR.BS_ACCOUNT 0 0 (s.bsReport 0)).wrA GDR.BS_ACCOUNT 0 1 (s.bsReport 1)

/-- A float channel given a state; the account is 0 outside READY and REFILL (R271). -/
def State.setDeck (s : State) (m st : Nat) : State :=
  let was := s.deckSt m
  let s := if m = 0 then s.wr GDR.STAT_DECK_ST0 st else s.wr GDR.STAT_DECK_ST1 st
  let s := if st = 0 ∨ st = 3 ∨ was = 0 ∨ was = 3 then s.setAccount m 0 else s
  s.showGate

/-! Actions of a channel. -/

/-- The profile of a direct channel's action (R257, R260). -/
def State.profile (s : State) (n : Nat) (on : Bool) : List Nat :=
  if on then
    [s.rdA GDR.GL_ON_V_PRE 0 n, s.rdA GDR.GL_ON_V_EXIT 0 n, s.rdA GDR.GL_ON_I_WEAK 0 n, s.rdA GDR.GL_ON_PRE_BY_TIME 0 n,
     s.rdA GDR.GL_ON_T_PRE 0 n, s.rdA GDR.GL_ON_T_MILLER 0 n]
  else
    [s.rdA GDR.GL_OFF_V_PRE 0 n, s.rdA GDR.GL_OFF_V_EXIT 0 n, s.rdA GDR.GL_OFF_I_WEAK 0 n, s.rdA GDR.GL_OFF_PRE_BY_TIME 0 n,
     s.rdA GDR.GL_OFF_T_PRE 0 n, s.rdA GDR.GL_OFF_T_MILLER 0 n]

/-- The polarity of a burst in units of 20 ns (Table 7-3). -/
def burstUnits (on : Bool) : List Bool := if on then [true, false, true, false] else [true, true, false, false]

/-- The level that stands for a channel's state at its output: inverted with EDG_MAP.INV (R243). -/
def State.outLevel (s : State) (c : Nat) (on : Bool) : Bool := on != s.bit EDG.MAP_INV c

/-- A burst of float channel `m` begins at instant `t`; an OFF burst aborts an ON burst in progress (R262, R263). -/
def State.burst (s : State) (m t : Nat) (on : Bool) : State :=
  let cuts := !on && s.gate.burstOn.getD m false && decide (t < s.gate.burstAt.getD m 0 + 80 * ns)
  (s.modGate fun g => { g with burstAt := setAt g.burstAt m t, burstOn := setAt g.burstOn m on }).emit (.burst m t (burstUnits on) cuts)

/-- The carrier of float channel `m` at instant `t`, by its half period (Table 7-3, R263): none from 200 ns before a scheduled burst, a
refresh included, until 100 ns after a burst's end. -/
def State.carrierAt (s : State) (m t : Nat) : Option Nat :=
  let last := s.gate.burstAt.getD m 0
  let near := fun (b : Nat) => decide (b ≤ t + 200 * ns ∧ t < b + 180 * ns)
  if near last || near (last + s.rd GDR.FLT_REFRESH * us) || (s.chan (2 * m)).due.any (fun d => near d.t) then none
  else some (1000 * ns / (s.rd GDR.FLT_F_CARR + 1))

/-- What begins at the ball: the burst of a float channel (R262), or the first phase of a direct channel's action (R256 to R258). The Miller
clamp is released at the start of a turn-on (R255). -/
def State.drive (s : State) (c t : Nat) (on : Bool) : State :=
  let s := s.noteEvent (8 + c) t
  if c % 2 = 0 then s.burst (c / 2) t (s.outLevel c on)
  else
    let n := c / 2
    let shaped := if n = 0 then s.on GDR.CTL_SHAPED0 else s.on GDR.CTL_SHAPED1
    let x := s.chan c
    let ph := if !shaped then 3 else if x.phase = 1 ∨ x.phase = 2 then 2 else 1
    (s.modChan c fun x => { x with phase := ph, phaseAt := t, prof := s.profile n on, clamp := x.clamp && !on }).emit
      (.gate c t (s.outLevel c on))

/-- A channel acts off at instant `t`, before trim `e` (R223, R228), forced or not; a turn-on that was not performed ends the same way (R270). -/
def State.chanOff (s : State) (c t e : Nat) (forced : Bool) : State :=
  let was := (s.chan c).on
  let s := s.modChan c fun x =>
    { x with on := false, von := false, offAt := some t, offFree := !forced, hist := ((e, false) :: x.hist).take 16 }
  let s := s.wrBit EDG.STAT_CH_ON c false
  if was then s.drive c t false else s

/-- A forced refill of leg `n` ends at once (R274, R676). -/
def State.endRefill (s : State) (n : Nat) : State :=
  if (s.leg n).refill = 0 then s
  else
    let s := s.modLeg n fun l => { l with refill := 0 }
    if s.deckSt n = 2 then s.setDeck n 1 else s

/-- The local carrier ends (R248). -/
def State.lcStop (s : State) : State := (s.wr EDG.STAT_LC_RUN 0).modEdge fun x => { x with lcAt := none, lcLast := none }

/-- What a channel has before it is dropped. -/
def State.dropDue (s : State) (c : Nat) : State := s.modChan c fun x => { x with due := [] }

/-- Every channel off at instant `t`, forced, and nothing queued: the state of a gate fault (R284). -/
def State.allOff (s : State) (t : Nat) : State :=
  let s := [0, 1].foldl (fun s n => (s.endRefill n).modLeg n fun l => { l with queue := [], hi := false, lo := false }) s.lcStop
  let s := [0, 1, 2, 3].foldl (fun s c =>
    let s := s.dropDue c
    if (s.chan c).on || (s.chan c).von then s.chanOff c t t true else s) s
  s.modEdge fun e => { e with block := true }

/-- A gate fault latch set: every channel of the cell is held off (R281, R278, R284). -/
def State.latchFault (s : State) (k t : Nat) : State := ((s.setLatch k true).allOff t).showGate

/-- An active trip acts on channel `c`, the over-temperature trip on every channel (R235). -/
def State.tripOn (s : State) (c : Nat) : Bool :=
  s.edge.otTrip || bitOf (s.rd EDG.TRIP_STAT_IN) 0 && bitOf (s.rd EDG.TRIP_CFG_MASK0) c
    || bitOf (s.rd EDG.TRIP_STAT_IN) 1 && bitOf (s.rd EDG.TRIP_CFG_MASK1) c
    || bitOf (s.rd EDG.TRIP_STAT_IN) 2 && bitOf (s.rd EDG.TRIP_CFG_MASK2) c
    || bitOf (s.rd EDG.TRIP_STAT_IN) 3 && bitOf (s.rd EDG.TRIP_CFG_MASK3) c

/-- EDG_TRIP_CFG.MASKn. -/
def State.tripMaskOf (s : State) (n : Nat) : Nat :=
  s.rd ([EDG.TRIP_CFG_MASK0, EDG.TRIP_CFG_MASK1, EDG.TRIP_CFG_MASK2].getD n EDG.TRIP_CFG_MASK3)

/-- A level at TRIPn is the one that EDG_TRIP_CFG.LVLn selects (R235). -/
def State.tripLevel (s : State) (n : Nat) (level : Bool) : Bool :=
  level != s.on ([EDG.TRIP_CFG_LVL0, EDG.TRIP_CFG_LVL1, EDG.TRIP_CFG_LVL2].getD n EDG.TRIP_CFG_LVL3)

/-- The instant at which a level that TRIPn has taken at `since` counts: one that is selected, after the filter time (R235). -/
def State.tripAt (s : State) (n : Nat) (level : Bool) (since : Nat) : Nat :=
  if s.tripLevel n level then since + s.rd EDG.TRIP_FILT * (10 * ns) else since

/-- A trip mapped to channel `c` that waits in the queue becomes active in the island cycle of `t` (R237, R239). -/
def State.tripSoon (s : State) (c t : Nat) : Bool :=
  s.pending.any fun i => match i with
    | .tripActive n ⟨level, since⟩ =>
      decide (n < 4) && s.tripLevel n level && bitOf (s.tripMaskOf n) c && sameCycle cyc500 t (s.tripAt n level since)
    | _ => false

/-- A channel's trip count. -/
def State.tripCnt (s : State) (c : Nat) : Nat := bitsOf (s.rd EDG.TRIP_STAT_CNT) (4 * c) 4

/-- A channel's trip count set. -/
def State.setTripCnt (s : State) (c v : Nat) : State := s.wr EDG.TRIP_STAT_CNT (putBits (s.rd EDG.TRIP_STAT_CNT) (4 * c) 4 v)

/-- A trip counted for the channel's present period, once (R238); at N the trip-count latch is set. -/
def State.countTrip (s : State) (c t : Nat) : State :=
  if (s.chan c).tripped then s
  else
    let n := min 15 (s.tripCnt c + 1)
    let s := ((s.setTripCnt c n).inc EDG.CNT2_TRIPS).modChan c fun x => { x with tripped := true }
    if max 1 (s.rd EDG.TRIP_FILT_N) ≤ n ∧ !bitOf (s.rd EDG.TRIP_STAT_LATCH) c then (s.raise 0x58 1).latchFault (8 + c) t else s

/-- The turn-on is suppressed (R237). -/
def State.suppressed (s : State) : State := (s.inc EDG.CNT2_SUPPRESSED).raise 0x58 7

/-- A forced refill may start now (R273). -/
def State.refillFree (s : State) : Bool := !s.gate.refillDone && (s.leg 0).refill == 0 && (s.leg 1).refill == 0

/-- A float channel qualifies for a forced refill (Table 7-4), its turn-on due or not. -/
def State.refillWanted (s : State) (m : Nat) (due : Bool) : Bool :=
  s.deckSt m == 1 && s.trickle m && s.accountBelow m GDR.BS_Q_CRIT && ((s.chan (2 * m)).on || due)

/-- A forced refill starts (R272 step 1). -/
def State.startRefill (s : State) (m t : Nat) : State :=
  let s := (s.setDeck m 2).modGate fun g => { g with refillDone := true, refillWait := setAt g.refillWait m false }
  let s := (s.inc GDR.CNT_FORCED_REFILL).raise 0x59 7
  let s := { s with cell := { s.cell with refilled := true, refillOfs := (t - s.mer.lastS) / (ns / 4), refillCh := m } }
  let s := s.dropDue (2 * m)
  let s := if (s.chan (2 * m)).on then s.chanOff (2 * m) t t true else s
  let off := match (s.chan (2 * m)).offAt with
    | none => t
    | some o => if o + s.tDead ≤ t then t else s.afterDead (2 * m + 1) o
  s.modLeg m fun l => { l with refill := 2, refillAt := off }

/-- The turn-on of a channel is performed. -/
def State.performOn (s : State) (c t e : Nat) : State :=
  let s := s.modChan c fun x => { x with on := true, von := true, onAt := t, hist := ((e, true) :: x.hist).take 16 }
  let s := (s.wrBit EDG.STAT_CH_ON c true).drive c t true
  if c % 2 = 0 ∧ s.trickle (c / 2) then
    let late := s.refillWanted (c / 2) true
    (s.modGate fun g =>
      { g with
        account := modAt g.account (c / 2) fun q => q - s.rdA GDR.BS_QG 0 (c / 2) * 10000000
        refillWait := if late then setAt g.refillWait (c / 2) true else g.refillWait }).showGate
  else s

/-- A turn-on that is not performed, counted as the edge scheduler counts it (R270). -/
def State.skipOn (s : State) (c t : Nat) : State := s.modChan c fun x => { x with von := true, onAt := t }

/-- A turn-on of float channel `m` is due in the island cycle of `t` and qualifies for a forced refill. -/
def State.refillDue (s : State) (m t : Nat) : Bool :=
  (s.chan (2 * m)).due.any (fun d => d.on && sameCycle cyc500 d.t t) && s.refillWanted m true

/-- Of two float channels that qualify in the cycle of `t`, channel `m` goes first: the lower account, then GF0 (R273). -/
def State.refillFirst (s : State) (m t : Nat) : Bool :=
  let o := 1 - m
  let other := (s.gate.refillWait.getD o false && s.refillWanted o false) || s.refillDue o t
  !other || decide (s.gate.accountUpd.getD m 0 < s.gate.accountUpd.getD o 0)
    || (s.gate.accountUpd.getD m 0 == s.gate.accountUpd.getD o 0 && m == 0)

/-- A channel's period ends and the next begins at a turn-on instant (R238). -/
def State.nextPeriod (s : State) (c t : Nat) : State :=
  let s := if (s.chan c).tripped then s else s.setTripCnt c 0
  s.modChan c fun x => { x with tripped := false, turnAt := some t }

/-- A turn-on that its leg and its channel in a half-bridge cell permit is performed, suppressed or skipped at `t` (R217, R235 to R238, R270 to
R273, R284). One that a forced refill defers begins no period yet. -/
def State.turnOn (s : State) (c t e : Nat) : State :=
  let trip := s.tripOn c || s.tripSoon c t
  let barred := bitOf (s.rd EDG.TRIP_STAT_SUPP_PEND) c || trip || s.gateFault || bitOf (s.rd EDG.TRIP_STAT_LATCH) c
  let notReady := !bitOf (s.rd GDR.CTL_CH_EN) c || (c % 2 == 0 && s.deckSt (c / 2) != 1 && s.deckSt (c / 2) != 2)
  if !barred && !notReady && s.on GDR.STAT_ENABLED && c % 2 == 0 && s.refillWanted (c / 2) true && s.refillFree
      && s.refillFirst (c / 2) t then s.startRefill (c / 2) t
  else
    let s := s.nextPeriod c t
    if bitOf (s.rd EDG.TRIP_STAT_SUPP_PEND) c then
      let s := (s.wrBit EDG.TRIP_STAT_SUPP_PEND c false).suppressed
      if trip then s.countTrip c t else s
    else if trip then s.suppressed.countTrip c t
    else if barred then s
    else if notReady then ((s.inc GDR.CNT_NOT_READY).raise 0x59 13).skipOn c t
    else if !s.on GDR.STAT_ENABLED then s.skipOn c t
    else s.performOn c t e

/-- A channel reaches its turn-on instant `t`, before trim `e`: the interlock may still defer it (R230); leg 1 of a half-bridge cell is held
off (R217). -/
def State.chanOn (s : State) (c t e : Nat) : State :=
  let o := s.chan (otherChan c)
  if o.on || o.von || (decide (2 ≤ c) && !s.fullBridge) then s
  else
    match o.offAt with
    | some f =>
      if t < f + s.tDead then
        s.modChan c fun x => { x with due := x.due ++ [⟨true, s.untrimmed c (f + s.tDead), f + s.tDead, false⟩] }
      else s.turnOn c t e
    | none => s.turnOn c t e

/-! Transitions of a leg. -/

/-- The state that a channel holds once what it has before it is done. -/
def Chan.planned (x : Chan) : Bool := match x.due.getLast? with | some d => d.on | none => x.on || x.von

/-- A channel that should turn off does so at `e` plus its trim; what it had before it from then on is dropped. -/
def State.aimOff (s : State) (c e : Nat) (forced : Bool) : State :=
  let t := s.trimmed c e
  s.modChan c fun x =>
    let y := { x with due := x.due.filter fun d => decide (d.t < t) }
    if y.planned then { y with due := y.due ++ [⟨false, e, t, forced⟩] } else y

/-- A channel that should turn on does so at its instant (R229, R230); one that is on or on its way stays so. -/
def State.aimOn (s : State) (c e : Nat) (forced : Bool) : State :=
  let x := s.chan c
  let o := s.chan (otherChan c)
  if x.planned then s
  else
    let swap := o.due.getLast?.any fun d => !d.on && d.e == e
    let e' := if swap then e + s.tDead else e
    let own := max (s.trimmed c e') ((x.due.getLast?.map (·.t)).getD 0)
    let off := match o.due.getLast? with
      | some d => d.t + s.tDead
      | none => match o.offAt with | none => 0 | some f => f + s.tDead
    let t := max own off
    s.modChan c fun x => { x with due := x.due ++ [⟨true, if t = s.trimmed c e' then e' else s.untrimmed c t, t, forced⟩] }

/-- The requests of a leg take effect from instant `e`: the outgoing channel first (R229). -/
def State.aimLeg (s : State) (n e : Nat) (gf gl forced : Bool) : State :=
  let s := if gf then s else s.aimOff (2 * n) e forced
  let s := if gl then s else s.aimOff (2 * n + 1) e forced
  let s := if gf then s.aimOn (2 * n) e forced else s
  if gl then s.aimOn (2 * n + 1) e forced else s

/-- A request causes an action on a channel, against the state that it holds when its earlier actions are done (R226). -/
def Chan.moves (x : Chan) (want : Bool) : Bool := x.planned != want

/-- A leg's requests of a transition of instant `e`, and SHOOT_REQ as it stands after them (R231). -/
def State.requestLeg (s : State) (n e : Nat) (hi lo : Bool) : State :=
  let sh := (s.legReq n hi lo).2.2
  let was := (s.leg n).shoot
  let s := s.raiseIf (sh && !was) 0x58 3
  let s := s.modLeg n fun l => { l with hi := hi, lo := lo, shoot := sh, shootAt := if sh = was then l.shootAt else some e }
  s.wrBit EDG.STAT_SHOOT_REQ n sh

/-- SHOOT_REQ of a leg before instant `b`. -/
def State.shootBefore (s : State) (n b : Nat) : Bool :=
  match (s.leg n).shootAt with
  | some t => if t < b then (s.leg n).shoot else !(s.leg n).shoot
  | none => (s.leg n).shoot

/-- A float channel still requested on when a trip ends its forced refill acts on under R229 and R230 (R676). -/
def State.serveFloat (s : State) (n e : Nat) : State :=
  if (s.legReq n (s.leg n).hi (s.leg n).lo).1 then s.aimOn (2 * n) e true else s

/-- The leg's requests applied now as a forced transition at instant `e` (R234, R676). -/
def State.forceLeg (s : State) (n e : Nat) (hi lo : Bool) : State :=
  let s := (s.endRefill n).requestLeg n e hi lo
  let r := s.legReq n hi lo
  s.aimLeg n e r.1 r.2.1 true

/-- The front transition of a leg's queue resolved: without action, forced, during a refill, deferred by the dwell, merged, or applied
(R226, R232 to R234, R676). -/
def State.resolveFront (s : State) (n : Nat) : State :=
  let l := s.leg n
  match l.queue with
  | [] => s
  | tr :: rest =>
    let s0 := s.modLeg n fun l => { l with queue := rest }
    let r := s.legReq n tr.hi tr.lo
    let acts := (s.chan (2 * n)).moves r.1 || (s.chan (2 * n + 1)).moves r.2.1
    let reach : Nat → Bool := fun e => rest.head?.any fun nx => decide (nx.e ≤ e)
    if tr.forced || r.2.2 then s0.forceLeg n tr.e tr.hi tr.lo
    else if l.refill != 0 then s0.requestLeg n tr.e tr.hi tr.lo
    else if !acts then s0.requestLeg n tr.e tr.hi tr.lo
    else if tr.deferred && reach tr.e then (s0.inc EDG.CNT_EDGE_MERGED).raise 0x58 5
    else
      let ready := match l.lastE with | none => 0 | some e => e + s.rd EDG.DWELL_MIN * (10 * ns)
      if tr.e < ready then
        let s1 := (s.inc EDG.CNT_DWELL_DEFER).raise 0x58 4
        if reach ready then ((s1.modLeg n fun l => { l with queue := rest }).inc EDG.CNT_EDGE_MERGED).raise 0x58 5
        else s1.modLeg n fun l => { l with queue := { tr with e := ready, deferred := true } :: rest }
      else
        let s1 := (s0.modLeg n fun l => { l with lastE := some tr.e }).requestLeg n tr.e tr.hi tr.lo
        s1.aimLeg n tr.e r.1 r.2.1 false

/-- The next step of a forced refill of leg `n` (R272 steps 2 to 4), by the requests in force when it is reached (R676). -/
def State.refillStep (s : State) (n : Nat) : State :=
  let l := s.leg n
  let t := l.refillAt
  let r := s.legReq n l.hi l.lo
  let gl := s.chan (2 * n + 1)
  match l.refill with
  | 2 =>
    let s := if gl.on then s else s.chanOn (2 * n + 1) t (s.untrimmed (2 * n + 1) t)
    s.modLeg n fun l => { l with refill := 3, refillAt := t + s.rdA GDR.BS_T_REFILL 0 n * (10 * ns) }
  | 3 =>
    if r.2.1 then s.endRefill n
    else
      let s := if gl.on || gl.von then s.chanOff (2 * n + 1) t t true else s
      if r.1 then s.modLeg n fun l => { l with refill := 4, refillAt := s.afterDead (2 * n) t } else s.endRefill n
  | _ => (if r.1 then s.chanOn (2 * n) t (s.untrimmed (2 * n) t) else s).endRefill n

/-- What the edge scheduler does next: resolve a leg's front transition, take a step of a refill, or act on a channel. -/
inductive EdgeEvent where
  | resolve (leg : Nat)
  | refill (leg : Nat)
  | act (chan : Nat)
  deriving DecidableEq, Repr

/-- How far ahead of its instant a transition is resolved: the most negative trim in force. -/
def State.trimLead (s : State) : Nat :=
  (([0, 1, 2, 3].map fun c => (-(sext 8 (bitsOf s.edge.trim (8 * c) 8))).toNat).foldl max 0) * (ns / 4)

/-- The events that wait, with their instants; a transition is resolved at the earliest instant that a trim allows. -/
def State.edgeEvents (s : State) : List (Nat × EdgeEvent) :=
  ([0, 1].filterMap fun n => (s.leg n).queue.head?.map fun tr => (tr.e - s.trimLead, EdgeEvent.resolve n))
    ++ ([0, 1].filterMap fun n => if 2 ≤ (s.leg n).refill then some ((s.leg n).refillAt, EdgeEvent.refill n) else none)
    ++ ([0, 1, 2, 3].filterMap fun c => (s.chan c).due.head?.map fun d => (d.t, EdgeEvent.act c))

/-- The earliest of a list of events; of equal instants, the first. -/
def earliest : List (Nat × EdgeEvent) → Option (Nat × EdgeEvent)
  | [] => none
  | x :: xs => match earliest xs with | none => some x | some y => if y.1 < x.1 then some y else some x

/-- The first action that a channel has before it is performed. -/
def State.actChan (s : State) (c : Nat) : State :=
  match (s.chan c).due with
  | [] => s
  | d :: rest =>
    let s := s.modChan c fun x => { x with due := rest }
    if d.on then s.chanOn c d.t d.e else s.chanOff c d.t d.e d.forced

/-- The events up to and with the next action of a channel or step of a refill, at most `fuel` of them. -/
def State.edgeRun (s : State) : Nat → State
  | 0 => s
  | fuel + 1 =>
    match earliest s.edgeEvents with
    | none => s
    | some (_, .resolve n) => State.edgeRun (s.resolveFront n) fuel
    | some (t, .refill n) => (s.advanceTo t).refillStep n
    | some (t, .act c) => (s.advanceTo t).actChan c

/-- EDGE_ACTION (R222): the next action of a gate channel at its instant, or the next step of a forced refill. -/
def execEdgeAction (s : State) : Host.Outcome State Fault Refusal :=
  s.live fun s => if s.isCell then s.edgeRun 64 else s

/-! Modes and stride commands. -/

/-- A transition queued for a leg in the order of instants; a deferred one that stands at or past its instant is merged with it (R233). -/
def State.pushTrans (s : State) (n : Nat) (tr : LegTrans) : State :=
  let q := (s.leg n).queue
  let gone := q.filter fun x => x.deferred && decide (tr.e ≤ x.e)
  let s := gone.foldl (fun s _ => (s.inc EDG.CNT_EDGE_MERGED).raise 0x58 5) s
  let q := q.filter fun x => !(x.deferred && decide (tr.e ≤ x.e))
  s.modLeg n fun l => { l with queue := (q.filter fun x => decide (x.e ≤ tr.e)) ++ tr :: q.filter fun x => decide (tr.e < x.e) }

/-- A transition of both legs to a state queued at instant `e`. -/
def State.queueState (s : State) (st e : Nat) (forced : Bool) : State :=
  [0, 1].foldl (fun s n => let r := stateReq s.fullBridge st n; s.pushTrans n ⟨e, r.1, r.2, forced, false, false⟩) s

/-- BLOCK of both legs queued at instant `e`. -/
def State.queueBlock (s : State) (e : Nat) : State := [0, 1].foldl (fun s n => s.pushTrans n ⟨e, false, false, true, false, false⟩) s

/-- The state of ZERO (R218). -/
def State.zeroState (s : State) : Nat := if s.fullBridge then 3 else 0

/-- The transitions of an applying stride that starts at instant `e` (R101, R218, R222). -/
def State.queueStride (s : State) (m : CellMode) (cmd e : Nat) : State :=
  match m with
  | .block => s.queueBlock e
  | .short => s.queueState 0 e true
  | .zero => s.queueState s.zeroState e true
  | .carrier => s
  | .keep => s
  | .edges =>
    let e0 := e + bitsOf cmd 8 20 * (ns / 4)
    let e1 := e + bitsOf cmd 28 20 * (ns / 4)
    match bitsOf cmd 6 2 with
    | 0 => s.queueState (bitsOf cmd 2 2) e false
    | 1 => s.queueState (bitsOf cmd 2 2) e0 false
    | _ => (s.queueState (bitsOf cmd 4 2) e0 false).queueState (bitsOf cmd 2 2) e1 false

/-- The transitions queued from instant `e` on discarded, but for those that the dwell has brought there (R233). -/
def State.dropFrom (s : State) (e : Nat) : State :=
  [0, 1].foldl (fun s n => s.modLeg n fun l => { l with queue := l.queue.filter fun tr => decide (tr.e < e) || tr.deferred }) s

/-- The transitions of the local carrier from instant `e` on discarded (R248). -/
def State.cutCarrier (s : State) (e : Nat) : State :=
  [0, 1].foldl (fun s n => s.modLeg n fun l => { l with queue := l.queue.filter fun tr => decide (tr.e < e) || !tr.carrier }) s

/-- The ring key has been agreed (R119); a generation-1 ring has none (R142). -/
def State.cellKeyed (s : State) : Bool := s.cell.keyIdx != 0 || s.on SYS.STRAP_LGCY

/-- The mode that the first applying row of Table 5-2 gives for a selected command. -/
def State.rowMode (s : State) (cmd : Option Nat) : CellMode :=
  let stop := fun (c : Nat) => match bitsOf c 0 2 with | 1 => CellMode.block | 2 => .short | 3 => .zero | _ => .block
  if s.on CEL.STAT_BYPASS_ORDERED then
    if s.on GDR.STAT_ENABLED && !s.gateFault && !s.supplyLow then .short else .block
  else if s.gateFault then .block
  else if s.rd CEL.STAT_LIFE != 4 || !s.cellKeyed then .block
  else if s.on CEL.STAT_ORPHAN_BLOCK || s.on CEL.STAT_NOFLAG_BLOCK then .block
  else
    match cmd with
    | none => if s.on MER.STAT_TIME_OK then .keep else .block
    | some c =>
      if bitsOf c 0 2 != 0 then stop c
      else if !s.on MER.STAT_TIME_OK then .block
      else if bitOf c 50 then .carrier else .edges

/-- The state of a bypass order held from now on (R195). -/
def State.holdBypass (s : State) : State :=
  let t := s.mer.mer
  let s := [0, 1].foldl (fun s n => s.modLeg n fun l => { l with queue := [] }) s.lcStop
  match s.rowMode none with
  | .short => [0, 1].foldl (fun s n => let r := stateReq s.fullBridge 0 n; s.forceLeg n t r.1 r.2) s
  | _ => s.allOff t

/-- The actions of every channel whose instants before trim lie before `b` performed, those too that a trim puts after it (R228). -/
def State.actBefore (s : State) (b : Nat) : State :=
  [0, 1, 2, 3].foldl (fun s c => if (s.chan c).due.head?.any fun d => decide (d.e < b) then s.actChan c else s) s

/-- Channels held as a pair of masks: the state before instant `b` in the TARGET encoding, 0 with every switch off (R228, Table 5-3). -/
def State.appliedAt (s : State) (b : Nat) : Nat :=
  let t := s.actBefore b
  let on : Nat → Bool := fun c => ((t.chan c).hist.find? fun h => decide (h.1 < b)).any (·.2)
  if s.fullBridge then
    if on 0 && on 2 then 3 else if on 0 && on 3 then 1 else if on 1 && on 2 then 2 else 0
  else if on 0 then 1 else 0

end Sys2Proof.Machine
end

