-- ==== Sys2Proof/Machine/Edge.lean ====
section
/-! DEFINITION. The edge scheduler's commands (06): calibration of the delay line (R224, R225), trips (R235 to R240), the map and the
overrides (R241 to R244), the local carrier (R245 to R250) and the timed event channels (R251). -/

namespace Sys2Proof.Machine

/-- A calibration of the delay line that found `taps` taps in an island cycle (R224, R225). -/
def State.calibrate (s : State) (taps : Nat) : State :=
  if 24 ≤ taps ∧ taps ≤ 64 then
    let s := ((s.wr EDG.CAL_TAPS taps).wr EDG.CAL_CAL_OK 1).wr EDG.STAT_CAL_OK 1
    ((s.wr EDG.CAL_CAL_FAULT 0).wr EDG.STAT_CAL_FAULT 0).wr EDG.CAL_FAIL_CNT 0
  else (((s.inc EDG.CAL_FAIL_CNT).wr EDG.CAL_CAL_FAULT 1).wr EDG.STAT_CAL_FAULT 1).raise 0x58 6

/-- DELAY_LINE_CAL (R224, R225): the calibration found `taps` taps in an island cycle. -/
def execDelayLineCal (taps : Nat) (s : State) : Host.Outcome State Fault Refusal :=
  s.live fun s => if s.isCell then s.calibrate taps else s

/-- The pulse of channel `c` truncated by a trip: its request is unchanged (R236). -/
def State.truncate (s : State) (c t : Nat) : State :=
  let s := (s.modChan c fun x => { x with due := x.due.filter (·.on) }).chanOff c t t true
  if c % 2 == 1 && (s.leg (c / 2)).refill != 0 then (s.endRefill (c / 2)).serveFloat (c / 2) t else s

/-- A trip that has become active acts on channel `c` (R236, R237, R240): a pulse is truncated, or the next turn-on will be suppressed. A
turn-on of the same island cycle is suppressed itself; an unforced turn-off of that cycle is the truncation. -/
def State.tripChan (s : State) (c : Nat) : State :=
  let t := s.mer.mer
  let x := s.chan c
  let same := fun (o : Option Nat) => o.any (sameCycle cyc500 t)
  if x.on then (s.truncate c t).countTrip c t
  else if x.due.any fun d => d.on && sameCycle cyc500 t d.t then s
  else if same x.turnAt || (x.offFree && same x.offAt) then s.countTrip c t
  else (s.wrBit EDG.TRIP_STAT_SUPP_PEND c true).countTrip c t

/-- A trip that has become active acts on the channels of a mask (R235). -/
def State.tripMask (s : State) (mask : Nat) : State := (bitList mask 4).foldl (fun s c => s.tripChan c) (s.raise 0x58 0)

/-- TRIP_ACTIVE (R235): TRIPn stands at a level since an instant: the selected level is active after the filter time, the other one is not. -/
def execTripActive (n : Nat) (input : HeldLevel) (s : State) : Host.Outcome State Fault Refusal :=
  s.live fun s =>
    if s.isCell && n < 4 then
      let s := s.advanceTo (s.tripAt n input.level input.since)
      let was := s.bit EDG.TRIP_STAT_IN n
      let active := s.tripLevel n input.level
      let s := s.wrBit EDG.TRIP_STAT_IN n active
      if active && !was then s.tripMask (s.tripMaskOf n) else s
    else s

/-- A write of EDG_TRIP_CLR (R239). -/
def State.tripClrWrite (s : State) (mask : Nat) : State :=
  (bitList mask 4).foldl (fun s c =>
    if s.tripOn c || s.tripSoon c s.mer.mer then (s.wrBit EDG.TRIP_STAT_TRIP_CLR_REFUSED c true).raise 0x58 2
    else ((s.setTripCnt c 0).wrBit EDG.TRIP_STAT_SUPP_PEND c false).modChan c fun x => { x with tripped := false }) s

/-- TRIP_CLEAR (R239). -/
def execTripClear (mask : Nat) (s : State) : Host.Outcome State Fault Refusal :=
  s.live fun s => s.busWrite 0x58 0x064 mask fun s => s.tripClrWrite mask

/-- Both channels of a leg are off and BLOCK is in force (R244). -/
def State.legIdle (s : State) (n : Nat) : Bool := s.edge.block && !(s.chan (2 * n)).on && !(s.chan (2 * n + 1)).on

/-- A write of EDG_CTL: leg 1 of a half-bridge cell is held off (R217). -/
def State.edgCtlWrite (s : State) (v : Nat) : State :=
  let was := s.fullBridge
  let s := s.storeWord 0x58 0x040 v
  if was && !s.fullBridge then s.forceLeg 1 s.mer.mer (s.leg 1).hi (s.leg 1).lo else s

/-- A write of EDG_MAP (offset 0x054) or EDG_OVR (0x058), leg by leg (R244); the requests that stand are served anew. -/
def State.mapWrite (s : State) (ofs v : Nat) : State :=
  let ok := [0, 1].filter s.legIdle
  let t := ok.foldl (fun s n =>
    let s := if ofs = 0x058 then s.wr EDG.OVR (putBits (s.rd EDG.OVR) (4 * n) 4 (storedOvr v / 2 ^ (4 * n)))
      else
        let s := if n = 0 then s.wr EDG.MAP_SWAP0 v else s.wr EDG.MAP_SWAP1 (v / 2)
        let was := s.bit EDG.MAP_INV (2 * n + 1)
        let s := s.wr EDG.MAP_INV (putBits (s.rd EDG.MAP_INV) (2 * n) 2 (v / 2 ^ (4 + 2 * n)))
        if s.bit EDG.MAP_INV (2 * n + 1) = was then s else s.emit (.gate (2 * n + 1) s.mer.mer (s.outLevel (2 * n + 1) false))
    s.forceLeg n s.mer.mer (s.leg n).hi (s.leg n).lo) s
  if ok.length = 2 then t else t.accessErr 0x58 ofs 4

/-- EDG_MAP_WRITE (R244): a write of EDG_MAP or of EDG_OVR. -/
def execEdgMapWrite (ovr : Bool) (value : Nat) (s : State) : Host.Outcome State Fault Refusal :=
  s.live fun s =>
    let ofs := if ovr then 0x058 else 0x054
    s.busWrite 0x58 ofs value fun s => s.mapWrite ofs value

/-! Local carrier. -/

/-- The level of a raw-mode source (R246). -/
def lcSource (src : Nat) (c : Bool) : Bool :=
  match src with
  | 0 => false
  | 1 => true
  | 2 => c
  | _ => !c

/-- The instant at which the local carrier is to end, once a flag that does not ask for it has been selected (R248). -/
def State.lcCut (s : State) : Option Nat :=
  ((s.cell.sel.filter fun x => x.mode != .carrier && decide (s.mer.lastS < x.start)).map (·.start)).min?

/-- The carrier's requests queued at instant `e`: `c` during the effective duty (R246, R247). -/
def State.queueCarrier (s : State) (c : Bool) (e : Nat) : State :=
  if s.lcCut.any fun b => decide (b ≤ e) then s
  else
    let st := if c then s.rd EDG.LC_CTL_ACT else s.rd EDG.LC_CTL_IDLE
    [0, 1].foldl (fun s n =>
      let src := fun (ch : Nat) => lcSource (bitsOf (s.rd EDG.LC_CTL_SRC) (2 * ch) 2) c
      let r := if s.on EDG.LC_CTL_RAW then (src (2 * n), src (2 * n + 1)) else stateReq s.fullBridge st n
      s.pushTrans n ⟨e, r.1, r.2, false, false, true⟩) s

/-- The period and the duty that wait are in force from this boundary (R249, R250). -/
def State.lcTake (s : State) : State :=
  (s.wr EDG.STAT_COMMIT_PEND 0).modEdge fun x =>
    { x with lcPer := x.lcPerNext.getD x.lcPer, lcDuty := x.lcDutyNext.getD x.lcDuty, lcPerNext := none, lcDutyNext := none }

/-- The period that begins at `e` queued (R246, R247). -/
def State.lcQueue (s : State) (e : Nat) : State :=
  let per := s.edge.lcPer
  let duty := min s.edge.lcDuty per
  let s := if duty = 0 then s.queueCarrier false e
    else if duty = per then s.queueCarrier true e
    else (s.queueCarrier true e).queueCarrier false (e + duty * (10 * ns))
  s.modEdge fun x => { x with lcAt := some (e + per * (10 * ns)), lcLast := some e }

/-- LC_PERIOD_BOUNDARY (R245 to R250): the next period of the carrier begins, unless the carrier ends by then. -/
def execLcPeriodBoundary (s : State) : Host.Outcome State Fault Refusal :=
  s.live fun s =>
    match s.edge.lcAt with
    | none => s
    | some e => if s.lcCut.any fun b => decide (b ≤ e) then s else ((s.advanceTo e).lcTake).lcQueue e

/-- What has been written in the island cycle of a period boundary takes effect at that boundary (R249, R250). -/
def State.lcLate (s : State) : State :=
  match s.edge.lcLast with
  | some e => if sameCycle cyc500 e s.mer.mer then ((s.cutCarrier e).lcTake).lcQueue e else s
  | none => s

/-- A write of EDG_LC_PER (offset 0x070) or EDG_LC_DUTY (0x074): with PAIRED 0 it waits for the next boundary (R249), else in the shadow (R250). -/
def State.lcWrite (s : State) (ofs v : Nat) : State :=
  let s := s.storeWord 0x58 ofs v
  if s.on EDG.LC_CTL_PAIRED then s
  else if ofs = 0x070 then (s.modEdge fun x => { x with lcPerNext := some (s.rd EDG.LC_PER) }).lcLate
  else (s.modEdge fun x => { x with lcDutyNext := some (s.rd EDG.LC_DUTY) }).lcLate

/-- A write of EDG_COMMIT (R250). -/
def State.commitWrite (s : State) : State :=
  if s.on EDG.LC_CTL_PAIRED then
    ((s.wr EDG.STAT_COMMIT_PEND 1).modEdge fun x => { x with lcPerNext := some (s.rd EDG.LC_PER), lcDutyNext := some (s.rd EDG.LC_DUTY) }).lcLate
  else s

/-- COMMIT (R250). -/
def execCommit (s : State) : Host.Outcome State Fault Refusal :=
  s.live fun s => s.busWrite 0x58 0x07C 1 fun s => s.commitWrite

/-- The local carrier starts: its first period begins PHASE after the stride that starts at `b` (R245). -/
def State.lcStart (s : State) (b : Nat) : State :=
  (s.wr EDG.STAT_LC_RUN 1).modEdge fun x => { x with lcAt := some (b + s.rd EDG.LC_PHASE * (10 * ns)) }

/-! Timed event channels. -/

/-- TIME of a channel, as a Meridian instant. -/
def State.tevTime (s : State) (e : Nat) : Nat := (s.rdA EDG.TEV_TIME_LO 0 e + 2 ^ 32 * s.rdA EDG.TEV_TIME_HI 0 e) * ns

/-- An armed TIME at or before the present Meridian sets LATE (R251). -/
def State.tevCheck (s : State) (e : Nat) : State :=
  if s.onA EDG.TEV_ARM 0 e && decide (s.tevTime e ≤ s.mer.mer) then (s.wrA EDG.TEV_LATE 0 e 1).raise 0x58 12 else s

/-- TEV_FIRE (R251): channel `e` fires; by PERIOD it stays armed for a later TIME. -/
def execTevFire (e : Nat) (s : State) : Host.Outcome State Fault Refusal :=
  s.live fun s =>
    if e < 4 && s.onA EDG.TEV_ARM 0 e then
      let s := ((s.advanceTo (s.tevTime e)).raise 0x58 (8 + e)).noteEvent (4 + e) (max s.mer.mer (s.tevTime e))
      let per := s.rdA EDG.TEV_PERIOD 0 e
      if per = 0 then s.wrA EDG.TEV_ARM 0 e 0
      else
        let t := s.tevTime e / ns + 10 * per
        ((s.wrA EDG.TEV_TIME_LO 0 e t).wrA EDG.TEV_TIME_HI 0 e (t / 2 ^ 32)).tevCheck e
    else s

end Sys2Proof.Machine
end

