-- ==== Sys2Proof/Machine/Drive.lean ====
section
/-! DEFINITION. The field die's commands (07): profiles (R257 to R259), decks (R264 to R270), accounts and refills (R271 to R276), gate
supplies and enables (R279, R280), desaturation (R281) and GEN (R285, R286). -/

namespace Sys2Proof.Machine

/-- A direct channel's phase given with its start. -/
def State.setPhase (s : State) (c ph : Nat) : State := s.modChan c fun x => { x with phase := ph, phaseAt := s.mer.mer }

/-- A profile level in mV: signed, 0.2 V units. -/
def profMv (x : Chan) (i : Nat) : Int := sext 8 (x.prof.getD i 0) * 200

/-- The gate has passed V_EXIT in the direction of the channel's action. -/
def pastExit (x : Chan) (mv : Int) : Bool := if x.on then decide (profMv x 1 ≤ mv) else decide (mv ≤ profMv x 1)

/-- GATE_PHASE_END (R255, R257, R258, R281): the gate of direct channel `chan` (1 or 3) is at `mv`, or T_PRE has elapsed. -/
def execGatePhaseEnd (chan : Nat) (mv : Int) (s : State) : Host.Outcome State Fault Refusal :=
  s.live fun s =>
    if !s.isCell || chan % 2 == 0 then s
    else
      let s := s.modChan chan fun x => { x with clamp := !x.on && decide (mv < 2000) }
      let x := s.chan chan
      match x.phase with
      | 1 =>
        if x.prof.getD 3 0 = 1 then
          let s := (s.advanceTo (x.phaseAt + x.prof.getD 4 0 * (10 * ns))).setPhase chan 2
          if pastExit x mv then s.setPhase chan 3 else s
        else if (if x.on then decide (profMv x 0 ≤ mv) else decide (mv ≤ profMv x 0)) then
          let s := s.setPhase chan 2
          if pastExit x mv then s.setPhase chan 3 else s
        else s
      | 2 => if pastExit x mv then s.setPhase chan 3 else s
      | 4 => if mv < profMv x 1 then s.setPhase chan 3 else s
      | _ => s

/-- MILLER_TMO (R259): phase 2 of direct channel `chan` ends by T_MILLER. -/
def execMillerTmo (chan : Nat) (s : State) : Host.Outcome State Fault Refusal :=
  s.live fun s =>
    let x := s.chan chan
    if s.isCell && chan % 2 == 1 && x.phase == 2 then
      let s := (s.advanceTo (x.phaseAt + x.prof.getD 5 0 * (10 * ns))).setPhase chan 3
      (s.inc GDR.CNT2_MILLER_TMO).raise 0x59 8
    else s

/-- REFRESH_BURST (R264): the burst of float channel `m`'s unchanged state repeats. -/
def execRefreshBurst (m : Nat) (s : State) : Host.Outcome State Fault Refusal :=
  s.live fun s =>
    if s.isCell && m < 2 then
      let t := s.gate.burstAt.getD m 0 + s.rd GDR.FLT_REFRESH * us
      let s := s.advanceTo t
      s.burst m t (s.outLevel (2 * m) (s.chan (2 * m)).on)
    else s

/-- The gate channels of a float's deck are enabled. -/
def State.deckLive (s : State) (m : Nat) : Bool :=
  s.on GDR.CTL_GATE_EN && s.on GDR.STAT_GEN_LVL && bitOf (s.rd GDR.CTL_CH_EN) (2 * m)

/-- A deck's UVLO latch set (Table 7-4, R278). -/
def State.deckUvlo (s : State) (m : Nat) : State :=
  let s := ((s.setDeck m 3).inc GDR.CNT2_UVLO).raise 0x59 4
  s.latchFault (5 + m) s.mer.mer

/-- A UVLO report of a deck. -/
def State.deckReportsUvlo (s : State) (m : Nat) : State :=
  let s := s.modGate fun g => { g with deckBad := setAt g.deckBad m true }
  if s.deckSt m = 1 ∨ s.deckSt m = 2 then (s.endRefill m).deckUvlo m else s

/-- DECK_FRAME (R266, R267, Table 7-4): the periods of a deck's frame, a loaded primary as 1; no periods for a missing frame. -/
def execDeckFrame (m : Nat) (bits : List Bool) (s : State) : Host.Outcome State Fault Refusal :=
  s.live fun s =>
    if !s.isCell || 2 ≤ m then s
    else
      let b := fun (i : Nat) => bits.getD i false
      if 6 ≤ bits.length && b 0 && !b 1 && b 2 == !b 4 && b 3 == !b 5 then
        let s := s.modGate fun g => { g with badFrames := setAt g.badFrames m 0 }
        if !b 2 && b 3 then
          let s := s.modGate fun g => { g with deckSeen := setAt g.deckSeen m true, deckBad := setAt g.deckBad m false }
          if s.deckSt m == 0 && s.deckLive m && (!s.trickle m || s.qFull m != 0) then (s.setDeck m 1).raise 0x59 5 else s
        else if b 2 && !b 3 then s.deckReportsUvlo m
        else s
      else
        let n := s.gate.badFrames.getD m 0 + 1
        let s := s.modGate fun g => { g with badFrames := setAt g.badFrames m n }
        if 3 ≤ n then s.deckReportsUvlo m else s

/-- DECK_START_TIMEOUT (Table 7-4): T_START has elapsed for a PUMP channel not READY. Where GEN is low or CH_EN clear too, the table's first row
keeps it NOT_READY (R14). -/
def execDeckStartTimeout (m : Nat) (s : State) : Host.Outcome State Fault Refusal :=
  s.live fun s =>
    match s.gate.pumpAt.getD m none with
    | some t => if s.isCell && s.startRuns m && s.deckLive m then (s.advanceUp (t + s.rd GDR.FLT_T_START * ms)).deckUvlo m else s
    | none => s

/-- One update of the account of float channel `m` (R271). -/
def State.accountStep (s : State) (m : Nat) : State :=
  if s.trickle m && (s.deckSt m == 1 || s.deckSt m == 2) then
    let low : Int := if (s.chan (2 * m + 1)).on then (s.rdA GDR.BS_I_REFILL 0 m * 40000 : Nat) else 0
    let q : Int := (s.account m : Int) + sext 16 (s.rdA GDR.BS_I_NET 0 m) * 40 + low
    s.setAccount m (min q.toNat (s.qFull m))
  else s

/-- The instant of the next update of the accounts (R271): the present one, or the next multiple of 40 ns. -/
def State.accountNext (s : State) : Nat :=
  let t := s.mer.mer / (40 * ns) * (40 * ns)
  if t = s.mer.mer ∧ s.gate.accountAt < t then t else t + 40 * ns

/-- ACCOUNT_UPDATE (R271, R272): an instant that is a multiple of 40 ns. -/
def execAccountUpdate (s : State) : Host.Outcome State Fault Refusal :=
  s.live fun s =>
    if s.isCell then
      let t := s.accountNext
      let s := (s.advanceTo t).modGate fun g => { g with accountAt := t }
      let s := (s.accountStep 0).accountStep 1
      (s.modGate fun g => { g with refillWait := [s.refillWanted 0 false, s.refillWanted 1 false] }).showGate
    else s

/-- The float channel that is on and whose forced refill starts now; one whose turn-on is due in this cycle may go before it (R273). -/
def State.refillNext (s : State) : Option Nat :=
  [0, 1].find? fun m => s.gate.refillWait.getD m false && s.refillWanted m false && s.refillFirst m s.mer.mer

/-- FORCED_REFILL (R272, R273): the forced refill of a channel that is on starts. -/
def execForcedRefill (s : State) : Host.Outcome State Fault Refusal :=
  s.live fun s =>
    match s.refillNext with
    | some m => if s.isCell && s.refillFree then s.startRefill m s.mer.mer else s
    | none => s

/-- The LOW bit of a gate supply: 0 VGP, 1 VGN, 2 VDDF. -/
def State.setSupply (s : State) (k : Nat) (low : Bool) : State :=
  match k with
  | 0 => s.wrB GDR.STAT_VGP_LOW low
  | 1 => s.wrB GDR.STAT_VGN_LOW low
  | 2 => s.wrB GDR.STAT_VDDF_LOW low
  | _ => s

/-- A gate supply at `mv` lies beyond its falling threshold, or past it by the hysteresis too (Table 7-5), in mV: 0 VGP, 1 VGN, 2 VDDF. -/
def State.supplyBeyond (s : State) (k : Nat) (mv : Int) : Bool :=
  match k with
  | 0 => decide (mv < 8000 + 250 * s.rd GDR.SUP_VGP_TH)
  | 1 => decide (-(2000 + 250 * s.rd GDR.SUP_VGN_TH : Int) < mv)
  | _ => decide (mv < 4500)

/-- A gate supply at `mv` is past its threshold by the hysteresis (Table 7-5). -/
def State.supplyPast (s : State) (k : Nat) (mv : Int) : Bool :=
  match k with
  | 0 => decide (8000 + 250 * s.rd GDR.SUP_VGP_TH + 500 ≤ mv)
  | 1 => decide (mv ≤ -(2000 + 250 * s.rd GDR.SUP_VGN_TH + 500 : Int))
  | _ => decide (4700 ≤ mv)

/-- The LOW bit of a gate supply as it stands. -/
def State.supplyIsLow (s : State) (k : Nat) : Bool :=
  match k with
  | 0 => s.on GDR.STAT_VGP_LOW
  | 1 => s.on GDR.STAT_VGN_LOW
  | _ => s.on GDR.STAT_VDDF_LOW

/-- GATE_SUPPLY_LOW (R279, R280): a supply beyond its threshold for 1 µs becomes low. -/
def execGateSupplyLow (x : SupplyReading) (s : State) : Host.Outcome State Fault Refusal :=
  s.live fun s =>
    if s.isCell && x.supply < 3 && s.supplyBeyond x.supply x.mv && !s.supplyIsLow x.supply then
      let s := (s.advanceUp (x.since + us)).setSupply x.supply true
      if s.on GDR.CTL_GATE_EN then (((s.inc GDR.CNT2_UVLO).raise 0x59 (1 + x.supply)).latchFault (2 + x.supply) s.mer.mer) else s
    else s

/-- GATE_SUPPLY_OK (R279): a supply past its threshold and the hysteresis for 1 µs is no longer low. -/
def execGateSupplyOk (x : SupplyReading) (s : State) : Host.Outcome State Fault Refusal :=
  s.live fun s =>
    if s.isCell && x.supply < 3 && s.supplyPast x.supply x.mv && s.supplyIsLow x.supply then (s.advanceUp (x.since + us)).setSupply x.supply false
    else s

/-- Channels whose enable has ended are held off, and their floats are NOT_READY (Table 7-4, R270, R283). -/
def State.enforceEnables (s : State) : State :=
  let s := s.showGate
  let dead := fun (c : Nat) => !s.on GDR.STAT_ENABLED || !bitOf (s.rd GDR.CTL_CH_EN) c
  let s := [0, 1, 2, 3].foldl (fun s c =>
    if dead c && (s.chan c).on then ((s.endRefill (c / 2)).dropDue c).chanOff c s.mer.mer s.mer.mer true else s) s
  let s := [0, 1].foldl (fun s m =>
    if !dead (2 * m) || s.deckSt m == 0 then s
    else if (s.leg m).refill = 0 then s.setDeck m 0
    else (s.setDeck m 0).forceLeg m s.mer.mer (s.leg m).hi (s.leg m).lo) s
  s.showGate

/-- A write of GDR_CTL (R280). -/
def State.gdrCtlWrite (s : State) (v : Nat) : State :=
  let was := s.on GDR.CTL_GATE_EN
  let s := s.noteErrors 0x59 0x040 v
  let refused := bitOf v 0 && s.supplyLow
  let s := (fieldsAt 0x59 0x040).foldl (fun s f =>
    if f.1 = GDR.CTL_GATE_EN && refused then s else s.storeField 0x59 f.2 f.1 (v / 2 ^ f.1.lo)) s
  let s := if refused then s.accessErr 0x59 0x040 4 else s
  let s := if !was && s.on GDR.CTL_GATE_EN then s.modGate fun g => { g with deckSeen := [false, false] } else s
  s.enforceEnables

/-- GATE_EN_WRITE (R280): the word written to GDR_CTL. -/
def execGateEnWrite (value : Nat) (s : State) : Host.Outcome State Fault Refusal :=
  s.live fun s => s.busWrite 0x59 0x040 value fun s => s.gdrCtlWrite value

/-- The level of DSAT_THR in mV, and DSAT_FILT and the blanking time in the Meridian's units. -/
def State.desatThr (s : State) : Nat := 3000 + 500 * s.rd GDR.DSAT_THR

/-- The instant at which a level above THR, there since instant `since`, is a desaturation: after the blanking time it has held for FILT (R281). -/
def State.desatAt (s : State) (n since : Nat) : Nat :=
  max since ((s.chan (2 * n + 1)).onAt + s.rd GDR.DSAT_BLANK * (50 * ns)) + s.rd GDR.DSAT_FILT * (50 * ns)

/-- DESATURATION (R281): the level at DSATn above the threshold. -/
def execDesaturation (n : Nat) (reading : HeldVoltage) (s : State) : Host.Outcome State Fault Refusal :=
  s.live fun s =>
    if s.isCell && n < 2 && (s.chan (2 * n + 1)).on && s.desatThr < reading.mv then
      let s := s.advanceTo (s.desatAt n reading.since)
      let s := ((s.inc GDR.CNT2_DSAT).raise 0x59 0).latchFault n s.mer.mer
      s.modChan (2 * n + 1) fun x => { x with phase := 4, phaseAt := s.mer.mer, prof := s.profile n false }
    else s

/-- GEN_LOW (R285): GEN has been low for 100 ns. -/
def execGenLow (s : State) : Host.Outcome State Fault Refusal :=
  s.live fun s =>
    if s.isCell then
      let since := s.gate.genLow.getD (s.mer.uptime - 100 * ns)
      let s := s.modGate fun g => { g with genLow := some since, genHeld := true }
      (((s.wr GDR.STAT_GEN_LVL 0).allOff s.mer.mer).enforceEnables).raise 0x59 9
    else s

/-- The cause of latch bit `k` of Table 7-6 is present. -/
def State.causePresent (s : State) (k : Nat) : Bool :=
  match k with
  | 2 => s.on GDR.STAT_VGP_LOW
  | 3 => s.on GDR.STAT_VGN_LOW
  | 4 => s.on GDR.STAT_VDDF_LOW
  | 5 => s.gate.deckSeen.getD 0 false && s.gate.deckBad.getD 0 false
  | 6 => s.gate.deckSeen.getD 1 false && s.gate.deckBad.getD 1 false
  | 0 | 1 | 7 => false
  | k => s.tripOn (k - 8) || s.tripSoon (k - 8) s.mer.mer

/-- Bit `k` of GDR_LATCH is set. -/
def State.latched (s : State) (k : Nat) : Bool :=
  if 8 ≤ k then bitOf (s.rd GDR.LATCH_TRIPCNT) (k - 8) else bitOf s.latches k

/-- One latch at a GEN clear (R286). -/
def State.clearLatch (s : State) (k : Nat) : State :=
  if !s.latched k then s
  else if s.causePresent k then s.wrBit GDR.LATCH_CAUSE_PRESENT k true
  else
    let s := s.setLatch k false
    if 8 ≤ k then
      ((s.setTripCnt (k - 8) 0).wrBit EDG.TRIP_STAT_SUPP_PEND (k - 8) false).modChan (k - 8) fun x => { x with tripped := false }
    else if k = 5 ∨ k = 6 then (if s.deckSt (k - 5) = 3 then s.setDeck (k - 5) 0 else s)
    else s

/-- GEN_CLEAR (R286): a rising edge at GEN; one that ends a low level shorter than 4 µs, or than the 100 ns of R285, clears nothing. -/
def execGenClear (s : State) : Host.Outcome State Fault Refusal :=
  s.live fun s =>
    match s.isCell, s.gate.genLow with
    | true, some since =>
      let s1 := (s.modGate fun g => { g with genLow := none, genHeld := false }).wr GDR.STAT_GEN_LVL 1
      if since + 4 * us ≤ s.mer.uptime then
        let s2 := (List.range 12).foldl (fun s k => s.clearLatch k) (s1.wr GDR.LATCH_CAUSE_PRESENT 0)
        let s2 := s2.raiseIf (s2.on GDR.LATCH_CAUSE_PRESENT) 0x59 12
        ((s2.modGate fun g => { g with deckSeen := [false, false] }).raise 0x59 10).showGate
      else (s1.raise 0x59 11).showGate
    | true, none => s.raise 0x59 11
    | false, _ => s

end Sys2Proof.Machine
end

