-- ==== Sys2Proof/Machine/Shift.lean ====
section
/-! DEFINITION. A step of the Meridian (R59, R60): the copy and every pending Meridian-timed action move by Δ, so that nothing moves in
real time. -/

namespace Sys2Proof.Machine

/-- A transition, moved. -/
def shiftTrans (d : Int) (t : LegTrans) : LegTrans := { t with e := shiftTime d t.e }

/-- A leg, moved. -/
def shiftLeg (d : Int) (l : Leg) : Leg :=
  { l with
    queue := l.queue.map (shiftTrans d), lastE := l.lastE.map (shiftTime d), refillAt := shiftTime d l.refillAt
    shootAt := l.shootAt.map (shiftTime d) }

/-- A channel, moved. -/
def shiftChan (d : Int) (c : Chan) : Chan :=
  { c with
    offAt := c.offAt.map (shiftTime d), onAt := shiftTime d c.onAt
    due := c.due.map fun x => { x with e := shiftTime d x.e, t := shiftTime d x.t }
    turnAt := c.turnAt.map (shiftTime d)
    hist := c.hist.map fun x => (shiftTime d x.1, x.2)
    phaseAt := shiftTime d c.phaseAt }

/-- The fire instant of an armed timed event channel moved. -/
def State.shiftTev (s : State) (d : Int) (e : Nat) : State :=
  if s.onA EDG.TEV_ARM 0 e then
    let t := ((s.rdA EDG.TEV_TIME_LO 0 e + 2 ^ 32 * s.rdA EDG.TEV_TIME_HI 0 e : Nat) + d / (ns : Int)) % (2 ^ 64 : Int)
    (s.wrA EDG.TEV_TIME_LO 0 e t.toNat).wrA EDG.TEV_TIME_HI 0 e (t.toNat / 2 ^ 32)
  else s

/-- What a graph operation waits for, and its present leg, moved. -/
def shiftOp (d : Int) (r : OpRun) : OpRun := 
  { r with since := shiftTime d r.since, waitEnd := shiftTime d r.waitEnd, legAt := shiftTime d r.legAt, lastDone := r.lastDone.map (shiftTime d) }

/-- The instants that an axis keeps, moved. -/
def shiftAxis (d : Int) (x : AxisState) : AxisState :=
  { x with
    edges := x.edges.map (shiftTime d), lastEdge := x.lastEdge.map (shiftTime d), ssiAt := shiftTime d x.ssiAt, evalAt := shiftTime d x.evalAt
    drive := x.drive.map fun p => { p with tb := shiftTime d p.tb } }

/-- The instants that a feedback interface keeps, moved. -/
def shiftFbk (d : Int) (x : FbkState) : FbkState :=
  { x with reading := x.reading.map (shiftTime d), goods := x.goods.map fun g => (shiftTime d g.1, g.2) }

/-- The instants that the converters keep, moved. -/
def shiftMeas (d : Int) (m : MeasState) : MeasState :=
  { m with
    events := m.events.map fun x => (shiftTime d x.1, x.2)
    starts := m.starts.map fun l => l.map (shiftTime d)
    due := m.due.map fun o => o.map (shiftTime d)
    closed := m.closed.map fun o => o.map (shiftTime d)
    asked := m.asked.map fun o => o.map (shiftTime d)
    scanAt := m.scanAt.map (shiftTime d) }

/-- What a PTP engine keeps, moved: its offsets are relative to the Meridian (R63, assumption 162). -/
def shiftPtp (d : Int) (p : PtpState) : PtpState :=
  { p with
    offsets := p.offsets.map (· - d), syncRx := shiftTime d p.syncRx, lastSync := p.lastSync.map (shiftTime d)
    lastAnn := p.lastAnn.map (shiftTime d) }

/-- A Meridian instant in ns moved by `d`. -/
def shiftNs (d : Int) (t : Nat) : Nat := ((t : Int) + d / (ns : Int)).toNat

/-- The Meridian and every pending Meridian-timed action moved by `d` (R59). -/
def State.shiftMer (s : State) (d : Int) : State :=
  let s := (List.range 4).foldl (fun s e => s.shiftTev d e) s
  { s with
    mer := { s.mer with mer := shiftTime d s.mer.mer, lastS := shiftTime d s.mer.lastS }
    pps := { s.pps with last := s.pps.last.map (shiftTime d), offsets := s.pps.offsets.map (· - d) }
    ptp := s.ptp.map (shiftPtp d)
    rings := s.rings.map fun r => (r.1, { r.2 with outs := r.2.outs.map fun o => { o with launch := shiftTime d o.launch } })
    edge := { s.edge with
      legs := s.edge.legs.map (shiftLeg d), chans := s.edge.chans.map (shiftChan d), lcAt := s.edge.lcAt.map (shiftTime d)
      lcLast := s.edge.lcLast.map (shiftTime d) }
    gate := { s.gate with burstAt := s.gate.burstAt.map (shiftTime d) }
    graph := { s.graph with
      ops := s.graph.ops.map (shiftOp d), dispAt := s.graph.dispAt.map (shiftTime d)
      coefs := s.graph.coefs.map fun c => { c with time := shiftTime d c.time } }
    axes := s.axes.map (shiftAxis d)
    fbk := s.fbk.map (shiftFbk d)
    meas := { shiftMeas d s.meas with step := some (nsOf s.mer.mer, nsOf (shiftTime d s.mer.mer)) }
    cells := s.cells.map fun c => (c.1, { c.2 with lastEdge := shiftNs d c.2.lastEdge })
    trunk := { s.trunk with landed := s.trunk.landed.map fun x => (shiftTime d x.1, x.2) }
    pens := s.pens.map fun p => { p with time := shiftTime d p.time }
    cell := { s.cell with
      sel := s.cell.sel.map fun x => { x with start := shiftTime d x.start }
      lateAt := s.cell.lateAt.map (shiftTime d), cmdInvAt := s.cell.cmdInvAt.map (shiftTime d) } }

end Sys2Proof.Machine
end

