-- ==== Sys2Proof/Machine/Pass.lean ====
section
/-! DEFINITION. A hoist passing a cell (03): its check (R106, R108, R109, R565), the discipline of the copy (R60, R82, R83, R210), the
flag (R102, R43), the uplink, response and trailer written in the same pass (R107, R114, R473), and wrapping (R126, R127). -/

namespace Sys2Proof.Machine

/-- A cell, by its index, as pennants address it. -/
def State.addressed (s : State) (target : Nat) : Bool := target == 0 || target == s.rd BNC.CELL_INDEX

/-- The primary direction in force (R675): 0 eastbound, 1 westbound. -/
def State.primaryDir (s : State) : Nat :=
  let split := if s.cell.split = 0 then (s.rd BNC.CELL_N + 1) / 2 else s.cell.split
  if s.rd BNC.CELL_INDEX ≤ split then 0 else 1

/-- The port of a cell on the side where hoists of a direction arrive: 0 west, 1 east. -/
def cellPage (side : Nat) : Nat := 0x10 + side

/-- A stride command is valid in a cell (R102, R219). The spec does not say whether an edge field that NEDGE leaves unused, or the edge fields of a
stop mode, can make a command invalid: they are not tested. DESIGN CHOICE, unsafe (assumption 130). -/
def State.cmdValid (s : State) (cmd : Nat) : Bool :=
  let n := bitsOf cmd 6 2
  let e0 := bitsOf cmd 8 20 * (ns / 4)
  let e1 := bitsOf cmd 28 20 * (ns / 4)
  let half := fun (st : Nat) => s.fullBridge || decide (st < 2)
  n != 3 && bitsOf cmd 51 13 == 0
    && (bitsOf cmd 0 2 != 0
        || ((n == 0 || decide (e0 < s.strideT)) && (n != 2 || (decide (e1 < s.strideT) && decide (e0 < e1) && half (bitsOf cmd 4 2)))
            && half (bitsOf cmd 2 2)))

/-- The stride boundary at or before the present Meridian, counted from a header's START. -/
def State.rebase (s : State) (h : Head) : State :=
  let k := (s.mer.mer - h.start * ns) / max 1 s.strideT
  { s with mer := { s.mer with lastS := h.start * ns + k * s.strideT, seq := (h.seq + k) % 2 ^ 32 } }

/-- TIME_OK and TIME_FAULT (R83), which only a cell has, for a counted header's error. -/
def State.countHeader (s : State) (e : Int) : State :=
  if !s.isCell then s else
  let good := if e.natAbs ≤ 2 * ns then s.mer.goodRun + 1 else 0
  let bad := if 20 * ns < e.natAbs then s.mer.badRun + 1 else 0
  let s := { s with mer := { s.mer with goodRun := good, badRun := bad } }
  let s := if 16 ≤ good then s.wr MER.STAT_TIME_OK 1 else s
  if bad = 4 then (s.wr MER.STAT_TIME_OK 0).raise 0x08 12 else s

/-- The copy disciplined to a checked header that arrives now (R82, R60, R672); `lat` is the latency of its direction. -/
def State.discipline (s : State) (h : Head) (lat : Nat) : State :=
  let start := h.start * ns
  let t : Int := max 1 s.strideT
  let s := if h.step && s.mer.cellLocked then
      (s.shiftMer ((start : Int) - (s.mer.sPrev + s.strideT : Nat))).wr MER.STAT_EPOCH (s.rd MER.STAT_EPOCH + 1)
    else s
  let e : Int := (s.mer.mer : Int) - (start + lat : Nat)
  let s := s.wrS MER.OFFSET 0 (satInt 32 (e.tdiv ns))
  if s.mer.cellLocked then
    let freq := s.mer.freq - (e * 1000000000).tdiv t
    let s := { s with mer := { s.mer with freq := freq, phase := clampInt s.slewLimit (-(e * 32000000000).tdiv t), sPrev := start } }
    (s.countHeader e).showRate
  else
    let s := { s with mer := { s.mer with mer := start + lat, cellLocked := true, sPrev := start } }
    (s.wr MER.STAT_STATE 1).rebase h

/-- A new stride T learned from two consecutive headers (R210). -/
def State.strideLearn (s : State) (h : Head) : State :=
  match s.cell.lastHdr with
  | some (q, st, step) =>
    let d := h.start - st
    if !step && !h.step && h.seq == (q + 1) % 2 ^ 32 && d * ns != s.strideT && d % 10 == 0 && decide (2000 ≤ d ∧ d ≤ 200000) then
      ((({ s with strideT := d * ns }).wr CEL.TIMING_STRIDE (d / 10)).raise 0x5A 13).rebase h
    else s
  | none => s

/-- The new key taken into use at the first valid header that carries its index with REKEY clear (R571). -/
def State.takeKey (s : State) (h : Head) : State :=
  if h.keyIdx != 0 && h.keyIdx == s.cell.nextIdx && !h.rekey then
    s.modCellRole fun c => { c with key := c.nextKey, keyIdx := c.nextIdx, nextKey := [], nextIdx := 0 }
  else s

/-- SURVEY_ARM of a checked header (R472, R473). -/
def State.surveyHeader (s : State) (h : Head) : State :=
  if s.cell.dual && h.dir != s.cell.obeyDir then s
  else
    let was := s.cell.surveyArm
    let s := s.modCellRole fun c => { c with surveyArm := h.surveyArm }
    if h.surveyArm then (if was then s else s.svyArm)
    else if s.rd SVY.STAT_STATE = 1 then s.svyFire 0x0A 0 s.mer.mer h.seq 0xFFFF 0
    else s

/-- The present instant lies in the cycle of the last local boundary: what passes counts for the stride that ended there (R209). -/
def State.atBoundary (s : State) : Bool := sameCycle cyc500 s.mer.mer s.mer.lastS

/-- A header has passed R106: the orphan count ends and the orphan timer restarts (R206, R207, R209). -/
def State.noteHeader (s : State) : State :=
  (s.modCellRole fun c => { c with orphanAt := some s.mer.uptime, hdrSeen := c.hdrSeen || !s.atBoundary }).wr CEL.STAT_ORPH_CNT 0

/-- The header of a hoist that the cell uses: ring, cell count, key, T, discipline and Survey. -/
def State.headerPassed (s : State) (h : Head) : State :=
  let s := s.noteHeader.modCellRole fun c =>
    { c with ring := h.ring, dual := h.lease != 0, heads := (⟨h.seq, h.unit, h.term⟩ :: c.heads).take 16 }
  let s := (s.wr BNC.CELL_N h.count).takeKey h
  let s := s.strideLearn h
  let s := s.modCellRole fun c => { c with lastHdr := some (h.seq, h.start, h.step) }
  let s := if h.dir = s.cell.obeyDir then
      s.discipline h (if h.dir = 0 then s.rd MER.LAT_W_LAT else s.rd MER.LAT_E_LAT)
    else s
  s.surveyHeader h

/-- A tag of a flag or pennant failed at a port (R108, R673). -/
def State.tagFailed (s : State) (side : Nat) : State :=
  ((s.modCellRole fun c => { c with tagBad := true }).incI BNT.CNT_LINK_TAG_FAIL side).raise (cellPage side) 7

/-- The cell's own flag of a hoist (R101, R102, R43, R108); the flag is complete and checked at Meridian instant `done`. One that completes in the
cycle of its deadline is in time (R124). -/
def State.takeFlag (s : State) (side : Nat) (h : Head) (tagOk : Bool) (cmd done : Nat) : State :=
  if !tagOk then s.tagFailed side
  else
    let ok := s.cmdValid cmd
    let s := if ok then s else s.modCellRole fun c => { c with cmdInvAt := (done :: c.cmdInvAt).take 16 }
    let la := max 1 (s.rd CEL.TIMING_LA)
    if cycleEnd cyc500 (h.start * ns + la * s.strideT - us) < done then
      s.modCellRole fun c => { c with lateAt := (done :: c.lateAt).take 16 }
    else s.modCellRole fun c => { c with flags := (⟨h.seq, h.dir, h.unit, h.term, tagOk, cmd, ok⟩ :: c.flags).take 16 }

/-- A pennant of a checked hoist that this cell may act on is held for its own command (R112, R673). -/
def State.holdPen (s : State) (port : Nat) (h : Head) (tcrc : Bool) (pen : Bytes) : State :=
  { s with pens := s.pens ++ [⟨s.mer.mer, h.dir, h.seq, h.unit, tcrc, port, pen⟩] }

/-- The pennant of a checked hoist: held when the cell may act on it; whether its tag failed. -/
def State.passPennant (s : State) (side : Nat) (h : Head) (tcrc tagOk : Bool) (pen : Bytes) : State :=
  let typ := leAt pen 0 1
  if typ = 0x10 then s.holdPen side h tcrc pen
  else if typ = 0x20 then s
  else if !tagOk then s.tagFailed side
  else if typ = 0 then (if s.pens.any fun p => leAt p.data 0 1 == 0 then s else s.holdPen side h tcrc pen)
  else if [1, 2, 0x11, 0x30, 0x31, 0x32].contains typ && s.addressed (leAt pen 2 2) then s.holdPen side h tcrc pen
  else s

/-- A KEY_AGREE pennant read from any hoist whose HCRC is valid (R565). -/
def State.readKeyPen (s : State) (side : Nat) (h : Head) (pen : Bytes) (tcrc : Bool) : State :=
  if leAt pen 0 1 == 0x20 && (leAt pen 4 1 == 1 || leAt pen 4 1 == 3) && s.addressed (leAt pen 2 2) then s.holdPen side h tcrc pen
  else s

/-- The response that the cell writes into an EMPTY response slot (R114), and the state without it. -/
def State.takeResp (s : State) (h : Head) (pen : Bytes) (tagOk : Bool) : State × Option Bytes :=
  if h.seq % 2 = 1 && leAt pen 0 1 == 0 && tagOk then
    match s.cell.resp.find? fun r => !s.cell.dual || r.1 != h.unit with
    | some r => (s.modCellRole fun c => { c with resp := c.resp.erase r }, some r.2)
    | none => (s, none)
  else (s, none)

/-- The ALARM bits that the cell adds (Table 3-8). -/
def State.alarmBits (s : State) : Nat :=
  let st := leAt s.cell.ul 9 2
  ofBool (bitOf st 7) + 2 * ofBool (bitOf st 8) + 4 * ofBool s.cell.tagBad + 8 * ofBool (bitOf st 3)

/-- The cell runs generation-1 framing on a side (R139). -/
def State.legacySide (s : State) (side : Nat) : Bool := s.on SYS.STRAP_LGCY || s.onI BNT.PORT_CTL_LEGACY side

/-- t_hop: the time from a bit's arrival to its leaving (R91, R141). -/
def passTime (legacy : Bool) : Nat := tHop legacy * ns

/-- A cell's side wraps: it has no block lock, or has regained one that is not released (R126, R129). -/
def State.wrapsAt (s : State) (side : Nat) : Bool :=
  s.onI BNT.PORT_STAT_WRAPPED side || (s.onI BNT.PORT_CTL_WRAP_EN side && !s.onI BNT.PORT_STAT_BLOCK_LOCK side)

/-- A hoist that began to arrive at instant `arr` sent on t_hop later: out of the opposite side, and back out of its own where the opposite side
wraps (R91, R97, R126). -/
def State.sendOn (s : State) (side arr : Nat) (wrap : Bool) (data : Bytes) : State :=
  let lg := s.legacySide side
  let s := s.sendHoist lg (1 - side) (arr + passTime lg) data
  if wrap && s.wrapsAt (1 - side) then (s.startWrap (1 - side)).sendHoist lg side (arr + passTime lg) data else s

/-- A generation-1 hoist whose header passed: flag, uplink, pennant and CRC-32 (R140). -/
def State.passLegacy (s : State) (side : Nat) (h : Head) (data : Bytes) (tOk : Bool) (arr : Nat) : State :=
  let i := s.rd BNC.CELL_INDEX
  let sl := slotOf h.dir h.count i
  let own := decide (1 ≤ i ∧ i ≤ h.count)
  let o := 16 + 16 * sl
  let s := if own then
      let c := sliceBytes data o 4
      s.takeFlag side h (leAt data (o + 4) 2 == crc16 c) (fromLegacyCmd (leAt c 0 4)) (arr + byteTime true (o + 16))
    else s
  let d := if own then overlay data (o + 6) (legacyUplink s.cell.ul) else data
  let po := 16 + 16 * h.count
  let pen := sliceBytes data po 32
  let ok := legacyPenOk pen
  let s := s.passPennant side h tOk ok pen
  let r := s.takeResp h pen ok
  let d := match r.2 with | some b => overlay d po (legacyPen b) | none => d
  let body := d.take (d.length - 4)
  let c := crc32 body
  (r.1.modCellRole fun c => { c with tagBad := false }).sendOn side arr true (body ++ leBytes 4 (if tOk then c else c ^^^ 0xFFFFFFFF))

/-- A hoist of Table 3-3 whose header passed: flag, uplink, pennant, response, trailer (R107 to R109, R114, R473). -/
def State.passHoist (s : State) (side : Nat) (h : Head) (data : Bytes) (tOk : Bool) (arr : Nat) : State :=
  let key := (keyNamed s.cell.key s.cell.keyIdx s.cell.nextKey s.cell.nextIdx h.keyIdx).getD []
  let i := s.rd BNC.CELL_INDEX
  let sl := slotOf h.dir h.count i
  let own := decide (1 ≤ i ∧ i ≤ h.count)
  let o := 32 + 32 * sl
  let s := if own then
      let c := sliceBytes data o 8
      s.takeFlag side h (sliceBytes data (o + 8) 4 == tagBytes 4 key (linkNonce 2 h i) c) (leAt c 0 8) (arr + byteTime false (o + 32))
    else s
  let ul := s.cell.ul
  let d := if own then overlay data (o + 12) (ul ++ tagBytes 4 key (linkNonce 3 h i) ul) else data
  let po := 32 + 32 * h.count
  let pen := sliceBytes data po 64
  let ok := ptagOk key h pen []
  let s := s.passPennant side h tOk ok pen
  let r := s.takeResp h pen ok
  let s := r.1
  let d := match r.2 with | some b => overlay d po (sealPen key h b) | none => d
  let fire := leAt data (96 + 32 * h.count) 2
  let s := if fire != 0 && tOk && s.rd SVY.STAT_STATE == 1 then s.svyFire 8 0 s.mer.mer h.seq 0xFFFF 0 else s
  let put := own && s.svy.fireCell && fire == 0
  let alarm := leAt data (98 + 32 * h.count) 1 ||| s.alarmBits
  let s := if put then s.modSvy fun v => { v with fireCell := false } else s
  let body := d.take po ++ sliceBytes d po 64
  let out := body ++ trailerBytes body (if put then i else fire) alarm (!tOk)
  (s.modCellRole fun c => { c with tagBad := false }).sendOn side arr true out

/-- The incoming TCRC has failed: counted on the port (R109). -/
def State.crcFailed (s : State) (side : Nat) : State := (s.incI BNT.CNT_ERR_CRC_ERR side).raise (cellPage side) 5

/-- The ENUM hoist of bring-up (R118), of COUNT 0: a pennant that verifies is held, and sent on with its running count raised; one that fails is left
as it came (R673). A failed TCRC stays failed (R109). -/
def State.passEnum (s : State) (side : Nat) (h : Head) (data : Bytes) (legacy : Bool) : State :=
  let po := if legacy then 16 else 32
  let tOk := tcrcOk data
  let s := if tOk then s else s.crcFailed side
  let pen := sliceBytes data po (if legacy then 32 else 64)
  let ok := if legacy then legacyPenOk pen else ptagOk bringUpKey h pen []
  let own := ok && leAt pen 0 1 == 0x38
  let s := if own then s.holdPen side h tOk pen else if ok then s else s.tagFailed side
  let body := overlay pen 4 (leBytes 2 (leAt pen 4 2 + 1))
  let sent := if !own then pen else if legacy then legacyPen body else sealPen bringUpKey h body
  let d := data.take po ++ sent
  let c := crc32 d
  s.sendOn side s.mer.mer true (if legacy then d ++ leBytes 4 (if tOk then c else c ^^^ 0xFFFFFFFF) else d ++ trailerBytes d 0 0 (!tOk))

/-- A cell's own side of a hop released: the wrap there ends (R129, R674). -/
def State.releaseSide (s : State) (side : Nat) : State := (s.wrI BNT.PORT_STAT_UNRELEASED side 0).endWrap side

/-- A checked header that comes over a hop not yet released (R129, R133): it serves neither flags nor timing and is not sent on; the cell
reads a pennant that can release the hop. -/
def State.passUnreleased (s : State) (side : Nat) (h : Head) (data : Bytes) (legacy : Bool) : State :=
  let s := s.noteHeader
  let po := if legacy then 16 + 16 * h.count else 32 + 32 * h.count
  let pen := sliceBytes data po (if legacy then 32 else 64)
  let key := (keyNamed s.cell.key s.cell.keyIdx s.cell.nextKey s.cell.nextIdx h.keyIdx).getD []
  if leAt pen 0 1 = 0x30 ∨ leAt pen 0 1 = 0x31 then
    if if legacy then legacyPenOk pen else ptagOk key h pen [] then
      if s.addressed (leAt pen 2 2) then s.holdPen side h (tcrcOk data) pen else s
    else s.tagFailed side
  else s

/-- A hoist that arrives at side `side` of a cell. -/
def State.cellPass (s : State) (side : Nat) (data : Bytes) : State :=
  let lg := s.legacySide side
  let tOk := tcrcOk data
  let shut := s.onI BNT.PORT_STAT_UNRELEASED side
  if !s.trains then s
  else
    let raw := parseHead data
    let s := if !lg && hcrcOk data && raw.dir == side then
        s.readKeyPen side raw (sliceBytes data (32 + 32 * raw.count) 64) tOk
      else s
    match headOk lg (keyNamed s.cell.key s.cell.keyIdx s.cell.nextKey s.cell.nextIdx) s.mer.seq data with
    | none =>
      let body := data.take (data.length - 4)
      let s := (s.incI BNT.CNT_ERR_HDR_ERR side).raise (cellPage side) 6
      if shut then s else s.sendOn side s.mer.mer true (body ++ leBytes 4 (crc32 body ^^^ 0xFFFFFFFF))
    | some h =>
      if h.dir ≠ side then (if shut then s else s.sendOn side s.mer.mer false data)
      else if h.enum then ((if shut then s.releaseSide side else s).noteHeader).passEnum side h data lg
      else if shut then s.passUnreleased side h data lg
      else
        let s := (if tOk then s else s.crcFailed side).headerPassed h
        if lg then s.passLegacy side h data tOk s.mer.mer else s.passHoist side h data tOk s.mer.mer

/-- A hoist arriving at a side has a header that passes R106 and is not wrapped. -/
def State.passes (s : State) (side : Nat) (data : Bytes) : Bool :=
  match headOk (s.legacySide side) (keyNamed s.cell.key s.cell.keyIdx s.cell.nextKey s.cell.nextIdx) s.mer.seq data with
  | some h => h.dir == side
  | none => false

/-- A header that passes R106 in the cycle of Meridian instant `b` and whose HOIST_PASS still waits: it counts as received (R209). -/
def State.headerDue (s : State) (b : Nat) : Bool :=
  s.pending.any fun c =>
    match c with
    | .hoistPass side t data => decide (side < 2) && sameCycle cyc500 t b && s.passes side data
    | _ => false

/-- HOIST_PASS (R106): the hoist `data`, whose first bit arrives at side `side` (0 west, 1 east) at instant `t` of the cell's copy. -/
def execHoistPass (side t : Nat) (data : Bytes) (s : State) : Host.Outcome State Fault Refusal :=
  s.live fun s => if s.isCell && side < 2 then (s.advanceTo t).cellPass side data else s

end Sys2Proof.Machine
end

