-- ==== Sys2Proof/Machine/Cell.lean ====
section
/-! DEFINITION. The cell role (05): its life (Table 5-1), bypass orders (R193 to R195), the flag chosen at its deadline (R123, R500, Table
5-2), the local stride boundary (R41, R198 to R203, R206 to R208), overvoltage (R204) and temperature (R205). CEL_STAT.LIFE: 0
SELFTEST, 1 ROM_WAIT, 2 LOADING, 3 VERIFY, 4 RUNNING, 5 REJECTED, 6 BYPASSED, 7 FAILED. -/

namespace Sys2Proof.Machine

/-- BOOT_STATE of a life state (R188). -/
def lifeBoot (life : Nat) : Nat := if life = 2 ∨ life = 3 then 1 else if life = 4 then 2 else if life = 5 then 3 else 0

/-- The cell's life state. -/
def State.life (s : State) : Nat := s.rd CEL.STAT_LIFE

/-- A life state entered; a bypass leaves BOOT_STATE as it was (R188). -/
def State.setLife (s : State) (l : Nat) : State :=
  let s := s.wr CEL.STAT_LIFE l
  if l = 6 then s else s.modCellRole fun c => { c with bootState := lifeBoot l }

/-- A bypass order (R193, Table 5-1): 0 with no event of its own, 2 the boot window, 4 the orphan timeout. -/
def State.bypassOrder (s : State) (event : Nat) : State :=
  let l := s.life
  if l = 6 ∨ l = 7 then s
  else
    let s := { s with bypassFromRunning := l == 4 }
    let s := ((s.setLife 6).wr CEL.STAT_BYPASS_ORDERED 1).wr CEL.STAT_HB_RUN 0
    let s := s.modCellRole fun c => { c with bypassAt := some s.mer.uptime, pulses := 0 }
    let s := (s.raise 0x5A 10).raiseIf (event != 0) 0x5A event
    s.holdBypass

/-- ORPHAN_TIMEOUT (R207): the orphan timer reaches TMO_MS, unless a header passes in that cycle (R209). -/
def execOrphanTimeout (s : State) : Host.Outcome State Fault Refusal :=
  s.live fun s =>
    match s.cell.orphanAt with
    | some t =>
      if s.isCell then
        let s := s.advanceUp (t + s.rd CEL.ORPHAN_TMO_MS * ms)
        if s.headerDue s.mer.mer then s else s.bypassOrder 4
      else s
    | none => s

/-- BPT_PULSE (R194): the next pulse after a bypass order, while BPT_HOLD lasts. -/
def execBptPulse (s : State) : Host.Outcome State Fault Refusal :=
  s.live fun s =>
    match s.cell.bypassAt with
    | some t =>
      let ofs := s.cell.pulses * (50 * us)
      if s.isCell && s.on CEL.HB_BPT_EN && decide (ofs < s.rd CEL.HB_BPT_HOLD * ms) then
        ((s.advanceUp (t + ofs)).modCellRole fun c => { c with pulses := c.pulses + 1 }).emit (.bptPulse (s.rd CEL.HB_BPT_W))
      else s
    | none => s

/-- SELFTEST_DONE (R187, Table 5-1, R225). -/
def execSelftestDone (report : SelftestReport) (s : State) : Host.Outcome State Fault Refusal :=
  s.live fun s =>
    if s.isCell && s.life == 0 then
      let s := s.calibrate report.taps
      if report.pass then ((s.setLife 1).wr CEL.STAT_HB_RUN 1).modCellRole fun c => { c with lbp := true } else s.setLife 7
    else s

/-- BOOT_WINDOW_EXPIRY (R191): WAIT_S after the release of power-on reset, before RUNNING. -/
def execBootWindowExpiry (s : State) : Host.Outcome State Fault Refusal :=
  s.live fun s =>
    if s.isCell && [0, 1, 2, 3, 5].contains s.life then (s.advanceUp (s.rd CEL.BOOT_WAIT_S * sec)).bypassOrder 2 else s

/-- The chunks of the present attempt discarded. -/
def State.dropChunks (s : State) : State :=
  (s.wr CEL.BOOT_MISSING 0xFFFF).modCellRole fun c => { c with chunks := [], bootEnd := none }

/-- A write of CEL_BOOT (R192, Table 5-1). -/
def State.celBootWrite (s : State) (v : Nat) : State :=
  if !s.cellKeyed then s.accessErr 0x5A 0x06C 4
  else
    let s := s.storeWord 0x5A 0x06C v
    if bitOf v 8 && s.life == 5 then s.dropChunks.setLife 1 else s

/-- BOOT_RETRY (R188). -/
def execBootRetry (s : State) : Host.Outcome State Fault Refusal :=
  s.live fun s => s.actWrite 0x5A 0x06C 0x100 fun s => s.celBootWrite (s.rawWord 0x5A 0x06C ||| 0x100)

/-- BOOT_END and every chunk held: LOADING goes on to VERIFY (Table 5-1). -/
def State.loadCheck (s : State) : State :=
  match s.cell.bootEnd with
  | some (n, _) =>
    let missing := n - (s.cell.chunks.filter fun c => decide (c.1 < n)).length
    let s := s.wr CEL.BOOT_MISSING (satNat 16 missing)
    if s.life = 2 ∧ missing = 0 then (s.setLife 3).modCellRole fun c => { c with verifyAt := s.mer.uptime } else s
  | none => s

/-- BOOT_DATA (R143): a chunk held from a hoist that passed TCRC is kept. -/
def execBootData (s : State) : Host.Outcome State Fault Refusal :=
  s.live fun s =>
    match s.takePen fun p => leAt p.data 0 1 == 0x10 with
    | some (p, s) =>
      if p.tcrcOk && (s.life == 1 || s.life == 2) then
        let s := s.modCellRole fun c =>
          { c with chunks := Sparse.insert c.chunks (leAt p.data 1 3) (sliceBytes p.data 4 (chunkSize (decide (p.data.length = 32)))) }
        (if s.life = 1 then s.setLife 2 else s).loadCheck
      else s
    | none => s

/-- BOOT_END (R188): chunk count and length of the image. -/
def execBootEnd (s : State) : Host.Outcome State Fault Refusal :=
  s.live fun s =>
    match s.takePen fun p => leAt p.data 0 1 == 0x11 with
    | some (p, s) =>
      if s.life = 1 ∨ s.life = 2 then
        (s.modCellRole fun c => { c with bootEnd := some (leAt p.data 4 4, leAt p.data 8 4) }).loadCheck
      else s
    | none => s

/-! Overvoltage and temperature. -/

/-- CNI_MONITOR_MEAN (R435, R204): the mean over the last 160 ns and, at the end of a 640 ns sub-window, its mean, in raw counts. -/
def execCniMonitorMean (mean : Nat) (sub : Option Nat) (s : State) : Host.Outcome State Fault Refusal :=
  s.live fun s =>
    if s.isCell then
      let s := s.modCellRole fun c => { c with ov2Run := if s.rd CEL.OV2_THR < mean then c.ov2Run + 1 else 0 }
      match sub with
      | some m =>
        if s.rd CEL.OV1_THR < m then (s.raiseIf (!s.on CEL.STAT_OV1) 0x5A 6).wr CEL.STAT_OV1 1
        else if m + s.rd CEL.OV1_HYST * 4096 < s.rd CEL.OV1_THR then s.wr CEL.STAT_OV1 0
        else s
      | none => s
    else s

/-- OV2 (R204): N consecutive means have exceeded the threshold. -/
def execOv2 (s : State) : Host.Outcome State Fault Refusal :=
  s.live fun s =>
    if s.isCell && !s.on CEL.STAT_OV2 && decide (s.rd CEL.OV2_N ≤ s.cell.ov2Run) then
      ((s.wr CEL.STAT_OV2 1).raise 0x5A 7).bypassOrder 0
    else s

/-- The reported temperature against OT_WARN (R205). -/
def State.otWarn (s : State) : State :=
  let t := s.cell.temp
  let lim := s.rdS CEL.TEMP_OT_WARN 0
  if lim ≤ t then (s.raiseIf (!s.on CEL.STAT_OT_WARN) 0x5A 8).wr CEL.STAT_OT_WARN 1
  else if t ≤ lim - 10 then s.wr CEL.STAT_OT_WARN 0
  else s

/-- The reported temperature against OT_TRIP (R205): a trip of all four channels, until it has fallen by 10 °C. -/
def State.otTripCheck (s : State) : State :=
  let t := s.cell.temp
  let lim := s.rdS CEL.TEMP_OT_TRIP 0
  if lim ≤ t then
    if s.on CEL.STAT_OT_TRIP then s
    else (((s.wr CEL.STAT_OT_TRIP 1).raise 0x5A 9).modEdge fun e => { e with otTrip := true }).tripMask 15
  else if t ≤ lim - 10 then (s.wr CEL.STAT_OT_TRIP 0).modEdge fun e => { e with otTrip := false }
  else s

/-- The temperature that TEMP reports (R203): the junction sensor, or CNI channel 1 through SCALE and OFS. -/
def State.reportedTemp (s : State) (junction : Int) : Int :=
  let t := if s.on CEL.TEMP_SRC then
      ((((numNat (s.rdA CNI.CH_RAW 0 1)).mulX (num32 (s.rd CEL.TEMP_SCALE))).round fmt32).addX (num32 (s.rd CEL.TEMP_OFS))).round fmt32
        |>.floor
    else junction
  satInt 8 t

/-- OT_WARN (R205): the temperature reported, in °C, floor. -/
def execOtWarn (temp : Int) (s : State) : Host.Outcome State Fault Refusal :=
  s.live fun s => if s.isCell then (s.modCellRole fun c => { c with temp := satInt 8 temp }).otWarn else s

/-- OT_TRIP (R205): the temperature reported, in °C, floor. -/
def execOtTrip (temp : Int) (s : State) : Host.Outcome State Fault Refusal :=
  s.live fun s => if s.isCell then (s.modCellRole fun c => { c with temp := satInt 8 temp }).otTripCheck else s

/-! The flag deadline. -/

/-- The flag of hoist `q` from direction `d` that is checked valid. -/
def State.flagFrom (s : State) (q d : Nat) : Option RxFlag := s.cell.flags.find? fun f => f.seq == q && f.dir == d && f.cmdOk

/-- The flag of hoist `q` from hub `u` that is checked valid. -/
def State.flagOf (s : State) (q u : Nat) : Option RxFlag := s.cell.flags.find? fun f => f.seq == q && f.unit == u && f.cmdOk

/-- The choice in a ring closed on one hub (R123): the flag and whether it is the alternate one. -/
def State.chooseSingle (s : State) (q : Nat) : Option (RxFlag × Bool) :=
  let p := s.primaryDir
  match s.flagFrom q p with
  | some f => some (f, false)
  | none => (s.flagFrom q (1 - p)).map fun f => (f, true)

/-- Hub `u`'s header of hoist `q` updates term_c (R500). -/
def State.termFrom (s : State) (q u : Nat) : State :=
  match s.cell.heads.find? fun h => h.seq == q && h.unit == u with
  | some h => if termNewer h.term s.cell.termC then s.modCellRole fun c => { c with termC := h.term } else s
  | none => s

/-- The choice in a dual-ended ring (R500), with term_c, run and MISMATCH. -/
def State.chooseDual (s : State) (q : Nat) : State × Option (RxFlag × Bool) :=
  let s := (s.termFrom q 0).termFrom q 1
  if s.cell.termC = 0 then (s, none)
  else
    let own := termOwner s.cell.termC
    let fh := (s.flagOf q own).filter fun f => f.term == s.cell.termC
    let fs := (s.flagOf q (1 - own)).filter fun f => f.term != 0
    let s := match fh, fs with
      | some a, some b =>
        if a.cmd = b.cmd then s.modCellRole fun c => { c with run := min (c.run + 1) 16 }
        else s.modCellRole fun c => { c with mismatch := true, run := 0 }
      | _, _ => s
    let stop := fun (f : Option RxFlag) => match f with | some f => bitsOf f.cmd 0 2 != 0 | none => false
    if stop fh then (s, fh.map fun f => (f, false))
    else if stop fs then (s, fs.map fun f => (f, true))
    else if fh.isSome then (s, fh.map fun f => (f, false))
    else if s.cell.run = 16 then (s, fs.map fun f => (f, true))
    else (s, none)

/-- The mode of the applying stride as it will stand once its flag has been counted (R206, R208). -/
def State.modeAhead (s : State) (cmd : Option Nat) : CellMode :=
  let t := match cmd with
    | some _ => (s.wr CEL.STAT_ORPHAN_BLOCK 0).wr CEL.STAT_NOFLAG_BLOCK 0
    | none => if 3 ≤ s.rd CEL.STAT_NOFLAG_CNT then s.wr CEL.STAT_NOFLAG_BLOCK 1 else s
  t.rowMode cmd

/-- The transitions of the stride that starts at `b` queued; a carrier that ends there is cut (R248). -/
def State.queueFor (s : State) (m : CellMode) (cmd : Option Nat) (b : Nat) : State :=
  (if s.on EDG.STAT_LC_RUN && m != .carrier then s.cutCarrier b else s).queueStride m (cmd.getD 0) b

/-- The choice of R123 or R500 for hoist `q`. -/
def State.chooseFlag (s : State) (q : Nat) : State × Option (RxFlag × Bool) :=
  if s.cell.dual then s.chooseDual q else (s, s.chooseSingle q)

/-- The split that waits is in force from this deadline (R675). -/
def State.takeSplit (s : State) : State :=
  let s := match s.cell.splitNew with
    | some v => s.modCellRole fun c => { c with split := v, splitNew := none }
    | none => s
  s.wr BNC.CELL_PRIMARY s.primaryDir

/-- The direction obeyed from now on, and DIR_ALT (R85, R123). -/
def State.obey (s : State) : Option (RxFlag × Bool) → State
  | some (f, alt) => (s.modCellRole fun c => { c with obeyDir := f.dir }).wrB BNC.CELL_DIR_ALT alt
  | none => s

/-- The hoist whose flag applies from the next boundary. -/
def State.flagSeq (s : State) : Nat := (s.mer.seq + 2 ^ 32 + 1 - max 1 (s.rd CEL.TIMING_LA)) % 2 ^ 32

/-- The flag selected for the stride that starts at `b`. -/
def State.selectFlag (s : State) (b : Nat) (pick : Option (RxFlag × Bool)) : State :=
  let cmd := if s.life = 4 then pick.map fun f => f.1.cmd else none
  let m := s.modeAhead cmd
  (s.queueFor m cmd b).modCellRole fun c => { c with sel := (⟨b, cmd, m⟩ :: c.sel).take 4 }

/-- FLAG_DEADLINE (R123, R500, R675): 1 µs before the next local boundary, the flag that the cell obeys in the stride that starts there. -/
def execFlagDeadline (s : State) : Host.Outcome State Fault Refusal :=
  s.live fun s =>
    if s.isCell then
      let b := s.mer.lastS + s.strideT
      let s := (s.advanceTo (b - us)).takeSplit
      let r := s.chooseFlag s.flagSeq
      (if s.life = 4 then r.1.obey r.2 else r.1).selectFlag b r.2
    else s

/-! The local boundary. -/

/-- The samples of a fast converter's channel. -/
def cnfWords (l : List CnfSamples) (c : Nat) : List Nat := ((l.find? fun x => x.ch == c).map (·.words)).getD []

/-- The samples of the last `n` × 10 ns before a boundary: those 4, 8, … ns before it (assumption 167). -/
def endSamples (l : List Nat) (n : Nat) : List Nat := l.drop (l.length - n * 10 / 4)

/-- The side of the range that samples left: that of the latest one over range, 0 for none. -/
def sampleSide (l : List Nat) : Nat :=
  match l.reverse.find? fun w => bitOf w 14 with
  | none => 0
  | some w => if bitOf w 13 then 1 else 2

/-- The raw result of CNF samples (R199, R425): their mean times 2¹⁰, to nearest, ties to even. -/
def State.cnfMean (s : State) (c : Nat) (l : List Nat) : Int :=
  divNearestEven ((l.map fun w => if s.onA CNF.CH_POLARITY 0 c then sext 14 w else (w % 16384 : Nat)).sum * 1024) (max 1 l.length)

/-- The raw result of CNI readings, one each 10 ns (R199, R431): their mean as a code, to nearest, ties to even. -/
def cniMean (l : List Int) : Int := divNearestEven l.sum (256 * max 1 l.length)

/-- The raw results of the path in use: over the stride and over the end window, each with the side of the range left; 0 none, 1 above, 2
below. A CNI window after one over range takes its side (R200). -/
def State.capResults (s : State) (x : CapInput) (words : List Nat) : (Int × Nat) × (Int × Nat) :=
  let n := s.rd CEL.CAP_END_WIN
  if s.on CEL.STAT_CAP_PATH then
    let e := endSamples words n
    ((s.cnfMean 0 words, sampleSide words), (s.cnfMean 0 e, sampleSide e))
  else
    ((cniMean x.cni, if x.cniSide = 0 then s.cell.capOver else x.cniSide), (cniMean (x.cni.drop (x.cni.length - n)), x.endSide))

/-- The uplink code of a raw result (R200); `ovr` 1 for a range left upward, 2 downward. -/
def State.capCode (s : State) (raw : Int) (ovr : Nat) : Nat :=
  if ovr = 1 then 0xFFFFFF
  else if ovr = 2 then 0
  else
    let fast := s.on CEL.STAT_CAP_PATH
    let gain := num32 (if fast then s.rd CEL.CAPF_GAIN else s.rd CEL.CAPC_GAIN)
    let ofs := if fast then s.rdS CEL.CAPF_OFS 0 else s.rdS CEL.CAPC_OFS 0
    match (gain.mulX ((numInt (raw - ofs)).round fmt32)).round fmt32 with
    | .inf neg => if neg then 0 else 0xFFFFFF
    | .nan => 0
    | x => min 0xFFFFFF x.nearest.toNat

/-- STATUS of the uplink (Tables 3-7, 5-3) at boundary `b`. -/
def State.ulStatus (s : State) (b : Nat) : Nat :=
  let c := s.cell
  s.appliedAt b + 4 * s.rd MER.STAT_TIME_OK + 8 * ofBool (c.lateAt.any fun t => decide (t < b))
    + 16 * ofBool (c.cmdInvAt.any fun t => decide (t < b)) + 32 * ofBool c.mismatch
    + 64 * s.rd CEL.STAT_OV1 + 128 * s.rd CEL.STAT_BYPASS_ORDERED + 256 * ofBool (s.latches != 0 || s.edge.otTrip)
    + 512 * ofBool (bitsOf s.latches 5 2 != 0) + 1024 * s.rd GDR.STAT_REFILL_REQ + 2048 * ofBool c.refilled
    + 4096 * ofBool (s.shootBefore 0 b || s.shootBefore 1 b) + 8192 * s.rd BNC.CELL_DIR_ALT + 16384 * ofBool c.survFired
    + 32768 * ofBool (s.line 0x5A)

/-- The uplink content latched at boundary `b` (R41, R103, R203). -/
def State.latchUplink (s : State) (b : Nat) (cap : CapInput) (words : List Nat) : State :=
  let c := s.cell
  let v := s.capResults cap words
  let ul := leBytes 3 (s.capCode v.1.1 v.1.2) ++ leBytes 3 (s.capCode v.2.1 v.2.2) ++ leBytes 1 (wrapTo 8 c.temp)
    ++ leBytes 1 (s.bsReport 0) ++ leBytes 1 (s.bsReport 1) ++ leBytes 2 (s.ulStatus b)
    ++ leBytes 1 (c.bootState + 4 * c.refillCh) ++ leBytes 4 (if c.refilled then c.refillOfs else 0xFFFFFFFF)
  let s := s.raiseIf (v.1.2 != 0 || v.2.2 != 0) 0x5A 12
  s.modCellRole fun c =>
    { c with
      ul := ul, lateAt := c.lateAt.filter fun t => decide (b ≤ t), cmdInvAt := c.cmdInvAt.filter fun t => decide (b ≤ t)
      mismatch := false, refilled := false, survFired := false, capOver := cap.cniSide }

/-- Orphan strides counted (R206, R209). -/
def State.countOrphan (s : State) : State :=
  let s := if s.life = 4 ∧ !s.cell.hdrSeen ∧ !s.headerDue s.mer.lastS then
      let n := min 15 (s.rd CEL.STAT_ORPH_CNT + 1)
      let s := s.wr CEL.STAT_ORPH_CNT n
      if n = 4 then (((s.wr CEL.STAT_ORPHAN_BLOCK 1).inc CEL.CNT_ORPHAN_BLK).raise 0x5A 3) else s
    else s
  s.modCellRole fun c => { c with hdrSeen := false }

/-- The applying stride's flag, or its absence, counted (R208, R201). -/
def State.countFlag (s : State) (cmd : Option Nat) : State :=
  if s.life ≠ 4 then s
  else
    match cmd with
    | none =>
      let n := min 15 (s.rd CEL.STAT_NOFLAG_CNT + 1)
      let s := ((s.wr CEL.STAT_NOFLAG_CNT n).inc CEL.CNT_NO_FLAG).modCellRole fun c => { c with recRun := 0 }
      if n = 4 then ((s.wr CEL.STAT_NOFLAG_BLOCK 1).inc CEL.CNT_ORPHAN_BLK).raise 0x5A 5 else s
    | some c =>
      let was := s.on CEL.STAT_ORPHAN_BLOCK || s.on CEL.STAT_NOFLAG_BLOCK
      let s := ((s.wr CEL.STAT_NOFLAG_CNT 0).wr CEL.STAT_ORPHAN_BLOCK 0).wr CEL.STAT_NOFLAG_BLOCK 0
      let s := s.modCellRole fun x => { x with capFast := bitOf c 49 }
      let s := if was then (s.wr CEL.STAT_RECOVERY 1).modCellRole fun x => { x with recRun := 0 } else s
      if s.on CEL.STAT_RECOVERY then
        let run := if s.on MER.STAT_TIME_OK then s.cell.recRun + 1 else 0
        let s := s.modCellRole fun x => { x with recRun := run }
        if 16 ≤ run then s.wr CEL.STAT_RECOVERY 0 else s
      else s

/-- The capacitor path of the stride that begins (R201, R202). -/
def State.choosePath (s : State) (m : CellMode) : State :=
  let l := s.life
  let fast := s.on CEL.CAP_FORCE_FAST || s.cell.capFast
    || (s.on CEL.CAP_AUTO_FAST && (l == 1 || l == 2 || l == 3 || l == 5 || m == .carrier || s.on CEL.STAT_RECOVERY))
  if fast = s.on CEL.STAT_CAP_PATH then s else (s.wrB CEL.STAT_CAP_PATH fast).raise 0x5A 11

/-- The stride that begins at boundary `b` (R193, R198, R222, R245, R248). -/
def State.applyStride (s : State) (b : Nat) : State :=
  let x := (s.cell.sel.find? fun f => f.start == b).getD ⟨b, none, .keep⟩
  let s := s.modCellRole fun c => { c with sel := c.sel.filter fun f => decide (b < f.start) }
  let s := s.countFlag x.cmd
  let s := if s.life = 4 && s.cellKeyed && bitOf (x.cmd.getD 0) 48 then s.bypassOrder 0 else s
  let m := s.rowMode x.cmd
  let stop := s.on EDG.STAT_LC_RUN && m != .carrier
  let s := if stop then s.cutCarrier b else s
  let s := if m != x.mode then (s.dropFrom b).queueStride m (x.cmd.getD 0) b else s
  let s := if stop then s.lcStop else if m = .carrier && !s.on EDG.STAT_LC_RUN then s.lcStart b else s
  let trim := s.rd EDG.TRIM_TRIM_GF0 + 2 ^ 8 * s.rd EDG.TRIM_TRIM_GL0 + 2 ^ 16 * s.rd EDG.TRIM_TRIM_GF1 + 2 ^ 24 * s.rd EDG.TRIM_TRIM_GL1
  let s := s.modEdge fun e => { e with block := m == .block || (m == .keep && e.block), trim := trim }
  (s.modGate fun g => { g with refillDone := false }).choosePath m

end Sys2Proof.Machine
end

