-- ==== Sys2Proof/Machine/Traverse.lean ====
section
/-! DEFINITION. The Traverse (R369 to R394): move queues, planning, coordinated moves, gearing, the reaction to feedback loss and the published
signals. A binary64 number of the profile is held as its bit pattern. -/

namespace Sys2Proof.Machine

/-- The point of an axis's profile to be published next. -/
def AxisState.pt (x : AxisState) : Pt := ⟨num64 x.x, num64 x.v, num64 x.a⟩

/-- The profile given a point. -/
def AxisState.setPt (x : AxisState) (p : Pt) : AxisState := { x with x := bits64 p.x, v := bits64 p.v, a := bits64 p.a }

/-- A binary32 register as a number. -/
def State.num (s : State) (f : RegField) (a : Nat) : Num := num32 (s.rdI f a)

/-- A limit that a path can be planned with. -/
def goodLim (x : Num) : Bool := x.isFinite && Num.zero.lt x

/-- The velocity limit that a move's V gives: 0 or above VMAX selects VMAX. -/
def State.vOf (s : State) (a v : Nat) : Num :=
  let top := s.num AXS.VMAX a
  if !goodLim (num32 v) || top.lt (num32 v) then top else num32 v

/-- The velocity limit of a move. -/
def State.vLim (s : State) (a : Nat) (m : Move) : Num := s.vOf a m.v

/-- The limits in use of an axis for a velocity limit. -/
def State.lims (s : State) (a : Nat) (v : Num) : Lims :=
  ⟨v, s.num AXS.AMAX a, num32 (s.axis a).dUse, num32 (s.axis a).jUse⟩

/-- The limits can be planned with. -/
def Lims.ok (l : Lims) : Bool := goodLim l.v && goodLim l.a && goodLim l.d && goodLim l.j

/-- The depth of the queue, and the profile's state, in AXS_STAT. -/
def State.showAxis (s : State) (a : Nat) : State :=
  let x := s.axis a
  let prof := if s.rdI AXS.STAT_GEAR a ≠ 0 then 3 else match x.goal with
    | .hold => 0
    | .veloc _ _ => 2
    | _ => 1
  (s.wrI AXS.STAT_QDEPTH a x.queue.length).wrI AXS.STAT_PROFILE a prof

/-- MOVE_REFUSED (R373). -/
def State.refuseMove (s : State) (a : Nat) : State := (s.incI AXS.CNT2_REFUSED a).raise (axisPage a) 2

/-- An axis that can take no move (R373). -/
def State.noMoves (s : State) (a : Nat) : Bool :=
  let k := s.kind a
  let bad := fun (f : RegField) => !(s.num f a).isFinite || (s.num f a).isZero
  k == 0 || k == 2 || bad AXS.VMAX || bad AXS.AMAX || bad AXS.DMAX || bad AXS.JMAX

/-- The staged move (R378). -/
def State.staged (s : State) (a : Nat) : Move :=
  { target := s.rdI AXS.MV_TGT_LO a + 2 ^ 32 * s.rdI AXS.MV_TGT_HI a
    v := s.rdI AXS.MV_V a
    mode := s.rdI AXS.MV_CTL_MODE a
    blend := s.onI AXS.MV_CTL_BLEND a
    tag := s.rdI AXS.MV_CTL_SYNC a
    n := if s.rdI AXS.MV_CTL_SYNC_N a = 0 then 16 else s.rdI AXS.MV_CTL_SYNC_N a }

/-- PUSH (R378, R379). -/
def State.pushMove (s : State) (a : Nat) : State :=
  let m := s.staged a
  if s.noMoves a || s.rdI AXS.STAT_GEAR a != 0 || m.mode == 3 then s.refuseMove a
  else if (s.axis a).queue.length < 16 ∧ (s.axis a).held = [] then (s.modAxis a fun x => { x with queue := x.queue ++ [m] }).showAxis a
  else (s.modAxis a fun x => { x with held := x.held ++ [m] }).incI AXS.CNT_MOVE_WAIT a

/-- REPLACE (R378). A coordinated move starts only from rest (R383), so an axis in motion is stopped for it (assumption 183). -/
def State.replaceMove (s : State) (a : Nat) : State :=
  let m := s.staged a
  if s.noMoves a || s.rdI AXS.STAT_GEAR a != 0 || m.mode == 3 then s.refuseMove a
  else
    let wait := m.tag != 0 && m.mode != 2 && !((s.axis a).pt.v.isZero && (s.axis a).pt.a.isZero)
    (s.modAxis a fun x => { x with queue := [m], goal := if wait then .stop else .hold, ended := false }).showAxis a

/-- STOP. -/
def State.stopMove (s : State) (a : Nat) : State :=
  (s.modAxis a fun x => { x with queue := [], goal := .stop, ended := false }).showAxis a

/-- The profile position of the law's master and its velocity at the boundary (R385): actual, or of its profile, as published or (`next`) at the
point to be published now. -/
def State.master (s : State) (a : Nat) (next : Bool) (act : Nat → Int) : Num × Num :=
  let m := s.rdI AXS.GEAR_MASTER a
  if s.onI AXS.GEAR_SRC a then (numInt (act m), s.speed m)
  else if next then ((s.axis m).pt.x, (s.axis m).pt.v)
  else (num64 (s.axis m).pubX, num64 (s.axis m).pubV)

/-- The actual unwrapped position that an axis latches at instant `k`: on SSI with EXTRAP, carried on from the last good read (R409). -/
def State.actAt (s : State) (k a : Nat) : Int :=
  let x := s.axis a
  let f := s.rdI AXS.CFG_FBK a
  if s.kind a = 1 ∧ s.rdI FBK.CFG_TYPE f = 3 ∧ s.onI FBK.SSI_EXTRAP f ∧ x.ssiRead then
    x.unw + ((s.speed a).mul (secsOf ((k : Int) - x.ssiAt))).nearest
  else x.unw

/-- GEAR_IN (R386, R387). -/
def State.gearIn (s : State) (a : Nat) : State :=
  let m := s.rdI AXS.GEAR_MASTER a
  let law := s.gearSpeed a (s.master a false fun b => (s.axis b).unw).2
  let room := (s.num AXS.VMAX a).sub law.abs
  if s.noMoves a || s.kind m == 0 || m == a || (!s.onI AXS.GEAR_SRC a && s.rdI AXS.STAT_GEAR m != 0) || !goodLim room then s.refuseMove a
  else
    ((s.modAxis a fun x => { x with queue := [], goal := .hold, ended := false, masterLost := false }).wrI AXS.STAT_GEAR a 1).showAxis a

/-- GEAR_OUT (R390). -/
def State.gearOut (s : State) (a : Nat) : State :=
  if s.rdI AXS.STAT_GEAR a = 0 then s else (s.wrI AXS.STAT_GEAR a 0).stopMove a

/-- The feedback of a mechanical axis is neither STALE nor LOST. -/
def State.fbOk (s : State) (a : Nat) : Bool := !s.onI AXS.VEL_STAT_STALE a && s.rdI FBK.STAT_STATE (s.rdI AXS.CFG_FBK a) == 0

/-- FBL_CLR (Table 10-4, R394). -/
def State.fblClr (s : State) (a : Nat) : State :=
  if s.rdI AXS.STAT_FBL a < 2 then s
  else if !s.fbOk a then s.accessErr (axisPage a) 0x048 4
  else
    let s := (s.modAxis a fun x =>
      { (x.setPt ⟨numInt x.unw, s.speed a, .zero⟩) with goal := .stop, ended := false, iCap := s.rdI AXS.I_NOM a, loopOn := true })
    (s.wrI AXS.STAT_FBL a 0).showAxis a

/-- A write of AXS_CTL (Table 10-3, R378). -/
def State.axsCtlWrite (s : State) (a v : Nat) : State :=
  let s := s.noteErrors (axisPage a) 0x048 v
  if 1 < popCount v 3 then s.accessErr (axisPage a) 0x048 4
  else
    let s := if bitOf v 0 then s.pushMove a else s
    let s := if bitOf v 1 then s.replaceMove a else s
    let s := if bitOf v 2 then s.stopMove a else s
    let s := if bitOf v 3 then (s.modAxis a fun x => { x with queue := [] }).showAxis a else s
    let s := if bitOf v 4 then s.gearIn a else s
    let s := if bitOf v 5 then s.gearOut a else s
    if bitOf v 6 then s.fblClr a else s

/-- A write of AXS_CTL by its row. -/
def State.axsCtl (s : State) (a v : Nat) : State := s.busWrite (axisPage (a % 16)) 0x048 v fun s => s.axsCtlWrite (a % 16) v

/-- PUSH (R378). -/
def execPush (axis : Nat) (s : State) : Host.Outcome State Fault Refusal := s.live fun s => s.axsCtl axis 1

/-- REPLACE (R378). -/
def execReplace (axis : Nat) (s : State) : Host.Outcome State Fault Refusal := s.live fun s => s.axsCtl axis 2

/-- STOP (R378). -/
def execStop (axis : Nat) (s : State) : Host.Outcome State Fault Refusal := s.live fun s => s.axsCtl axis 4

/-- FLUSH (R378). -/
def execFlush (axis : Nat) (s : State) : Host.Outcome State Fault Refusal := s.live fun s => s.axsCtl axis 8

/-- GEAR_IN (R387). -/
def execGearIn (axis : Nat) (s : State) : Host.Outcome State Fault Refusal := s.live fun s => s.axsCtl axis 16

/-- GEAR_OUT (R390). -/
def execGearOut (axis : Nat) (s : State) : Host.Outcome State Fault Refusal := s.live fun s => s.axsCtl axis 32

/-- FBL_CLR (R394). -/
def execFblClr (axis : Nat) (s : State) : Host.Outcome State Fault Refusal := s.live fun s => s.axsCtl axis 64

/-- PUSH_RESUME (R379): a held PUSH is performed when an entry has freed. -/
def execPushResume (axis : Nat) (s : State) : Host.Outcome State Fault Refusal :=
  s.live fun s =>
    match (s.axis axis).held with
    | [] => s
    | m :: rest =>
      if (s.axis axis).queue.length < 16 then (s.modAxis axis fun x => { x with queue := x.queue ++ [m], held := rest }).showAxis axis else s

/-- A write of AXS_GEAR, NUM, DEN or OFS: a LOCKED slave whose law moves by it returns to CATCHING. -/
def State.gearWrite (s : State) (a ofs v : Nat) : State :=
  let law := fun (t : State) => t.gearLaw a (t.master a false fun b => (t.axis b).unw).1
  let t := s.storeWord (axisPage a) ofs v
  if s.rdI AXS.STAT_GEAR a = 2 ∧ !(law s).eqv (law t) then t.wrI AXS.STAT_GEAR a 1 else t

/-! Speed and stale feedback (R419 to R421). -/

/-- Edges kept for the estimate: those in the window before the last edge, and one before them. -/
def keptEdges (win : Nat) (es : List Nat) : List Nat :=
  match es with
  | [] => []
  | t :: _ =>
    let inWin := es.takeWhile fun e => decide (t < e + win)
    inWin ++ (es.drop inWin.length).take 1

/-- The speed of an ABZ or Hall axis from the timestamps of its edges at boundary `k` (R419). -/
def State.edgeSpeed (s : State) (a k : Nat) : State :=
  let x := s.axis a
  let f := s.rdI AXS.CFG_FBK a
  let win := s.rdI FBK.VEL_WIN f * us
  let rest := fun (s : State) (drop : Bool) =>
    ((s.modAxis a fun x => { x with unsettled := true, nDir := if drop then 0 else x.nDir, edges := if drop then [] else x.edges }).wrI
      AXS.VEL_MEAS_V a 0).wrI AXS.VEL_STAT_VEL_UNSETTLED a 1
  match x.edges with
  | [] => rest s false
  | t :: _ =>
    if x.nDir < 2 then rest s false
    else
      let tau := k - t
      if s.rdI FBK.VEL_T_ZERO f * 10 * us ≤ tau then rest s true
      else
        let kept := keptEdges win x.edges
        let inWin := kept.filter fun e => decide (t < e + win)
        let es := if inWin.length = 1 then kept else inWin
        let first := es.getLastD t
        let vm := (numNat (es.length - 1)).div (secsOf (t - first : Nat))
        let v := vm.min (Num.one.div (secsOf (tau : Nat)))
        let v := if s.onI AXS.VEL_STAT_DIR a then v.neg else v
        ((s.modAxis a fun x => { x with unsettled := false, edges := kept }).wrI AXS.VEL_MEAS_V a (bits32 v)).wrI AXS.VEL_STAT_VEL_UNSETTLED a 0

/-- A difference of raw SSI positions, reduced (R408). -/
def ssiDiff (bits : Nat) (p q : Nat) : Int := sext bits (wrapTo bits ((p : Int) - q))

/-- The difference over a list of raw positions, newest first, each step reduced. -/
def ssiSpan (bits : Nat) : List (Nat × Nat) → Int
  | a :: b :: rest => ssiDiff bits a.2 b.2 + ssiSpan bits (b :: rest)
  | _ => 0

/-- The speed of an SSI axis from its last good reads (R419). -/
def State.ssiSpeed (s : State) (a : Nat) : State :=
  let f := s.rdI AXS.CFG_FBK a
  let g := (s.fbk.getD f emptyFbk).goods.take (s.rdI FBK.SSI_VEL_N f + 1)
  match g, g.getLast? with
  | (t1, _) :: _ :: _, some (t0, _) =>
    let v := (numInt (ssiSpan (s.rdI FBK.SSI_POS_BITS f) g)).div (secsOf ((t1 : Int) - t0))
    (s.wrI AXS.VEL_MEAS_V a (bits32 v)).wrI AXS.VEL_STAT_VEL_UNSETTLED a 0
  | _, _ => (s.wrI AXS.VEL_MEAS_V a 0).wrI AXS.VEL_STAT_VEL_UNSETTLED a 1

/-- STALE of an ABZ or Hall axis at boundary `k` (R421); one that ends and is declared at the same boundary is declared anew (R423). -/
def State.staleCheck (s : State) (a k : Nat) : State :=
  let f := s.rdI AXS.CFG_FBK a
  let last := (s.axis a).lastEdge
  let quiet := match last with
    | none => true
    | some t => decide (t + s.rdI FBK.STALE_T_STALE f * us ≤ k)
  let g := s.sig (s.rdI FBK.ISIG f)
  let current := s.rdI FBK.ISIG f == 0xFFFF || !g.usable || (s.num FBK.IMIN f).lt (num32 g.bits).abs
  let since := match last with
    | none => false
    | some t => decide (k < t + s.strideT)
  let was := s.onI AXS.VEL_STAT_STALE a
  let ends := was && since
  let now := was && !ends || quiet && current && (s.num FBK.VMIN f).lt (num64 (s.axis a).v).abs
  let s := if ends && s.rdI FBK.STAT_STATE f == 0 then s.modAxis a fun x => { x with healed := true } else s
  (s.raiseIf (now && (!was || ends)) (axisPage a) 21).wrI AXS.VEL_STAT_STALE a (ofBool now)

/-- What a mechanical axis measures at boundary `k`. -/
def State.measureAxis (s : State) (a k : Nat) : State :=
  if s.rdI FBK.CFG_TYPE (s.rdI AXS.CFG_FBK a) = 3 then s.ssiSpeed a else (s.edgeSpeed a k).staleCheck a k

/-! Feedback loss (R391 to R393). -/

/-- Table 10-4 at a planning step: LOST and STALE as declared now; a declaration after the end of one since the last step is a new one (R423).
`v0` is the speed measured at the step before (R392). -/
def State.fblStep (s : State) (a k v0 : Nat) : State :=
  let lost := s.rdI FBK.STAT_STATE (s.rdI AXS.CFG_FBK a) == 2
  let bad := lost || s.onI AXS.VEL_STAT_STALE a
  let t := s.strideSecs
  let open_ := fun (s : State) =>
    ((((s.wrI AXS.STAT_FBL a 2).wrI AXS.STAT_GEAR a 0).modAxis a fun x => { x with loopOn := false }).stopMove a).raise (axisPage a) 12
  let fall := fun (s : State) =>
    let r := s.num AXS.I_RAMP a
    let c := if r.isZero then .zero else (num32 (s.axis a).iCap).sub (r.mul t)
    if Num.zero.lt c then s.modAxis a fun x => { x with iCap := bits32 c }
    else (s.modAxis a fun x => { x with iCap := 0 }).wrI AXS.STAT_FBL a 3
  let nominal := fun (s : State) => s.modAxis a fun x => { x with iCap := s.rdI AXS.I_NOM a }
  let declare := fun (s : State) =>
    let s := (s.incI AXS.CNT2_FBL a).raise (axisPage a) (if lost then 11 else 10)
    let s := (s.modAxis a fun x =>
      { x with estX := bits64 (numInt (s.actAt k a)), estV0 := v0, estSp := x.pubV, estN := 0 }).wrI AXS.STAT_FBL a 1
    if s.rdI AXS.FBL_STALE_HOLD a = 0 then fall (open_ s) else nominal s
  let healed := (s.axis a).healed
  let s := s.modAxis a fun x => { x with healed := false }
  match s.rdI AXS.STAT_FBL a with
  | 0 => if bad then declare s else nominal s
  | 1 =>
    if !bad then nominal (s.wrI AXS.STAT_FBL a 0)
    else if healed then declare s
    else
      let n := (s.axis a).estN + 1
      let s := s.modAxis a fun x =>
        { x with estN := n, estX := bits64 ((num64 x.estX).add (((num32 x.estV0).add ((num64 x.v).sub (num64 x.estSp))).mul t)) }
      if s.rdI AXS.FBL_STALE_HOLD a ≤ n then fall (open_ s) else nominal s
  | 2 => fall s
  | _ => s

/-! Published signals (R369). -/

/-- A position reduced modulo the wrap of the axis. -/
def modPos (m : Nat) (x : Num) : Num := x.sub ((numNat m).mul (numInt (x.div (numNat m)).floor))

/-- A difference reduced into −m/2 to m/2. -/
def modErr (m : Nat) (x : Num) : Num := x.sub ((numNat m).mul (numInt ((x.div (numNat m)).add half).floor))

/-- The signals and registers of an axis at boundary `k` (Table 10-2). -/
def State.publish (s : State) (a k : Nat) : State :=
  let x := s.axis a
  let kd := s.kind a
  let wrap := s.onI AXS.CFG_WRAP_EN a && kd != 3
  let m := s.axisMod a
  let p := x.pt
  let ok := s.actValid a
  let est := s.rdI AXS.STAT_FBL a == 1
  let actX := if est then num64 x.estX else numInt (s.actAt k a)
  let actV := if est then (num32 x.estV0).add (p.v.sub (num64 x.estSp)) else s.speed a
  let put := fun (s : State) (f : RegField) (v : Num) (valid : Bool) => s.hwSig (s.rdI f a) (bits32 v) valid
  let s := if kd = 2 then s else
    put (put (put s AXS.SIG_SP_SP_POS (if wrap then modPos m p.x else p.x) true) AXS.SIG_SP_SP_VEL p.v true) AXS.SIG_SP2_SP_ACC p.a true
  let s := if kd = 3 then s else
    put (put s AXS.SIG_ACT_ACT_POS (if est then (if wrap then modPos m actX else actX) else modPos m actX) ok) AXS.SIG_ACT_ACT_VEL actV ok
  let s := if kd = 1 then
      let e := p.x.sub actX
      let s := put s AXS.SIG_SP2_ERR (if wrap then modErr m e else e) ok
      (s.hwSig (s.rdI AXS.SIG_CTL_I_CAP a) x.iCap true).hwSig (s.rdI AXS.SIG_CTL_LOOP a) (bits32 (numNat (ofBool x.loopOn))) true
    else s
  if kd = 2 then s
  else
    let s := ((s.wrI AXS.POS_LO a x.x).wrI AXS.POS_HI a (x.x / 2 ^ 32)).wrI AXS.VEL a (bits32 p.v)
    ((s.wrI AXS.ACC a (bits32 p.a)).wrI AXS.STAT_DIR a (ofBool p.v.isNeg)).modAxis a fun x => { x with pubX := x.x, pubV := x.v }

/-! Planning (R370 to R382). -/

/-- The unwrapped target of an absolute move on a wrapping axis (R375). -/
def State.wrapTarget (s : State) (a : Nat) (t : Num) : Num :=
  let m := numNat (s.axisMod a)
  let p := (s.axis a).pt
  if s.onI AXS.CFG_POLICY a then
    let stop := p.x.add (stopDist (s.lims a (s.num AXS.VMAX a)) p.v p.a)
    let q := (stop.sub t).div m
    t.add (m.mul (numInt (if p.travel < 0 then q.floor else q.ceil)))
  else t.add (m.mul (numInt (((p.x.sub t).div m).add half).floor))

/-- The unwrapped target of a move that starts now (R372, R375). -/
def State.moveTarget (s : State) (a : Nat) (m : Move) : Num :=
  let t := num64 m.target
  if m.mode = 1 then (s.axis a).pt.x.add t
  else if s.onI AXS.CFG_WRAP_EN a && s.kind a != 3 then s.wrapTarget a t else t

/-- A move starts: the limits of its registers are in use. -/
def State.startMove (s : State) (a : Nat) (m : Move) : State :=
  let s := s.modAxis a fun x =>
    { x with queue := x.queue.drop 1, dUse := s.rdI AXS.DMAX a, jUse := s.rdI AXS.JMAX a, overs := false, starved := false, ended := false }
  let g := if m.mode = 2 then AxGoal.veloc m.target m else .target (bits64 (s.moveTarget a m)) m
  s.modAxis a fun x => { x with goal := g }

/-- The running move has ended (R380): the next queued move starts, or the axis holds and reports it. -/
def State.nextMove (s : State) (a : Nat) : State :=
  let x := s.axis a
  let s := if x.ended then
      let s := s.modAxis a fun x => { x with goal := .hold, ended := false }
      if x.queue.isEmpty && x.goal != .stop then
        ((s.raise (axisPage a) 0).raise (axisPage a) 1).noteEvent (0x40 + a) s.mer.mer
      else s
    else s
  let x := s.axis a
  match x.goal, x.queue with
  | .hold, m :: _ => if m.tag ≠ 0 ∧ m.mode ≠ 2 then s else s.startMove a m
  | _, _ => s

/-- The joint velocity of a blended move (R381; under the direction-preserving policy of R375 the next move always goes on in the same
direction), and whether it is 0 only for want of a queued move (R382). -/
def State.joint (s : State) (a : Nat) (xt : Num) (m : Move) : Num × Bool :=
  let dir := xt.lt (s.axis a).pt.x
  if !m.blend || m.tag != 0 then (.zero, false)
  else
    match (s.axis a).queue with
    | [] => (.zero, true)
    | n :: _ =>
      let t := num64 n.target
      let goes := if n.mode = 1 ∨ n.mode = 2 then t
        else if s.onI AXS.CFG_WRAP_EN a && s.kind a != 3 then
          (if s.onI AXS.CFG_POLICY a then (if dir then Num.one.neg else .one) else modErr (s.axisMod a) (t.sub xt))
        else t.sub xt
      if n.tag ≠ 0 ∨ goes.isZero ∨ goes.isNeg ≠ dir then (.zero, false)
      else
        let v := (s.vLim a m).min (s.vLim a n)
        (if dir then v.neg else v, false)

/-- D or J in use for a path to a target (R376): the register's value `new`, unless it would overshoot where the one in use does not. -/
def keepLim (ovr : Num → Bool) (use new : Num) : Num := if !use.eqv new && ovr new && goodLim use && !ovr use then use else new

/-- The deceleration and the jerk in use at this step, and whether a register's value is deferred. -/
def deferLims (l : Lims) (p : Pt) (xt ve dReg jReg dAbs : Num) : Lims × Bool :=
  let d := keepLim (fun d => overshoots { l with d := d } p xt ve) l.d dReg
  let d := if d.eqv dReg then d else d.min (dAbs.max dReg)
  let j := keepLim (fun j => overshoots { l with d := d, j := j } p xt ve) l.j jReg
  ({ l with d := d, j := j }, !d.eqv dReg || !j.eqv jReg)

/-- LIMIT_DEFERRED shown, and counted and raised when it comes (R376). -/
def State.showDeferred (s : State) (a : Nat) (on : Bool) : State :=
  let s := if on && !s.onI AXS.STAT_LIMIT_DEFERRED a then (s.incI AXS.CNT2_LIMIT_DEFERRED a).raise (axisPage a) 4 else s
  s.wrI AXS.STAT_LIMIT_DEFERRED a (ofBool on)

/-- REVERSING, OVERSHOOT_PLANNED and VEL_ABOVE of a path (R374, R377). -/
def State.showPath (s : State) (a : Nat) (l : Lims) (p : Pt) (path : List Seg) (ovr : Bool) : State :=
  let s := s.raiseIf (ovr && !(s.axis a).overs) (axisPage a) 3
  let s := s.modAxis a fun x => { x with overs := x.overs || ovr }
  ((s.wrI AXS.STAT_REVERSING a (ofBool (reverses p path))).wrI AXS.STAT_OVERSHOOT_PLANNED a (ofBool ovr)).wrI
    AXS.STAT_VEL_ABOVE a (ofBool (l.v.lt p.v.abs))

/-- The profile carried over one stride along a path that ends in `fin`. -/
def State.followPath (s : State) (a : Nat) (path : List Seg) (fin : Pt) (moves : Bool) : State :=
  let p := (s.axis a).pt
  let t := s.strideSecs
  let (q, past) := p.at path t
  let fin := if moves then { fin with x := q.x } else fin
  if past then
    let r := t.sub (pathTime path)
    s.modAxis a fun x => { (x.setPt ((if moves then { fin with x := (p.follow path).x } else fin).run .zero r)) with ended := true }
  else s.modAxis a fun x => x.setPt q

/-- One planning step toward a target. -/
def State.planTarget (s : State) (a : Nat) (xt : Num) (m : Move) : State :=
  let p := (s.axis a).pt
  let (ve, starved) := s.joint a xt m
  let (l, deferred) := deferLims (s.lims a (s.vLim a m)) p xt ve (s.num AXS.DMAX a) (s.num AXS.JMAX a) (s.num AXS.DABS a)
  let s := if starved && !(s.axis a).starved then (s.incI AXS.CNT_STARVED a).raise (axisPage a) 5 else s
  let s := (s.modAxis a fun x => { x with dUse := bits32 l.d, jUse := bits32 l.j, starved := x.starved || starved }).showDeferred a deferred
  let path := posPath l p xt ve
  (s.showPath a l p path (overshoots l p xt ve)).followPath a path ⟨xt, ve, .zero⟩ false

/-- One planning step toward a velocity, or of a stop. -/
def State.planVel (s : State) (a : Nat) (v vt : Num) : State :=
  let s := (s.modAxis a fun x => { x with dUse := s.rdI AXS.DMAX a, jUse := s.rdI AXS.JMAX a }).showDeferred a false
  let p := (s.axis a).pt
  let l := s.lims a v
  let vt := (vt.min v).max v.neg
  let path := velPath l p.v p.a vt
  (s.showPath a l p path false).followPath a path ⟨p.x, vt, .zero⟩ true

/-- The profile carried on at its velocity. -/
def State.coast (s : State) (a : Nat) : State :=
  let t := s.strideSecs
  let s := s.modAxis a fun x => x.setPt ({ x.pt with a := .zero }.run .zero t)
  let s := (s.wrI AXS.STAT_REVERSING a 0).wrI AXS.STAT_OVERSHOOT_PLANNED a 0
  (s.showDeferred a false).wrI AXS.STAT_VEL_ABOVE a (ofBool ((s.num AXS.VMAX a).lt (s.axis a).pt.v.abs))

/-- One planning step of an axis that is not a slave and not in a coordinated move (R370, R371). -/
def State.planAxis (s : State) (a : Nat) : State :=
  let s := s.nextMove a
  let x := s.axis a
  let good := goodLim (s.num AXS.VMAX a) && goodLim (s.num AXS.AMAX a) && goodLim (s.num AXS.DMAX a) && goodLim (s.num AXS.JMAX a)
  let s := match x.goal with
    | .hold => s.coast a
    | .coord _ _ _ _ => s
    | .stop => if good then s.planVel a (s.num AXS.VMAX a) .zero else s.coast a
    | .target xt m => if good then s.planTarget a (num64 xt) m else s.coast a
    | .veloc vt m => if good then s.planVel a (s.vLim a m) (num64 vt) else s.coast a
  s.showAxis a

/-! Coordinated moves (R383, R384). -/

/-- An axis at rest with no move running. -/
def AxisState.rests (x : AxisState) : Bool := x.pt.v.isZero && x.pt.a.isZero && (x.goal == .hold || x.ended)

/-- The axes whose queues have a coordinated move with tag `g` at their heads. -/
def State.heads (s : State) (g : Nat) : List Nat :=
  (List.range 16).filter fun a => (s.axis a).queue.head?.any fun m => m.tag == g && m.mode != 2

/-- The start of the coordinated moves with a tag, or their refusal (R383). -/
def State.syncStart (s : State) (g : Nat) : State :=
  let hs := s.heads g
  let n := fun (a : Nat) => ((s.axis a).queue.head?.map (·.n)).getD 0
  match hs with
  | [] => s
  | h :: _ =>
    if hs.any (fun a => n a != n h) || decide (n h < hs.length) then
      hs.foldl (fun s a => ((s.modAxis a fun x => { x with queue := x.queue.drop 1 }).showAxis a).refuseMove a) s
    else if hs.length = n h ∧ hs.all (fun a => (s.axis a).rests) then
      hs.foldl (fun s a =>
        match (s.axis a).queue with
        | [] => s
        | m :: _ =>
          let xt := s.moveTarget a m
          let x0 := (s.axis a).x
          let s := s.startMove a { m with mode := 0 }
          (s.modAxis a fun x => { x with goal := .coord g x0 (bits64 (xt.sub (num64 x0))) m.v, sx := 0, sv := 0, sa := 0, sD := 0, sJ := 0 }).raise
            (axisPage a) 6) s
    else s

/-- The share of an axis in a coordinated move: start and distance. -/
def AxisState.share (x : AxisState) (g : Nat) : Option (Num × Num) :=
  match x.goal with
  | .coord t x0 d _ => if t = g then some (num64 x0, num64 d) else none
  | _ => none

/-- The least of a limit over a group, in units of the path parameter. -/
def leastOver (ds : List (Nat × Num)) (lim : Nat → Num) : Num :=
  (ds.filter fun x => !x.2.isZero).foldl (fun l x => l.min ((lim x.1).div x.2.abs)) (.inf false)

/-- The velocity limit of an axis in its coordinated move. -/
def State.coordV (s : State) (a : Nat) : Num :=
  match (s.axis a).goal with
  | .coord _ _ _ v => s.vOf a v
  | _ => s.num AXS.VMAX a

/-- One planning step of a coordinated move (R384). -/
def State.planGroup (s : State) (g : Nat) : State :=
  let ms := (List.range 16).filter fun a => ((s.axis a).share g).isSome && !(s.axis a).ended
  let sh := fun (a : Nat) => ((s.axis a).share g).getD (.zero, .zero)
  match ms with
  | [] => s
  | h :: _ =>
    let ds := ms.map fun a => (a, (sh a).2)
    let x := s.axis h
    let p : Pt := ⟨num64 x.sx, num64 x.sv, num64 x.sa⟩
    let dReg := leastOver ds (s.num AXS.DMAX)
    let jReg := leastOver ds (s.num AXS.JMAX)
    let use := fun (b : Nat) (r : Num) => (if b = 0 then r else num64 b)
    let l0 : Lims := ⟨leastOver ds s.coordV, leastOver ds (s.num AXS.AMAX), use x.sD dReg, use x.sJ jReg⟩
    let set := fun (s : State) (q : Pt) (done : Bool) (l : Lims) => ms.foldl (fun s a =>
      let (x0, d) := sh a
      (s.modAxis a fun x =>
        { (x.setPt ⟨x0.add (d.mul q.x), d.mul q.v, d.mul q.a⟩) with
          sx := bits64 q.x, sv := bits64 q.v, sa := bits64 q.a, sD := bits64 l.d, sJ := bits64 l.j, ended := done }).showAxis a) s
    if ds.all fun x => x.2.isZero then set s ⟨.one, .zero, .zero⟩ true l0
    else if !l0.ok then set s ({ p with a := .zero }.run .zero s.strideSecs) false l0
    else
      let dAbs := leastOver ds (s.num AXS.DABS)
      let (l, deferred) := deferLims l0 p .one .zero dReg jReg dAbs
      let s := ms.foldl (fun s a => s.showDeferred a deferred) s
      let path := posPath l p .one .zero
      let ovr := overshoots l p .one .zero
      let s := ms.foldl (fun s a => s.showPath a { l with v := (s.coordV a).div (sh a).2.abs } p path (ovr && !(sh a).2.isZero)) s
      let (q, done) := p.at path s.strideSecs
      set s (if done then ⟨.one, .zero, .zero⟩ else q) done l

/-! Gearing (R385 to R389). -/

/-- A slave's master gives no position (R389). -/
def State.masterGone (s : State) (a : Nat) : Bool :=
  let m := s.rdI AXS.GEAR_MASTER a
  s.kind m == 0 || (s.onI AXS.GEAR_SRC a && !s.actValid m)

/-- A LOCKED slave's point at boundary `k` is the law; a law beyond its limits is followed at them (R387, R388). -/
def State.lockedPoint (s : State) (k a : Nat) : State :=
  if s.rdI AXS.STAT_GEAR a = 2 ∧ !s.masterGone a then
    let (m, vm) := s.master a true (s.actAt k)
    let law := s.gearLaw a m
    let v := s.gearSpeed a vm
    let x := s.axis a
    let acc := (v.sub (num64 x.pubV)).div s.strideSecs
    let l := s.lims a (s.num AXS.VMAX a)
    let top := (s.num AXS.AMAX a).max (s.num AXS.DMAX a)
    if l.v.lt v.abs || top.lt acc.abs then
      let l := { l with d := s.num AXS.DMAX a, j := s.num AXS.JMAX a }
      let p : Pt := ⟨num64 x.pubX, num64 x.pubV, .zero⟩
      let q := if l.ok then (p.at (velPath l p.v p.a ((v.min l.v).max l.v.neg)) s.strideSecs).1 else p.run .zero s.strideSecs
      (((s.modAxis a fun x => x.setPt q).wrI AXS.STAT_GEAR a 1).incI AXS.CNT2_GEAR_SLIP a).raise (axisPage a) 8
    else s.modAxis a fun x => { (x.setPt ⟨law, v, acc⟩) with lawV := bits64 v }
  else s

/-- The master's position and velocity as published, or actual, for the planning of a slave. -/
def State.planSlave (s : State) (k a : Nat) : State :=
  let t := s.strideSecs
  let onAt := fun (s : State) (v : Num) => s.modAxis a fun x => x.setPt ⟨x.pt.x.add (v.mul t), v, .zero⟩
  let s := if s.masterGone a then
      let s := if (s.axis a).masterLost then s
        else ((s.modAxis a fun x => { x with masterLost := true }).wrI AXS.STAT_GEAR a 1).raise (axisPage a) 9
      onAt s (num64 (s.axis a).lawV)
    else
      let (m, vm) := s.master a false (s.actAt k)
      let law := s.gearLaw a m
      let v := s.gearSpeed a vm
      let s := s.modAxis a fun x => { x with masterLost := false, lawV := bits64 v, dUse := s.rdI AXS.DMAX a, jUse := s.rdI AXS.JMAX a }
      let p := (s.axis a).pt
      let e : Pt := ⟨p.x.sub law, p.v.sub v, p.a⟩
      if s.rdI AXS.STAT_GEAR a = 2 then onAt s v
      else if e.x.abs.lt half && e.v.isZero && e.a.isZero then ((onAt s v).wrI AXS.STAT_GEAR a 2).raise (axisPage a) 7
      else
        let l := s.lims a ((s.num AXS.VMAX a).sub v.abs)
        if l.ok then
          let path := posPath l e .zero .zero
          let (q, done) := e.at path t
          let q := if done then ⟨.zero, .zero, .zero⟩ else q
          s.modAxis a fun x => x.setPt ⟨(law.add (v.mul t)).add q.x, v.add q.v, q.a⟩
        else onAt s p.v
  s.showAxis a

/-- What the axes island does at boundary `k` (R369, R370, R386, R391, R419): measures, reacts to feedback loss, publishes point `k` and
plans point `k` + 1. -/
def State.axesBoundary (s : State) (k : Nat) : State :=
  let all := List.range 16
  let on := fun (f : Nat → Bool) => all.filter fun a => f (s.kind a)
  let elec := on (· == 2)
  let mech := on (· == 1)
  let prof := on fun k => k == 1 || k == 3
  let s := elec.foldl (fun s a =>
    let s := s.evalAxis a k
    if s.onI AXS.CFG_ESRC a then
      (s.wrI AXS.VEL_MEAS_V a (bits32 (num64 (s.axis a).lawV))).elecDir a (num64 (s.axis a).lawV).isNeg else s) s
  let s := mech.foldl (fun s a => (s.measureAxis a k).fblStep a k (s.rdI AXS.VEL_MEAS_V a)) s
  let s := prof.foldl (fun s a => s.lockedPoint k a) s
  let s := (on (· != 0)).foldl (fun s a => s.publish a k) s
  let s := (List.range 15).foldl (fun s g => s.syncStart (g + 1)) s
  let s := (prof.filter fun a => s.rdI AXS.STAT_GEAR a == 0).foldl State.planAxis s
  let s := (List.range 15).foldl (fun s g => s.planGroup (g + 1)) s
  (prof.filter fun a => s.rdI AXS.STAT_GEAR a != 0).foldl (fun s a => s.planSlave k a) s

end Sys2Proof.Machine
end

