-- ==== Sys2Proof/Machine/Feedback.lean ====
section
/-! DEFINITION. Feedback interfaces (R397 to R423): counting, SSI reads, lost feedback, and the rows of latches, compares and the Datum. -/

namespace Sys2Proof.Machine

/-- A feedback interface. -/
def State.fb (s : State) (f : Nat) : FbkState := s.fbk.getD f emptyFbk

/-- A feedback interface changed. -/
def State.modFbk (s : State) (f : Nat) (g : FbkState → FbkState) : State := { s with fbk := modAt s.fbk f g }

/-- The page of an interface. -/
def fbkPage (f : Nat) : Nat := 0x78 + f

/-- The interface decodes input of type `ty` (R397). -/
def State.fbkOn (s : State) (f ty : Nat) : Bool :=
  s.onI PG.ENABLE (fbkPage f) && s.pageActive (fbkPage f) && s.rdI FBK.CFG_TYPE f == ty && decide (f < 8)

/-- The mechanical axes that count from an interface. -/
def State.fbkAxes (s : State) (f : Nat) : List Nat :=
  (List.range 16).filter fun a => s.kind a == 1 && s.rdI AXS.CFG_FBK a == f

/-- An edge's timestamp, in steps of 250 ps (R398). -/
def stamp (t : Nat) : Nat := t / 16384 * 16384

/-- The interface as its ENABLE and CFG leave it after a write: off, or valid with no read taken (R408, R419, FBK_STAT). -/
def State.fbkMode (s : State) (f : Nat) : State :=
  let on := s.onI PG.ENABLE (fbkPage f) && s.rdI FBK.CFG_TYPE f != 0
  let s := s.modFbk f fun x => { x with reading := none, goods := [], run := 0, hallBad := false }
  let s := (s.fbkAxes f).foldl (fun s a => s.modAxis a fun x => { x with ssiRead := false }) s
  s.wrI FBK.STAT_STATE f (if on then 0 else 3)

/-- LOST declared on an interface (R412, R422). -/
def State.declareLost (s : State) (f : Nat) : State :=
  if s.rdI FBK.STAT_STATE f ≠ 0 then s
  else
    let s := (((s.wrI FBK.STAT_STATE f 2).incI FBK.CNT2_LOST f).raise (fbkPage f) 0).modFbk f fun x => { x with run := 0 }
    if s.rdI FBK.CFG_TYPE f = 3 then s else (s.fbkAxes f).foldl (fun s a => s.wrI AXS.DATUM_CTL_VALID a 0) s

/-- LOST ends (R422): the speed of an SSI axis waits for two good reads (R419). -/
def State.endLost (s : State) (f : Nat) : State :=
  let s := (s.fbkAxes f).foldl (fun s a => if s.onI AXS.VEL_STAT_STALE a then s else s.modAxis a fun x => { x with healed := true }) s
  ((s.wrI FBK.STAT_STATE f 0).raise (fbkPage f) 1).modFbk f fun x => { x with goods := [] }

/-- A fault that stands against the end of LOST. -/
def State.markBad (s : State) (f : Nat) : State := s.modFbk f fun x => { x with badAt := s.mer.uptime }

/-- QUAD_ERR (R401, R402, R404). -/
def State.quadErr (s : State) (f : Nat) : State :=
  let s := ((s.incI FBK.CNT_QUAD_ERR f).raise (fbkPage f) 2).markBad f
  if s.onI FBK.CFG_QERR_LOST f then s.declareLost f else s

/-- The direction flag of a mechanical axis toggles (R418). -/
def State.toggleDir (s : State) (a : Nat) (neg : Bool) : State :=
  (s.wrI AXS.VEL_STAT_DIR a (ofBool neg)).raise (axisPage a) 14

/-- A counted edge of an axis (R401, R418). -/
def State.countAxis (s : State) (a : Nat) (d : Int) (t : Nat) : State :=
  let neg := decide (d < 0)
  let s := if s.onI AXS.VEL_STAT_DIR a != neg then (s.toggleDir a neg).modAxis a fun x => { x with edges := [t], nDir := 1 }
    else s.modAxis a fun x => { x with edges := t :: x.edges, nDir := x.nDir + 1 }
  (s.modAxis a fun x => { x with lastEdge := some t }).moveAxis a d

/-- A counting event of an interface: its edge counter and every axis that names it, with the axes counted and their direction. -/
def State.countAll (s : State) (f : Nat) (d : Int) (t : Nat) : State × List (Nat × Bool) :=
  let as := s.fbkAxes f
  (as.foldl (fun s a => s.countAxis a d t) (s.wrI FBK.RAW f (wrapTo 32 ((s.rdI FBK.RAW f : Int) + d))),
    as.map fun a => (a, decide (d < 0)))

/-- The count of a quadrature transition from (a, b) to (a', b') by QMODE (R401): none where the edge is not counted. -/
def quadCount (mode : Nat) (a b a' b' : Bool) : Option Int :=
  if a != a' then
    if mode = 2 ∧ !a' then none else some (if a' != b then 1 else -1)
  else if b != b' ∧ mode = 0 then some (if b' == a then 1 else -1)
  else none

/-- An input's level after INV. -/
def State.invert (s : State) (f i : Nat) (l : Bool) : Bool := l != s.bitI FBK.CFG_INV f i

/-- A level held for `held` passes the filter of input `i` of an interface (R398), 2.5 ns for each step of its field. -/
def State.accepted (s : State) (f i held : Nat) : Bool :=
  decide (s.rdI (if i = 0 then FBK.FILT_FILT_A else if i = 1 then FBK.FILT_FILT_B else FBK.FILT_FILT_Z) f * (5 * ns) ≤ 2 * held)

/-- New levels of A and B counted (R401). -/
def State.quadEdge (s : State) (f : Nat) (a b : Bool) (t held : Nat) : State × List (Nat × Bool) :=
  let old := s.fb f
  let a := if s.accepted f 0 held then a else old.levA
  let b := if s.accepted f 1 held then b else old.levB
  let new := s.modFbk f fun x => { x with levA := a, levB := b }
  if !s.fbkOn f 1 then (new, [])
  else if old.levA != a && old.levB != b then (new.quadErr f, [])
  else
    match quadCount (s.rdI FBK.CFG_QMODE f) (s.invert f 0 old.levA) (s.invert f 1 old.levB) (s.invert f 0 a) (s.invert f 1 b) with
    | none => (new, [])
    | some d => new.countAll f d (stamp t)

/-- The Hall codes in the positive direction (R402). -/
def hallSeq : List Nat := [1, 3, 2, 6, 4, 5]

/-- The steps from one valid Hall code to another along the sequence. -/
def hallStep (p q : Nat) : Nat := (hallSeq.idxOf q + 6 - hallSeq.idxOf p) % 6

/-- The Hall code of the inputs. -/
def State.hallCode (s : State) (f : Nat) : Nat :=
  let x := s.fb f
  ofBool (s.invert f 0 x.levA) + 2 * ofBool (s.invert f 1 x.levB) + 4 * ofBool (s.invert f 2 x.levZ)

/-- New levels of U, V and W counted (R402). -/
def State.hallEdge (s : State) (f : Nat) (u v w : Bool) (t held : Nat) : State × List (Nat × Bool) :=
  let bad := (s.fb f).hallBad
  let lev := fun (i : Nat) (old new : Bool) => (if s.accepted f i held then new else old)
  let new := s.modFbk f fun x => { x with levA := lev 0 x.levA u, levB := lev 1 x.levB v, levZ := lev 2 x.levZ w, hallBad := false }
  if !s.fbkOn f 2 then (new, [])
  else
    let p := s.rdI FBK.STAT_HALL f
    let q := new.hallCode f
    let new := (if bad then new.markBad f else new).wrI FBK.STAT_HALL f q
    if !hallSeq.contains q || !hallSeq.contains p || p == q then (new, [])
    else
      match hallStep p q with
      | 1 => new.countAll f 1 (stamp t)
      | 5 => new.countAll f (-1) (stamp t)
      | _ => (new.quadErr f, [])

/-- HALL_INVALID (R402, R404): the invalid code has stood for 1 µs. -/
def execHallInvalid (f : Nat) (s : State) : Host.Outcome State Fault Refusal :=
  s.live fun s =>
    if s.fbkOn f 2 && !hallSeq.contains (s.hallCode f) then
      let s := (((s.wrI FBK.STAT_HALL f (s.hallCode f)).raise (fbkPage f) 3).markBad f).modFbk f fun x => { x with hallBad := true }
      if s.onI FBK.CFG_QERR_LOST f then s.declareLost f else s
    else s

/-- The inputs that line-fault detection covers (R399). -/
def State.lineInputs (s : State) (f : Nat) : Nat := if s.rdI FBK.CFG_TYPE f = 3 then 1 else 3

/-- LINE_FAULT (R399, R422): an input has stayed below 200 mV for 1 µs, or stands above it again. -/
def execLineFault (f input : Nat) (low : Bool) (s : State) : Host.Outcome State Fault Refusal :=
  s.live fun s =>
    let on := (s.fbkOn f 1 || s.fbkOn f 2 || s.fbkOn f 3) && s.onI FBK.CFG_LF_EN f && decide (input < s.lineInputs f)
    let was := bitOf (s.fb f).lows input
    let s := s.modFbk f fun x => { x with lows := if input < 3 then putBit x.lows input low else x.lows }
    if !on then s
    else
      let s := (s.wrI FBK.STAT_LINE_FAULT f (ofBool (bitsOf (s.fb f).lows 0 (s.lineInputs f) != 0))).markBad f
      if low && !was then ((s.incI FBK.CNT2_LINE_FLT f).raise (fbkPage f) 6).declareLost f else s

/-- FBK_VALID (R422): an ABZ or Hall interface has gone 1 ms without a line fault, QUAD_ERR or HALL_INVALID. -/
def execFbkValid (f : Nat) (s : State) : Host.Outcome State Fault Refusal :=
  s.live fun s =>
    if s.rdI FBK.STAT_STATE f = 2 ∧ s.rdI FBK.CFG_TYPE f ≠ 3 ∧ f < 8 ∧ !s.onI FBK.STAT_LINE_FAULT f ∧ !(s.fb f).hallBad then
      (s.advanceUp ((s.fb f).badAt + ms)).endLost f
    else s

/-! SSI. -/

/-- The lead of an SSI read before its boundary. -/
def State.ssiLead (s : State) (f : Nat) : Nat := s.rdI FBK.SSI_T_LEAD f * 10 * ns

/-- The start of the next SSI read (R406): LEAD before the first boundary for which it has not passed. -/
def State.ssiStart (s : State) (f : Nat) : Nat :=
  let n := max 1 (ceilDiv (s.mer.mer + s.ssiLead f - s.mer.lastS) s.strideT)
  s.mer.lastS + n * s.strideT - s.ssiLead f

/-- SSI_READ_START (R405, R406): the read's clocks leave FBfCK, and the data are sampled after each rising edge. -/
def execSsiReadStart (f : Nat) (s : State) : Host.Outcome State Fault Refusal :=
  s.live fun s =>
    if s.fbkOn f 3 then
      let t := s.ssiStart f
      let n := s.rdI FBK.SSI_POS_BITS f + s.rdI FBK.SSI_ERR_BITS f + s.rdI FBK.SSI_CRC_BITS f
      ((s.advanceTo t).emit (.ssiClock f t n ((s.rdI FBK.SSI_DIV f + 1) * (10 * ns)) (s.rdI FBK.SSI_T_RX_DLY f * (5 * ns)))).modFbk f fun x =>
        { x with reading := some t }
    else s

/-- A CRC of `w` bits over `n` bits of a number, most significant first (R406). -/
def crcBits (w poly : Nat) (data : Nat) : Nat → Nat → Nat
  | 0, c => c
  | n + 1, c =>
    let top := bitOf c (w - 1) != bitOf data n
    let c := c * 2 % 2 ^ w
    crcBits w poly data n (if top then c ^^^ (poly % 2 ^ w) else c)

/-- Gray code to binary. -/
def grayToBin (g : Nat) : Nat → Nat
  | 0 => g
  | n + 1 => grayToBin g n ^^^ (g / 2 ^ (n + 1))

/-- A response fails by its CRC or by an error bit (R406). -/
def State.ssiBad (s : State) (f resp : Nat) : Bool :=
  let e := s.rdI FBK.SSI_ERR_BITS f
  let c := s.rdI FBK.SSI_CRC_BITS f
  let got := resp % 2 ^ c
  let body := resp / 2 ^ c
  let crc := crcBits c (s.rdI FBK.SSI_CRC_POLY f) body (s.rdI FBK.SSI_POS_BITS f + e) (s.rdI FBK.SSI_CRC_INIT f % 2 ^ c)
  let crc := if s.onI FBK.SSI_CRC_INV_OUT f then 2 ^ c - 1 - crc else crc
  (c != 0 && got != crc) || bitsOf body 0 e != 0

/-- The raw position of a response (R408). -/
def State.ssiPos (s : State) (f resp : Nat) : Nat :=
  let n := s.rdI FBK.SSI_POS_BITS f
  let p := resp / 2 ^ (s.rdI FBK.SSI_CRC_BITS f + s.rdI FBK.SSI_ERR_BITS f) % 2 ^ n
  if s.onI FBK.CFG_GRAY f then grayToBin p n else p

/-- The direction flag of an SSI axis against the extreme of its position (R418). -/
def State.ssiDir (s : State) (a : Nat) : State :=
  let x := s.axis a
  let neg := s.onI AXS.VEL_STAT_DIR a
  let back := if neg then x.unw - x.extreme else x.extreme - x.unw
  let h : Int := s.rdI FBK.VEL_DIR_HYST (s.rdI AXS.CFG_FBK a)
  if 0 < back ∧ h ≤ back then (s.toggleDir a !neg).modAxis a fun x => { x with extreme := x.unw }
  else if back < 0 then s.modAxis a fun x => { x with extreme := x.unw }
  else s

/-- A good read taken by an axis (R408): its sample instant, and the raw position before and now. -/
def State.ssiTake (s : State) (a ts p0 p bits : Nat) : State :=
  let x := s.axis a
  if x.ssiRead then
    let d := ssiDiff bits p p0
    let s := ((s.modAxis a fun x => { x with ssiAt := ts }).moveAxis a d).cmpOver a x.bear d x.ssiAt ts
    s.ssiDir a
  else
    let b : Int := ((p : Int) + s.rdI AXS.DATUM_VALUE a) % (s.axisMod a : Int)
    let s := (s.moveAxis a (b - x.bear)).wrI AXS.DATUM_CTL_VALID a 1
    s.modAxis a fun x => { x with ssiAt := ts, ssiRead := true, extreme := x.unw }

/-- A good read of an interface (R408, R422). -/
def State.ssiGood (s : State) (f ts resp : Nat) : State :=
  let p := s.ssiPos f resp
  let p0 := s.rdI FBK.RAW f
  let s := (s.fbkAxes f).foldl (fun s a => s.ssiTake a ts p0 p (s.rdI FBK.SSI_POS_BITS f)) s
  let s := ((s.wrI FBK.RAW f p).wrI FBK.STAT_SSI_FAILS f 0).modFbk f fun x =>
    { x with goods := ((ts, p) :: x.goods).take 8, run := x.run + 1 }
  if s.rdI FBK.STAT_STATE f = 2 ∧ 4 ≤ (s.fb f).run then s.endLost f else s

/-- SSI_FAIL (R406, R422). -/
def State.ssiFail (s : State) (f : Nat) : State :=
  let n := s.rdI FBK.STAT_SSI_FAILS f + 1
  let s := (((s.incI FBK.CNT_SSI_FAIL f).raise (fbkPage f) 4).wrI FBK.STAT_SSI_FAILS f (min 3 n)).modFbk f fun x => { x with run := 0 }
  if n = 3 then s.declareLost f else s

/-- SSI_READ_DONE (R405 to R408): the bits received, the clock periods after which the data line was low for the start response, the ns after the
last clock at which it was high again, and the instant. -/
def execSsiReadDone (f resp ack back t : Nat) (s : State) : Host.Outcome State Fault Refusal :=
  s.live fun s =>
    match (s.fb f).reading with
    | none => s
    | some r =>
      let s := (s.advanceTo t).modFbk f fun x => { x with reading := none }
      let ts := shiftTime (sext 8 (s.rdI FBK.SSI_T_ENC_DLY f) * 10 * ns) r
      if !s.fbkOn f 3 then s
      else if s.rdI FBK.SSI_T_ACK_TMO f < ack ∨ 20000 < back ∨ s.ssiBad f resp then s.ssiFail f
      else if r + s.ssiLead f < t + 100 * ns then (s.incI FBK.CNT2_SSI_LATE f).raise (fbkPage f) 5
      else s.ssiGood f ts resp

/-! Latches, compares and the Datum. -/

/-- The axis has a Bearing and its island runs. -/
def State.hasBearing (s : State) (a : Nat) : Bool := (s.kind a == 1 || s.kind a == 2) && s.pageActive (axisPage a) && decide (a < 16)

/-- A latch event at an instant (R413, R414). -/
def State.latchAt (s : State) (a src t : Nat) : State :=
  if s.kind a = 2 then
    let s := s.evalAxis a (t / (5 * ns) * (5 * ns))
    s.storeLatch a src (s.axis a).bear t false false
  else if s.rdI FBK.CFG_TYPE (s.rdI AXS.CFG_FBK a) = 3 then
    let d := ((s.speed a).mul (secsOf ((t : Int) - (s.axis a).ssiAt))).nearest
    s.storeLatch a src ((((s.axis a).bear : Int) + d) % (s.axisMod a : Int)).toNat t true false
  else s.storeLatch a src (s.axis a).bear t false false

/-- A pending Datum of a source is set (R410). -/
def State.datumBy (s : State) (a src : Nat) (edgeOk : Bool) : State :=
  if s.onI AXS.DATUM_CTL_PENDING a ∧ s.rdI AXS.DATUM_CTL_SRC a = src ∧ edgeOk then s.datumSet a else s

/-- An edge of the given direction is one of a polarity: 0 rising, 1 falling, 2 both. -/
def edgeFits (sel : Nat) (rising : Bool) : Bool := sel == 2 || (sel == 0 && rising) || (sel == 1 && !rising)

/-- The index event is qualified (R403). -/
def State.indexOk (s : State) (f held : Nat) : Bool :=
  let g := s.rdI FBK.CFG_Z_GATE f
  s.fbkOn f 1 && s.accepted f 2 held && (!bitOf g 0 || s.invert f 0 (s.fb f).levA) && (!bitOf g 1 || s.invert f 1 (s.fb f).levB)

/-- An edge of a latch input passes its fixed filter of 20 ns (R398). -/
def ltAccepted (n held : Nat) : Bool := decide (n < 8 ∧ 20 * ns ≤ held)

/-- The axes that a latch input serves. -/
def State.ltAxes (s : State) : List Nat := (List.range 16).filter s.hasBearing

/-- The timestamp of an input event. -/
def eventTime : Instr → Option Nat
  | .encoderEdge _ _ _ x | .hallChange _ _ _ _ x | .index _ x | .latch _ _ x => some x.t
  | _ => none

/-- The counting of an input event. -/
def State.eventCount (s : State) : Instr → State × List (Nat × Bool)
  | .encoderEdge f a b ⟨t, held⟩ => s.quadEdge f a b t held
  | .hallChange f u v w ⟨t, held⟩ => s.hallEdge f u v w t held
  | _ => (s, [])

/-- The latches of an input event (R413). -/
def State.eventLatch (s : State) : Instr → State
  | .index f ⟨t, held⟩ =>
    if s.indexOk f held then
      (s.fbkAxes f).foldl (fun s a => if s.onI AXS.LT_CFG_IDX_EN a then s.latchAt a 1 (stamp t) else s) (s.raise (fbkPage f) 7)
    else s
  | .latch n rising ⟨t, held⟩ =>
    if ltAccepted n held then
      s.ltAxes.foldl (fun s a =>
        if s.bitI AXS.LT_CFG_LT_EN a n && edgeFits (s.rdI AXS.LT_CFG_LT_EDGE a) rising then s.latchAt a (8 + n) (stamp t) else s) s
    else s
  | _ => s

/-- The Datum of an input event (R410). -/
def State.eventDatum (s : State) : Instr → State
  | .index f ⟨_, held⟩ => if s.indexOk f held then (s.fbkAxes f).foldl (fun s a => s.datumBy a 2 true) s else s
  | .latch n rising ⟨_, held⟩ =>
    if ltAccepted n held then
      s.ltAxes.foldl (fun s a => s.datumBy a (8 + n) (edgeFits (s.rdI AXS.DATUM_CTL_EDGE a) rising)) s
    else s
  | _ => s

/-- The events of a timestamp step without an ABZ edge that a later one of the same interface replaces: both changes are one transition
(R401). -/
def joinEdges : List Instr → List Instr
  | [] => []
  | .encoderEdge f a b x :: rest =>
    if rest.any (fun c => match c with | .encoderEdge g _ _ _ => g == f | _ => false) then joinEdges rest
    else .encoderEdge f a b x :: joinEdges rest
  | c :: rest => c :: joinEdges rest

/-- The events of one timestamp step: counting, latches, compares, Datum (R400). -/
def State.eventStep (s : State) (t : Nat) (cs : List Instr) : State :=
  let s := s.advanceTo t
  let cs := joinEdges cs
  let (s, hit) := cs.foldl (fun (p : State × List (Nat × Bool)) c => let (s, h) := p.1.eventCount c; (s, p.2 ++ h)) (s, [])
  let s := cs.foldl State.eventLatch s
  cs.foldl State.eventDatum (hit.foldl (fun s x => s.cmpAtCount x.1 (stamp t) x.2) s)

/-- The input events that stand next in the queue and fall in the step of length `p` of instant `t`. -/
def State.tiedEvents (s : State) (p t : Nat) : List Instr := s.pending.takeWhile fun c => (eventTime c).any (sameCycle p t)

/-- An input event with those of its timestamp step that wait in the queue. -/
def State.inputEvent (s : State) (c : Instr) (t : Nat) : State :=
  s.inTurn c fun s =>
    let tie := s.tiedEvents 16384 t
    let s := s.eventStep t (c :: tie)
    { s with served := s.served ++ tie }

/-- The input events that still fall in the present island cycle, taken now (R417). -/
def State.eventsNow (s : State) : State :=
  let tie := s.tiedEvents (5 * ns) s.mer.mer
  let s := tie.foldl (fun s c => s.eventStep ((eventTime c).getD 0) [c]) s
  { s with served := s.served ++ tie }

/-- ENCODER_EDGE (R398, R401): the levels of A and B. -/
def execEncoderEdge (f : Nat) (a b : Bool) (at_ : InputMark) (s : State) : Host.Outcome State Fault Refusal :=
  s.live fun s => s.inputEvent (.encoderEdge f a b at_) at_.t

/-- HALL_CHANGE (R402): the levels of U, V and W. -/
def execHallChange (f : Nat) (u v w : Bool) (at_ : InputMark) (s : State) : Host.Outcome State Fault Refusal :=
  s.live fun s => s.inputEvent (.hallChange f u v w at_) at_.t

/-- INDEX (R403, R413, R410): a rising edge of Z. -/
def execIndex (f : Nat) (at_ : InputMark) (s : State) : Host.Outcome State Fault Refusal := s.live fun s => s.inputEvent (.index f at_) at_.t

/-- LATCH (R413, R414): an edge of LTn. -/
def execLatch (n : Nat) (rising : Bool) (at_ : InputMark) (s : State) : Host.Outcome State Fault Refusal :=
  s.live fun s => s.inputEvent (.latch n rising at_) at_.t

/-- A write of AXS_LT_CFG: SW_LATCH takes a software latch. -/
def State.ltCfgWrite (s : State) (a v : Nat) : State :=
  let s := s.storeWord (axisPage a) 0x0C8 v
  if bitOf v 11 ∧ s.hasBearing a then
    let s := s.evalAxis a s.mer.mer
    s.storeLatch a 2 (s.axis a).bear s.mer.mer false false
  else s

/-- SW_LATCH (R413). -/
def execSwLatch (axis : Nat) (s : State) : Host.Outcome State Fault Refusal :=
  s.live fun s =>
    let a := axis % 16
    let v := s.rawWord (axisPage a) 0x0C8 ||| 0x800
    s.busWrite (axisPage a) 0x0C8 v fun s => s.ltCfgWrite a v

/-- LATCH_POP (R415): a read of AXS_LT_POP word 3. -/
def execLatchPop (axis : Nat) (s : State) : Host.Outcome State Fault Refusal :=
  s.live fun s =>
    let a := axis % 16
    s.busRead (axisPage a) 0x0DC fun s =>
      (s.emit (.readData (axisPage a) 0x0DC (s.rawWord (axisPage a) 0x0DC))).latchPop a

/-- A write of AXS_DATUM_CTL: ARM arms one event. -/
def State.datumCtlWrite (s : State) (a v : Nat) : State :=
  let s := s.storeWord (axisPage a) 0x0C4 v
  if bitOf v 6 then s.wrI AXS.DATUM_CTL_PENDING a 1 else s

/-- DATUM_ARM (R410). -/
def execDatumArm (axis value : Nat) (s : State) : Host.Outcome State Fault Refusal :=
  s.live fun s => s.busWrite (axisPage (axis % 16)) 0x0C4 value fun s => s.datumCtlWrite (axis % 16) value

/-- DATUM_SET (R410, R411) of a Datum armed for now. -/
def execDatumSet (axis : Nat) (s : State) : Host.Outcome State Fault Refusal :=
  s.live fun s => if s.hasBearing axis then s.datumBy axis 1 true else s

/-- A write of word 2 of AXS_CMPc (R417): against the position with the counts of its island cycle. -/
def State.cmpWrite (s : State) (a c v : Nat) : State :=
  let s := s.storeWord (axisPage a) (0x0E8 + 16 * c) v
  if bitOf v 0 ∧ s.hasBearing a then
    let s := s.eventsNow
    (s.evalAxis a s.mer.mer).armCmp a c
  else s

/-- CMP_ARM (R417). -/
def execCmpArm (axis c value : Nat) (s : State) : Host.Outcome State Fault Refusal :=
  s.live fun s =>
    s.busWrite (axisPage (axis % 16)) (0x0E8 + 16 * (c % 2)) value fun s => s.cmpWrite (axis % 16) (c % 2) value

/-- ELECTRICAL_COMPARE_FIRE (R416): the compares of an electrical axis at an island cycle. -/
def execElectricalCompareFire (axis t : Nat) (s : State) : Host.Outcome State Fault Refusal :=
  s.live fun s =>
    let s := s.advanceTo t
    if s.hasBearing axis then s.evalAxis axis (t / (5 * ns) * (5 * ns)) else s

end Sys2Proof.Machine
end

