-- ==== Sys2Proof/Machine/SafetyIsland.lean ====
section
/-! DEFINITION. The safety island (R520 to R549): its cycle, inputs, outputs, Safe Pulse Block, axis monitors and Semaphore connections. A
cycle is 250 µs of the island's own time, in ns; the samples of a cycle start are evaluated, and the results applied, at its end. -/

namespace Sys2Proof.Machine

/-- The safety island changed. -/
def State.modSaf (s : State) (f : SafState → SafState) : State := { s with saf := f s.saf }

/-- A safety cycle in ns of the island's time (R520). -/
def safCycle : Nat := 250000

/-- The pages of the safety functions are locked (R522). -/
def State.safLocked (s : State) : Bool := s.onI PG.LOCKED 0x98 && s.onI PG.LOCKED 0x99

/-- Outputs driven, with the dark pulses that run taken out (R531, R532). -/
def SafState.levels (x : SafState) : Nat :=
  maskOf ((List.range 8).filter fun n => bitOf x.outs n && (x.tests.getD n ⟨0, 0, false, none⟩).left == 0)

/-- A fault of class S (Table 15-1): SAFE, every output off, Safe Pulse Block; in a cell its code (R521). -/
def State.forceSafe (s : State) (code : Nat) : State :=
  if s.isCell then s.wr SAF.STAT_FAULT code
  else if s.rd SAF.STAT_STATE = 3 then s
  else
    let s := ((s.wr SAF.STAT_STATE 3).wr SAF.STAT_FAULT code).raise 0x98 2
    let s := if s.on SAF.STAT_SPB then s else ((s.wr SAF.STAT_SPB 1).modSaf fun x => { x with spbFor := 0 }).raise 0x98 0
    let s := (s.wr SAF.STAT_PERMIT 0).wr SAF.STAT_UNLOCK 0
    s.modSaf fun x => { x with outs := 0 }

/-- CLK_XCHK: class S, the hub diagnostic of bit 6, or a cell's bypass order (Table 15-2, R193). -/
def State.xchkFails (s : State) : State :=
  let s := (s.wr SAF.STAT_XCHK_OK 0).raise 0x98 11
  if s.isCell then ((s.raise 0x5A 14).forceSafe 1).bypassOrder 0 else (s.diagnose 6).forceSafe 1

/-- The cross-check of a cycle that took `len` ns by the main clock. -/
def State.crossCheck (s : State) (len : Nat) : State :=
  let bad := decide (7500 < ((len : Int) - safCycle).natAbs)
  let n := if bad then min 2 (s.saf.badX + 1) else 0
  let was := s.saf.badX
  let s := s.modSaf fun x => { x with badX := n }
  if n = 2 then (if was = 2 then s else s.xchkFails)
  else if bad then s else s.wr SAF.STAT_XCHK_OK 1

/-! Inputs. -/

/-- MODE of an input; a channel whose partner carries another pair mode is unused (R525). -/
def State.siMode (s : State) (n : Nat) : Nat :=
  let m := s.rdA SAF.SI_MODE 0 n
  if m < 2 ∨ s.rdA SAF.SI_MODE 0 (n / 2 * 2) = s.rdA SAF.SI_MODE 0 (n / 2 * 2 + 1) then m else 0

/-- A mask names an unused input (R525). -/
def State.badMasks (s : State) : Bool :=
  let m := s.rd SAF.STARTUP_MASK ||| s.rd SAF.SPB_MASK ||| s.rd SAF.PERMIT_MASK ||| s.rd SAF.UNLOCK_MASK
  (List.range 16).any fun n => bitOf m n && s.siMode n == 0

/-- The level of an input at instant `t` of the cycle, from its changes in time order. -/
def levelBy (l : Bool) (t : Nat) (cs : List (Nat × Bool)) : Bool := cs.foldl (fun l c => if c.1 ≤ t then c.2 else l) l

/-- A filter over a cycle: level, accepted level, time for which the level has stood, and the instant reached. -/
structure FiltSt where
  lvl : Bool
  acc : Bool
  run : Nat
  at_ : Nat
  deriving DecidableEq, Repr

/-- A filter carried on to an instant: a level that has stood for `filt` is accepted. -/
def FiltSt.carry (x : FiltSt) (filt t : Nat) : FiltSt :=
  let run := x.run + (t - x.at_)
  { x with run := min run 20000000, at_ := t, acc := if filt ≤ run then x.lvl else x.acc }

/-- The filter of an input over the cycle that has ended (R525, R527): nothing counts before `w`, the end of its dark window. -/
def filterCycle (filt w : Nat) (x : FiltSt) (cs : List (Nat × Bool)) : FiltSt :=
  let l := levelBy x.lvl w cs
  let x := { x with lvl := l, run := if l = x.lvl then x.run else 0, at_ := w }
  let x := (cs.filter fun c => decide (w < c.1)).foldl (fun x c =>
    let y := x.carry filt c.1
    if c.2 = y.lvl then y else { y with lvl := c.2, run := 0 }) x
  x.carry filt safCycle

/-- FILT of an input: a pair uses its even input's (R525). -/
def State.siFilt (s : State) (n : Nat) : Nat :=
  s.rdA SAF.SI_FILT 0 (if 2 ≤ s.siMode n then n / 2 * 2 else n) * 50000

/-- The input expects a dark pulse in the cycle that has ended. -/
def State.testDue (s : State) (n : Nat) : Bool :=
  s.siMode n != 0 && s.onA SAF.SI_TP_EN 0 n && bitOf s.saf.dark (s.rdA SAF.SI_TP_SRC 0 n)

/-- Pulse length in ns of an input's source. -/
def State.pulseOf (s : State) (n : Nat) : Nat := s.rdA SAF.TPO_TP_W 0 (s.rdA SAF.SI_TP_SRC 0 n) * 10000

/-- The outcome of a channel's test (R527, R529). -/
def State.testInput (s : State) (n : Nat) (fail : Bool) : State :=
  let pair := decide (2 ≤ s.siMode n)
  let other := if n % 2 = 0 then n + 1 else n - 1
  if fail then
    let s := (s.inc SAF.CNT_SI_TEST_FAIL).modSaf fun x => { x with passes := setAt x.passes n 0 }
    let had := if pair then s.bit SAF.SI_FLT_SI_HALF n || s.bit SAF.SI_FLT_SI_TEST n else s.bit SAF.SI_FLT_SI_TEST n
    if had then s
    else if !pair then (s.wrBit SAF.SI_FLT_SI_TEST n true).raise 0x98 5
    else if s.bit SAF.SI_FLT_SI_HALF other then
      (((s.wrBit SAF.SI_FLT_SI_HALF other false).wrBit SAF.SI_FLT_SI_TEST n true).wrBit SAF.SI_FLT_SI_TEST other true).raise 0x98 5
    else (s.wrBit SAF.SI_FLT_SI_HALF n true).raise 0x98 5
  else s.modSaf fun x => { x with passes := setAt x.passes n (min 8 (x.passes.getD n 0 + 1)) }

/-- An input over the cycle that has ended: its filter, then its test. -/
def State.inputCycle (s : State) (changes : List (Nat × Nat × Bool)) (n : Nat) : State :=
  let cs := (changes.filter fun c => c.1 == n).map (·.2)
  let due := s.testDue n
  let w := if due then s.pulseOf n + 20000 else 0
  let x : FiltSt := ⟨bitOf s.saf.pins n, bitOf s.saf.acc n, s.saf.runs.getD n 0, 0⟩
  let y := filterCycle (s.siFilt n) w x cs
  let t := s.modSaf fun z =>
    { z with pins := putBit z.pins n y.lvl, acc := putBit z.acc n y.acc, runs := setAt z.runs n y.run }
  if due then t.testInput n (levelBy x.lvl (s.pulseOf n / 2) cs) else t

/-- A channel's level after the filter, an antivalent odd channel inverted. -/
def State.chanLevel (s : State) (n : Nat) : Bool := bitOf s.saf.acc n != (s.siMode n == 3 && n % 2 == 1)

/-- A pair while its channels disagree, or after they have (R528). -/
def State.pairWatch (s : State) (p : Nat) (a b : Bool) : State :=
  let st := s.saf.pairSt.getD p 0
  let disc := s.rdA SAF.SI_DISC 0 (2 * p) * 1000000
  let put := fun (s : State) (st d t : Nat) =>
    s.modSaf fun x => { x with pairSt := setAt x.pairSt p st, apart := setAt x.apart p d, shutT := setAt x.shutT p t }
  if st = 0 then
    let d := if a != b then s.saf.apart.getD p 0 + safCycle else 0
    if disc < d then
      ((((put s 1 0 0).wrBit SAF.SI_FLT_SI_TEST (2 * p) true).wrBit SAF.SI_FLT_SI_TEST (2 * p + 1) true).raise 0x98 6).raise 0x98 5
    else put s 0 d 0
  else if !a && !b then put s 2 0 0
  else if st = 1 then s
  else if a && b then
    ((put s 0 0 0).wrBit SAF.SI_FLT_SI_TEST (2 * p) false).wrBit SAF.SI_FLT_SI_TEST (2 * p + 1) false
  else
    let t := s.saf.shutT.getD p 0 + safCycle
    if disc < t then put s 1 0 0 else put s 2 0 t

/-- SI_HALF of a pair clears (R529). -/
def State.halfClears (s : State) (p : Nat) (agree : Bool) : State :=
  [2 * p, 2 * p + 1].foldl (fun s n =>
    if s.bit SAF.SI_FLT_SI_HALF n && agree && s.saf.passes.getD n 0 == 8 then s.wrBit SAF.SI_FLT_SI_HALF n false else s) s

/-- The inputs evaluated (R525 to R529) into SAF_SI_LVL. -/
def State.evalPair (s : State) (p : Nat) : State :=
  let e := 2 * p
  let o := e + 1
  let put := fun (s : State) (a b : Bool) => (s.wrBit SAF.SI_LVL_SI e a).wrBit SAF.SI_LVL_SI o b
  if 2 ≤ s.siMode e then
    let a := s.chanLevel e
    let b := s.chanLevel o
    let s := s.halfClears p (a == b)
    if s.bit SAF.SI_FLT_SI_HALF e then put s b b
    else if s.bit SAF.SI_FLT_SI_HALF o then put s a a
    else
      let s := s.pairWatch p a b
      let l := a && b && !s.bit SAF.SI_FLT_SI_TEST e
      put s l l
  else
    let one := fun (n : Nat) => s.siMode n == 1 && s.chanLevel n && !s.bit SAF.SI_FLT_SI_TEST n
    put s (one e) (one o)

/-- The start-up test (R530). -/
def State.startupTest (s : State) : State :=
  let lvl := s.rd SAF.SI_LVL_SI
  (bitList (s.rd SAF.STARTUP_MASK) 16).foldl (fun s n =>
    if bitOf lvl n then (if bitOf s.saf.opened n then s.wrBit SAF.STARTUP_SEEN n true else s)
    else s.modSaf fun x => { x with opened := putBit x.opened n true }) s

/-- Every input and virtual input of a mask reads closed. -/
def State.closed (s : State) (mask : Nat) : Bool :=
  mask &&& (2 ^ 32 - 1 - (s.rd SAF.SI_LVL_SI + s.rd SAF.SI_LVL_VI * 65536)) == 0

/-! Axis monitors. -/

/-- A monitor beside its registers. -/
def State.mon (s : State) (m : Nat) : AxisMon := s.saf.mons.getD m { hist := [0], ext := 0, apart := false, clear := 4, fbClear := 4 }

/-- A monitor changed. -/
def State.modMon (s : State) (m : Nat) (f : AxisMon → AxisMon) : State := s.modSaf fun x => { x with mons := modAt x.mons m f }

/-- The monitor watches an axis: one of its functions is set. -/
def State.monUsed (s : State) (m : Nat) : Bool := s.onA SAF.SM_SLS 0 m || s.onA SAF.SM_SLP 0 m || s.onA SAF.SM_SDI 0 m

/-- The sample of a monitor (R539): its counter moved by what its own path has counted; in START it takes the axis's position. -/
def State.monSample (s : State) (m : Nat) (d : Int) : State :=
  let a := s.rdA SAF.SM_AXIS 0 m
  let c := if s.rd SAF.STAT_STATE = 0 then (s.axis a).unw else (s.mon m).hist.headD 0 + d
  let far := decide ((s.rdA SAF.SM_XTOL 0 m : Int) < |c - (s.axis a).unw|)
  s.modMon m fun x =>
    { x with
      hist := if s.rd SAF.STAT_STATE = 0 then [c] else (c :: x.hist).take 64
      apart := far
      ext := if s.rd SAF.STAT_STATE = 0 then c else if s.onA SAF.SM_FORBID 0 m then min x.ext c else max x.ext c }

/-- The speed that a monitor forms (R540). -/
def State.monSpeed (s : State) (m : Nat) : Num :=
  let h := (s.mon m).hist
  let n := s.rdA SAF.SM_SPD_N 0 m
  (numInt (h.headD 0 - h.getD n (h.getLastD 0))).div (numRat (n * safCycle) 1000000000)

/-- A monitor's limits are violated at its sample (R540, R541). -/
def State.monBreaks (s : State) (m : Nat) (v : Num) : Bool :=
  let x := s.mon m
  let c := x.hist.headD 0
  let lim := num32 (if s.rd SAF.STAT_STATE = 2 then s.rdA SAF.SM_V_LIM_DEGR 0 m else s.rdA SAF.SM_V_LIM 0 m)
  let back := if s.onA SAF.SM_FORBID 0 m then c - x.ext else x.ext - c
  (s.onA SAF.SM_SLS 0 m && lim.lt v.abs)
    || (s.onA SAF.SM_SLP 0 m
      && (decide (c < sext 32 (s.rdA SAF.SM_P_LO 0 m)) || decide (sext 32 (s.rdA SAF.SM_P_HI 0 m) < c)
        || !s.onI AXS.DATUM_CTL_VALID (s.rdA SAF.SM_AXIS 0 m)))
    || (s.onA SAF.SM_SDI 0 m && decide ((s.rdA SAF.SM_DIR_TOL 0 m : Int) < back))

/-- A monitor evaluated: VIOL and FB are held until their conditions have been absent for 4 cycles. -/
def State.monEval (s : State) (m : Nat) : State :=
  let a := s.rdA SAF.SM_AXIS 0 m
  let v := s.monSpeed m
  let used := s.monUsed m
  let bad := used && s.monBreaks m v
  let fb := used && (s.kind a != 1 || (s.mon m).apart || !s.fbOk a)
  let s := s.modMon m fun x => { x with clear := if bad then 0 else min 4 (x.clear + 1), fbClear := if fb then 0 else min 4 (x.fbClear + 1) }
  let s := (s.raiseIf (bad && !s.onA SAF.SM_VIOL 0 m) 0x98 9).raiseIf (fb && !s.onA SAF.SM_FB 0 m) 0x98 10
  let s := s.wrA SAF.SM_V_MEAS 0 m (bits32 v)
  (s.wrA SAF.SM_VIOL 0 m (ofBool (decide ((s.mon m).clear < 4)))).wrA SAF.SM_FB 0 m (ofBool (decide ((s.mon m).fbClear < 4)))

/-- A monitor holds a violation or a feedback fault, and takes the reaction given. -/
def State.monHolds (s : State) (react : Bool) (m : Nat) : Bool :=
  (s.onA SAF.SM_VIOL 0 m || s.onA SAF.SM_FB 0 m) && s.onA SAF.SM_REACT 0 m == react

/-! Semaphore connections. -/

/-- A connection beside its registers. -/
def State.semConn (s : State) (c : Nat) : SemConn :=
  s.saf.conns.getD c { body := none, okAt := 0, netAt := [0, 0], netRun := [0, 0], latched := false, since := 2, down := false }

/-- A connection changed. -/
def State.modConn (s : State) (c : Nat) (f : SemConn → SemConn) : State := s.modSaf fun x => { x with conns := modAt x.conns c f }

/-- The connection is an enabled consumer. -/
def State.consumes (s : State) (c : Nat) : Bool := s.on SEM.CTL_EN && s.onA SEM.CONN_EN 0 c && !s.onA SEM.CONN_DIR 0 c

/-- The virtual inputs (R546). -/
def State.virtuals (s : State) : Nat :=
  maskOf ((List.range 16).filter fun v =>
    let c := v / 2
    let x := s.semConn c
    let b := if v % 2 = 0 then s.rdA SEM.CONN_BIT_A 0 c else s.rdA SEM.CONN_BIT_B 0 c
    s.consumes c && s.bit SEM.STAT_CONN_UP c && !x.latched && decide (2 ≤ x.since) &&
      (match x.body with
        | none => false
        | some bs => bitOf (leAt bs (13 + b / 8) 1) (b % 8)))

/-- A network of a consumer is lost (class D, R545). -/
def State.netsLost (s : State) : Bool := s.rd SEM.STAT_NET0_LOST != 0 || s.rd SEM.STAT_NET2_LOST != 0

/-- A connection lost: SEM_CONN latches (R545, R546). -/
def State.semLost (s : State) (c : Nat) : State :=
  if (s.semConn c).latched && !s.bit SEM.STAT_CONN_UP c then s
  else ((s.wrBit SEM.STAT_CONN_UP c false).modConn c fun x => { x with latched := true }).raise 0x99 0

/-- Levels in a producer's DATA (Table 15-4). -/
def State.semData (s : State) : Bytes :=
  let st := s.rd SAF.STAT_STATE
  leBytes 1 (s.rd SAF.STAT_SPB + 2 * s.rd SAF.STAT_PERMIT + 4 * s.rd SAF.STAT_UNLOCK + 8 * ofBool (st == 3) + 16 * ofBool (st == 2))
    ++ leBytes 1 0 ++ beBytes 2 (s.rd SAF.SI_LVL_SI) ++ beBytes 2 (s.rd SAF.SI_LVL_VI)

/-- The nonce of a Semaphore tag (R577). -/
def semNonce (conn seq : Nat) : Bytes := beBytes 2 conn ++ beBytes 2 0 ++ beBytes 4 seq ++ beBytes 4 0

/-- The payload of a Semaphore frame (Table 15-3), with its CRC and tag. -/
def semPayload (key : Bytes) (conn seq time : Nat) (data : Bytes) : Bytes :=
  let body := beBytes 2 conn ++ beBytes 1 1 ++ beBytes 1 data.length ++ beBytes 4 seq ++ beBytes 8 time ++ sliceBytes data 0 32
  let body := body ++ beBytes 4 (crc32 body)
  body ++ sliceBytes (Config.gmac key (semNonce conn seq) body) 0 8

/-- A MAC address as bytes. -/
def macBytes (lo hi : Nat) : Bytes := beBytes 6 (lo + hi * 2 ^ 32)

/-- The head of an Ethernet frame sent on a port: addresses, the VLAN tag where one is configured, the EtherType. -/
def State.etherHead (s : State) (port dlo dhi : Nat) (vlan : Option Nat) (ty : Nat) : Bytes :=
  macBytes dlo dhi ++ macBytes (s.rdI ETH.MAC_LO port) (s.rdI ETH.MAC_HI port)
    ++ (match vlan with
      | none => []
      | some v => beBytes 2 0x8100 ++ beBytes 2 v)
    ++ beBytes 2 ty

/-- A frame queued for an enabled port; one that finds the port taken waits and is counted (R670). -/
def State.queueTx (s : State) (f : TxFrame) : State :=
  if !s.onI PG.ENABLE (0xA8 + f.port) then s
  else
    let waits := s.txq.any (fun g => g.port == f.port) || decide (s.mer.uptime < s.txBusy.getD f.port 0)
    let s := { s with txq := s.txq ++ [f] }
    if waits then (s.incI ETH.CNT2_TX_WAIT f.port).raise (0xA8 + f.port) 3 else s

/-- A frame whose content is known queued by an engine in the order of R670. -/
def State.queueFrame (s : State) (port engine : Nat) (data : Bytes) : State :=
  s.queueTx { port := port, engine := engine, data := data, resp := none }

/-- SEMAPHORE_SEND (R543): a producer's frame on both networks. -/
def State.semSend (s : State) (c : Nat) : State :=
  let per := if s.rdA SEM.CONN_PERIOD 0 c = 0 then 16 else s.rdA SEM.CONN_PERIOD 0 c
  if s.on SEM.CTL_EN && s.onA SEM.CONN_EN 0 c && s.onA SEM.CONN_DIR 0 c && s.saf.count % per == 0 then
    match s.slotKey (s.rdA SEM.CONN_KEY_IDX 0 c) 2 with
    | none => s
    | some key =>
      let seq := max 1 ((s.rdA SEM.CONN_SEQ 0 c + 1) % 2 ^ 32)
      let p := semPayload key (s.rdA SEM.CONN_CONN_ID 0 c) seq s.merNs s.semData
      let vlan := if s.on SEM.CTL_VLAN_EN then some (s.rd SEM.CTL_VID) else none
      let f := fun (port : Nat) => s.etherHead port (s.rdA SEM.CONN_DMAC_LO 0 c) (s.rdA SEM.CONN_DMAC_HI 0 c) vlan 0x88B5 ++ p
      ((s.wrA SEM.CONN_SEQ 0 c seq).queueFrame 0 0 (f 0)).queueFrame 2 0 (f 2)
  else s

/-- A copy that counts as delivery by a network (R545): a lost network returns after 16 in a row. -/
def State.semNet (s : State) (c net : Nat) : State :=
  let f := if net = 0 then SEM.STAT_NET0_LOST else SEM.STAT_NET2_LOST
  let s := s.modConn c fun x => { x with netAt := setAt x.netAt net s.mer.uptime }
  if s.bit f c then
    let n := (s.semConn c).netRun.getD net 0 + 1
    let s := s.modConn c fun x => { x with netRun := setAt x.netRun net n }
    if 16 ≤ n then (s.wrBit f c false).raise 0x99 3 else s
  else s

/-- A copy accepted by a consumer (R544, R546). -/
def State.semAccept (s : State) (c net seq : Nat) (p : Bytes) : State :=
  let down := (s.semConn c).down
  let s := (s.wrA SEM.CONN_SEQ 0 c seq).modConn c fun x =>
    { x with body := some (sliceBytes p 3 45), okAt := s.mer.uptime, since := if x.latched then 0 else min 2 (x.since + 1), down := false }
  ((s.wrBit SEM.STAT_CONN_UP c true).raiseIf down 0x99 1).semNet c net

/-- A payload received by connection `c` from network 0 (ETH0) or 1 (ETH2), with the timestamp `t` of its frame (R544, R545, R69). -/
def State.semRx (s : State) (c net t : Nat) (p : Bytes) : State :=
  let seq := beAt p 4 4
  let conn := beAt p 0 2
  if p.length < 60 ∨ beAt p 48 4 ≠ crc32 (sliceBytes p 0 48) then s
  else
    let good := match s.slotKey (s.rdA SEM.CONN_KEY_IDX 0 c) 2 with
      | none => false
      | some key => sliceBytes (Config.gmac key (semNonce conn seq) (sliceBytes p 0 52)) 0 8 == sliceBytes p 52 8
    if !good then (s.inc SEM.CNT_AUTH_FAIL).raise 0x99 5
    else
      let last := s.rdA SEM.CONN_SEQ 0 c
      let d := ((seq : Int) - last) % (2 ^ 32 : Int)
      match (s.semConn c).body with
      | some b =>
        if d = 0 then
          let s := s.semNet c net
          if b = sliceBytes p 3 45 then s else ((s.inc SEM.CNT_DIFF).raise 0x99 4).semLost c
        else if 2 ^ 31 ≤ d then s
        else age s seq
      | none => age s seq
where
  /-- The age check of a newer copy. -/
  age (s : State) (seq : Nat) : State :=
    let locked := s.rd MER.STAT_STATE == 1
    let s := s.wr SEM.STAT_AGE_OFF (ofBool !locked)
    let m := s.rdA SEM.CONN_MAX_AGE 0 c
    let a : Int := (nsOf t : Int) - beAt p 8 8
    if locked && m != 0 && (decide (a < -1000) || decide ((m * 1000 : Nat) < a)) then (s.inc SEM.CNT_LATE).raise 0x99 6
    else s.semAccept c net seq p

/-- NET_LOST (R545): a network (0 ETH0, 1 ETH2) silent for WDOG while the other delivers. -/
def execNetLost (conn net : Nat) (s : State) : Host.Outcome State Fault Refusal :=
  s.live fun s =>
    let f := if net = 0 then SEM.STAT_NET0_LOST else SEM.STAT_NET2_LOST
    if s.consumes conn && s.bit SEM.STAT_CONN_UP conn && !s.bit f conn && decide (conn < 8 ∧ net < 2) then
      let w := s.rdA SEM.CONN_WDOG 0 conn * ms
      let s := s.advanceUp ((s.semConn conn).netAt.getD net 0 + w)
      if (s.semConn conn).netAt.getD (1 - net) 0 + w < s.mer.uptime then s
      else ((s.wrBit f conn true).modConn conn fun x => { x with netRun := setAt x.netRun net 0 }).raise 0x99 2
    else s

/-! The cycle. -/

/-- A fault of class D stands (Table 15-2). -/
def State.classD (s : State) : Bool := s.rd SAF.SI_FLT_SI_HALF != 0 || s.netsLost

/-- The states of Table 15-1 other than SAFE. -/
def State.safStates (s : State) : State :=
  match s.rd SAF.STAT_STATE with
  | 0 =>
    let m := s.rd SAF.STARTUP_MASK
    if s.safLocked && !s.badMasks && m &&& s.rd SAF.STARTUP_SEEN == m then
      ((s.wr SAF.STAT_STATE 1).wr SAF.STAT_STARTUP_DONE 1).raise 0x98 8
    else s
  | 1 => if s.classD then ((s.wr SAF.STAT_STATE 2).modSaf fun x => { x with degrAt := s.mer.uptime }).raise 0x98 3 else s
  | 2 => if s.classD then s else ((s.wr SAF.STAT_STATE 1).wr SAF.STAT_DEGR_LEFT 0).raise 0x98 4
  | _ => s

/-- DEGR_LEFT while DEGRADED. -/
def State.showDegr (s : State) : State :=
  if s.rd SAF.STAT_STATE = 2 then
    s.wr SAF.STAT_DEGR_LEFT (ceilDiv (s.saf.degrAt + s.rd SAF.DEGR_T_DEGR * sec - s.mer.uptime) sec)
  else s.wr SAF.STAT_DEGR_LEFT 0

/-- Safe Pulse Block is demanded (R534). -/
def State.spbDemand (s : State) : Bool :=
  !s.closed (s.rd SAF.SPB_MASK) || s.on SAF.CTL_SPB_REQ || s.rd SAF.STAT_STATE == 0 || s.rd SAF.STAT_STATE == 3
    || (List.range 4).any (s.monHolds false)

/-- Safe Pulse Block at the end of a cycle, and its verification (R534, R536). -/
def State.spbCycle (s : State) : State :=
  let src := s.rd SAF.SPB_RST_SRC
  let lvl := src < 16 && s.siMode src != 0 && s.chanLevel src
  let reset := (if src = 16 then s.saf.reset else lvl && !s.saf.rstWas) && (s.rd SAF.STAT_STATE == 1 || s.rd SAF.STAT_STATE == 2)
  let s := s.modSaf fun x => { x with reset := false, rstWas := lvl }
  if s.spbDemand then
    if s.on SAF.STAT_SPB then s else ((s.wr SAF.STAT_SPB 1).modSaf fun x => { x with spbFor := 0 }).raise 0x98 0
  else if reset && s.on SAF.STAT_SPB then (s.wr SAF.STAT_SPB 0).raise 0x98 1
  else s

/-- An enabled arm group is not reported STOPPED (R536). -/
def State.unstopped (s : State) : Bool := s.rd CTR.GROUPS_ENABLED &&& (0xFFF - s.rd CTR.GROUPS_STOPPED) != 0

/-- SPB_VERIFY at the second cycle after Safe Pulse Block became active. -/
def State.spbVerify (s : State) : State :=
  if s.on SAF.STAT_SPB && decide (s.saf.spbFor < 2) then
    let n := s.saf.spbFor + 1
    let s := s.modSaf fun x => { x with spbFor := n }
    if n = 2 ∧ s.unstopped then s.forceSafe 7 else s
  else s

/-- PERMIT and UNLOCK at the end of a cycle (R537, R538). -/
def State.permits (s : State) : State :=
  let st := s.rd SAF.STAT_STATE
  let shut := s.closed (s.rd SAF.PERMIT_MASK)
  let on := if s.on SAF.STAT_PERMIT then shut && st != 3 else st == 1 && s.on SAF.STAT_STARTUP_DONE && shut
  let s := (s.wr SAF.STAT_PERMIT (ofBool on)).modSaf fun x => { x with offFor := if on then 0 else min (x.offFor + safCycle) (2 ^ 50) }
  let un := s.closed (s.rd SAF.UNLOCK_MASK) && s.on SAF.STAT_SPB && !on && st != 3
    && decide (s.rd SAF.SPB_T_UNLOCK * 100000000 ≤ s.saf.offFor)
  s.wr SAF.STAT_UNLOCK (ofBool un)

/-- The level that an output's source demands (R531). -/
def State.soDemand (s : State) (n : Nat) : Bool :=
  let st := s.rd SAF.STAT_STATE
  !(st == 0 || st == 3) && !s.on SAF.SO_STAT_MASTER_OPEN &&
    (match s.rdA SAF.SO_SRC 0 n with
      | 1 => s.on SAF.STAT_PERMIT
      | 2 => s.on SAF.STAT_UNLOCK
      | 3 => !s.on SAF.STAT_SPB
      | 4 => s.onA SAF.SO_SW 0 n
      | _ => false)

/-- SO_FAULT (R532): the disconnect opens. -/
def State.soFault (s : State) (n : Nat) : State :=
  (((s.wrBit SAF.SO_STAT_FAULT n true).wr SAF.SO_STAT_MASTER_OPEN 1).raise 0x98 7).forceSafe 5

/-- A dark test beside its registers. -/
def State.dark (s : State) (n : Nat) : DarkTest := s.saf.tests.getD n ⟨0, 0, false, none⟩

/-- A dark test changed. -/
def State.modDark (s : State) (n : Nat) (f : DarkTest → DarkTest) : State := s.modSaf fun x => { x with tests := modAt x.tests n f }

/-- A dark pulse over the cycle that has ended: at its end the check, or the test given up (R532, R533). -/
def State.darkCycle (s : State) (low n : Nat) : State :=
  let d := s.dark n
  if d.left = 0 then s
  else if safCycle < d.left then s.modDark n fun d => { d with left := d.left - safCycle }
  else
    let s := s.modDark n fun d => { d with left := 0, since := 0, lost := false }
    if d.lost then ((s.inc SAF.CNT_TEST_DISCARD).raise 0x98 14).modDark n fun d => { d with again := some 2 }
    else if bitOf low n then s else s.soFault n

/-- An output at the end of a cycle: its demand applied; a demand for off during a dark pulse gives the test up (R533). -/
def State.soApply (s : State) (n : Nat) : State :=
  let on := s.soDemand n
  let was := bitOf s.saf.outs n
  let s := s.modSaf fun x => { x with outs := putBit x.outs n on }
  let s := if !on && (s.dark n).left != 0 then s.modDark n fun d => { d with lost := true } else s
  s.modDark n fun d =>
    { d with
      since := if on then min (d.since + safCycle) (2 ^ 50) else 0
      again := if on && !was && d.again.isSome then some 2 else d.again }

/-- The readback of an output against its level in the cycle, of `outs` (R532). -/
def State.soReadback (s : State) (outs high low n : Nat) : State :=
  if (s.dark n).left ≠ 0 then s
  else if (if bitOf outs n then bitOf high n else bitOf low n) then s else s.soFault n

/-- A dark test that is due begins at the cycle start (R532, R533). -/
def State.darkStart (s : State) (n : Nat) : State :=
  let d := s.dark n
  if !bitOf s.saf.outs n || !s.onA SAF.SO_DT_EN 0 n || d.left != 0 || d.lost then s
  else
    let w := s.rdA SAF.SO_DT_W 0 n * 10000
    match d.again with
    | some 0 => s.modDark n fun d => { d with left := w, again := none, since := 0 }
    | some (k + 1) => s.modDark n fun d => { d with again := some k }
    | none =>
      if s.rdA SAF.SO_DT_PER 0 n * 1000000000 ≤ d.since then s.modDark n fun d => { d with left := w, since := 0 } else s

/-- The test-pulse sources at a cycle start (R526). -/
def State.testPulses (s : State) : State :=
  s.modSaf fun x =>
    let wait := x.tpWait.map (· + safCycle)
    let dark := (List.range 4).filter fun k => x.count % 4 == k && decide (s.rdA SAF.TPO_PERIOD 0 k * 1000000 ≤ wait.getD k 0)
    { x with dark := maskOf dark, tpWait := dark.foldl (fun l k => setAt l k 0) wait }

/-- What the island evaluates and applies at the end of a cycle, on the samples of its start: the faults of class S before the other rows of
Table 15-1 (R14, R523). The outputs are read back as they stood in the cycle, `outs`, before they are switched (assumption 168). -/
def State.safEvaluate (s : State) (outs : Nat) (overrun selfBad : Bool) (high low dark : Nat) : State :=
  let s := (List.range 8).foldl State.evalPair s
  let s := (s.wr SAF.SI_LVL_VI s.saf.vi).startupTest
  let s := (List.range 4).foldl State.monEval s
  let s := (if selfBad then s.forceSafe 3 else s).modSaf fun x => { x with selfBad := selfBad }
  let s := if overrun then s.forceSafe 4 else s
  let s := (List.range 4).foldl (fun s m => if s.monHolds true m then s.forceSafe (if s.onA SAF.SM_VIOL 0 m then 14 else 13) else s) s
  let s := (List.range 8).foldl (fun s n => (s.darkCycle dark n).soReadback outs high low n) s
  let s := s.spbVerify.safStates.spbCycle.permits
  let s := (List.range 8).foldl State.soApply s
  (s.wr SAF.SO_STAT_ON (high % 256)).showDegr

/-- What the island samples and begins at a cycle start. -/
def State.safSample (s : State) (changes : List (Nat × Nat × Bool)) (moves : List Int) : State :=
  let s := (List.range 16).foldl (fun s n => s.inputCycle changes n) s
  let s := (List.range 4).foldl (fun s m => s.monSample m (moves.getD m 0)) s
  let s := s.modSaf fun x => { x with vi := s.virtuals, count := x.count + 1 }
  (List.range 8).foldl State.darkStart s.testPulses

/-- SAFETY_CYCLE (R520, R521): the end of a cycle that took `len` ns by the main clock and the start of the next. `changes` are the level
changes at SI0 to SI15 within it (input, ns from its start, level), `moves` what each monitor's own path counted, `high` and `low` the outputs
read back above 18 V and below 2 V, `dark` those read below 2 V in a dark pulse that ended. -/
def execSafetyCycle (len : Nat) (overrun selfBad : Bool) (changes : List (Nat × Nat × Bool)) (moves : List Int) (high low dark : Nat)
    (s : State) : Host.Outcome State Fault Refusal :=
  s.live fun s =>
    if s.rd SYS.STRAP_ROLE = 3 then s else
    let outs := s.saf.outs
    let s := s.advanceUp (s.saf.lastAt + len * ns)
    let s := (s.modSaf fun x => { x with lastAt := s.mer.uptime }).crossCheck len
    if s.isHub then
      let s := s.safEvaluate outs overrun selfBad high low dark
      (List.range 8).foldl State.semSend (s.safSample changes moves)
    else s.modSaf fun x => { x with count := x.count + 1 }

/-- SUP_FAULT (R521, Table 15-2): a rail of the island's supply monitor stands outside its window, or stands inside again. -/
def execSupFault (bad : Bool) (s : State) : Host.Outcome State Fault Refusal :=
  s.live fun s =>
    let was := s.saf.supBad
    let s := s.modSaf fun x => { x with supBad := bad }
    if bad && !was then
      let s := s.raise 0x98 12
      if s.isCell then (s.forceSafe 2).bypassOrder 0 else if s.isHub then (s.diagnose 7).forceSafe 2 else s
    else s

/-- A cause of class S is present (Table 15-1). -/
def State.classSStands (s : State) : Bool :=
  !s.safLocked || decide (s.saf.badX = 2) || s.saf.supBad || s.saf.selfBad || (List.range 4).any (s.monHolds true)
    || (s.rd SAF.STAT_FAULT == 7 && s.unstopped)

/-- Latched input faults cleared: SI_TEST of a failed test, and SEM_CONN (R527, R529, R546). -/
def State.ackInputs (s : State) : State :=
  let s := (List.range 16).foldl (fun s n =>
    if s.saf.pairSt.getD (n / 2) 0 != 0 && decide (2 ≤ s.siMode n) then s else s.wrBit SAF.SI_FLT_SI_TEST n false) s
  (List.range 8).foldl (fun s c => if (s.semConn c).latched then s.modConn c fun x => { x with latched := false, since := 0 } else s) s

/-- FAULT_ACK (Table 15-1). -/
def State.faultAck (s : State) : State :=
  if s.rd SAF.STAT_STATE = 3 then
    if s.classSStands then s.raise 0x98 13
    else
      let s := ((s.wr SAF.STAT_STATE 1).wr SAF.STAT_FAULT 0).ackInputs
      (s.wr SAF.SO_STAT_FAULT 0).wr SAF.SO_STAT_MASTER_OPEN 0
  else s.ackInputs

/-- A write of SAF_CTL. -/
def State.safCtlWrite (s : State) (v : Nat) : State :=
  let s := s.storeWord 0x98 0x040 v
  if !s.isHub then s
  else
    let s := if bitOf v 1 then s.faultAck else s
    if bitOf v 2 && s.rd SAF.SPB_RST_SRC == 16 then s.modSaf fun x => { x with reset := true } else s

/-- FAULT_ACK (R523). -/
def execFaultAck (s : State) : Host.Outcome State Fault Refusal :=
  s.live fun s =>
    let v := s.rawWord 0x98 0x040 ||| 2
    s.busWrite 0x98 0x040 v fun s => s.safCtlWrite v

/-- SAF_RESET (R534): the reset is taken, or discarded, at the end of the cycle. -/
def execSafReset (s : State) : Host.Outcome State Fault Refusal :=
  s.live fun s =>
    let v := s.rawWord 0x98 0x040 ||| 4
    s.busWrite 0x98 0x040 v fun s => s.safCtlWrite v

end Sys2Proof.Machine
end

