-- ==== Sys2Proof/Machine/Measure.lean ====
section
/-! DEFINITION. Measurement (R425 to R457): converter starts, windows and scans, background calibration, frozen codes, sampled values and
synchrophasors. -/

namespace Sys2Proof.Machine

/-- A graph write that reaches a result's slot in the same cycle is discarded, and the page of channel `c` records it (R427; the offset of the
channel's signal word and code 4: assumption 170). -/
def State.collided (s : State) (page c : Nat) : State :=
  (s.accessErr page (0x084 + 32 * c) 4).raise page (if page = 0x80 then 4 else 7)

/-- A result of a converter's channel written to a signal (R427). -/
def State.convSig (s : State) (page c sig bits : Nat) (valid collides : Bool) : State :=
  if sig = 0xFFFF then s
  else
    let s := s.hwSig sig bits valid
    if collides then s.collided page c else s

/-- GAIN × code + OFS in binary32 (R427). -/
def convValue (gain ofs : Nat) (code : Int) : Nat := bits32 (add32 (mul32 (num32 gain) (numInt code)) (num32 ofs))

/-! Starts. -/

/-- A start source has its event at an instant (R429, R430). -/
def State.takeStart (s : State) (t k : Nat) : State :=
  let dly := if k < 16 then s.rdA CNI.CH_DLY 0 k else s.rd CNF.SCAN_DLY
  let step := if k < 16 then 5 * ns else 4 * ns
  let q := s.meas.starts.getD k []
  let at_ := ceilDiv (t + dly * 10 * ns) step * step
  if 4 ≤ q.length then
    if k < 16 then (s.inc CNI.CNT_START_LOST).raise 0x80 2 else (s.inc CNF.CNT_START_LOST).raise 0x81 6
  else s.modMeas fun m => { m with starts := setAt m.starts k (q ++ [at_]) }

/-- START_EVENT (R428, R430): the oldest start event that has occurred is taken by its selections. -/
def execStartEvent (k t : Nat) (s : State) : Host.Outcome State Fault Refusal :=
  s.live fun s =>
    match s.meas.events with
    | [] => s
    | (t₀, ks) :: rest =>
      if t₀ = t ∧ k ∈ ks then
        let left := ks.filter (· ≠ k)
        (s.modMeas fun m => { m with events := if left.isEmpty then rest else (t₀, left) :: rest }).takeStart t k
      else s

/-- CONVERTER_START (R429, R430): the earliest pending start of a selection acts; those of the same clock edge act as one. -/
def execConverterStart (sel : Nat) (s : State) : Host.Outcome State Fault Refusal :=
  s.live fun s =>
    match s.meas.starts.getD sel [] with
    | [] => s
    | t :: rest =>
      let e := rest.foldl min t
      if sel = 16 ∧ (s.on CNF.STAT_SCAN_BUSY ∨ (s.meas.due.getD 16 none).isSome) then s
      else
        (s.advanceTo e).modMeas fun m =>
          { m with starts := setAt m.starts sel ((t :: rest).filter (· != e)), due := setAt m.due sel (some e) }

/-! Integrating converters. -/

/-- The full-scale code of a side, 1 above and 2 below (R426). -/
def cniFull (bip : Bool) (side : Nat) : Nat := if side = 1 then (if bip then 0x7FFFFF else 0xFFFFFF) else if bip then 0x800000 else 0

/-- A result of a CNI channel written (R425 to R427, R434): code, side left (0 none), close instant, HOLD. -/
def State.cniResult (s : State) (c code side t : Nat) (hold collides : Bool) : State :=
  let bip := s.onA CNI.CH_POLARITY 0 c
  let raw := if side = 0 then code % 2 ^ 24 else cniFull bip side
  let ovr := side != 0 || bitOf s.meas.overed c
  let s := if ovr then (s.wrBit CNI.OVR c true).raise 0x80 0 else s
  let s := s.modMeas fun m => { m with overed := putBit m.overed c (side != 0) }
  let v := convValue (s.rdA CNI.CH_GAIN 0 c) (s.rdA CNI.CH_OFS 0 c) (if bip then sext 24 raw else raw)
  let s := s.convSig 0x80 c (s.rdA CNI.CH_SIG 0 c) v (!ovr || s.onA CNI.CH_OVR_VALID 0 c) collides
  let s := if s.rdA CNI.CH_SIG_T 0 c = 0xFFFF then s else s.hwTime (s.rdA CNI.CH_SIG_T 0 c) (nsOf t) true
  let s := ((s.wrA CNI.CH_RAW 0 c raw).wrA CNI.CH_R_OVR 0 c (ofBool ovr)).wrA CNI.CH_R_HOLD 0 c (ofBool hold)
  let s := s.raiseIf hold 0x80 3
  s.wrBit CNI.OVR_HOLD c hold

/-- The part of 2π / DIV in which the extrapolated angle of an electrical axis lies at an instant (R432, R365, R366). -/
def State.axisSector (s : State) (ax n t : Nat) : Int :=
  if s.onI AXS.CFG_ESRC ax then
    (div64 (mul64 (s.gearLaw ax (numInt (s.axis (s.rdI AXS.GEAR_MASTER ax)).unw)) (numNat n)) (numNat (s.rdI AXS.WRAP_W ax))).floor
  else match (s.axis ax).drive with
    | none => 0
    | some p => (div64 (mul64 (numNat n) (add64 (num64 p.theta) (mul64 (num32 p.omega) (secsOf ((t : Int) - p.tb))))) twoPi).floor

/-- The close of an axis-mode window (R432, R433): at a crossing while the axis is valid, else at the length of the last complete window; a
held channel goes on so until the first crossing after the axis is valid again. -/
def State.axisClose (s : State) (c t : Nat) : Option (Nat × Bool) :=
  let ax := s.rdA CNI.CH_AXIS 0 c
  let e := ceilDiv t (5 * ns) * (5 * ns)
  let held := match s.meas.closed.getD c none, s.meas.len.getD c 0 with
    | some p, l => if l = 0 then none else some (p + l, true)
    | none, _ => none
  if s.kind ax = 2 ∧ s.actValid ax then
    if s.bit CNI.OVR_HOLD c ∧ held.any (fun h => decide (h.1 < e)) then held
    else if s.meas.sector.getD c none = some (s.axisSector ax (s.rdA CNI.CH_DIV 0 c) e) then none
    else some (e, false)
  else held

/-- The instant at which a channel's window is to close (R432, R433), and whether it is held for want of its axis. -/
def State.cniClose (s : State) (c t : Nat) : Option (Nat × Bool) :=
  match s.rdA CNI.CH_MODE 0 c with
  | 0 => if s.meas.asked.getD c none = some s.mer.lastS then none else some (s.mer.lastS, false)
  | 1 => s.axisClose c t
  | _ => (s.meas.due.getD c none).map fun e => (e, false)

/-- A window of a CNI channel closed (R431 to R434; in the hub a stride window's result is written at S + 40 ns, R33): the code of the window mean, the side of the range that the input left (1 above, 2 below), the crossing
instant of an axis-mode window, and whether a graph write reaches the slot in the same cycle. -/
def State.windowClose (s : State) (ch code side t : Nat) (collides : Bool) : State :=
    if !s.pageOn 0x80 || !s.bit CNI.CTL_EN ch || decide (16 ≤ ch) then s
    else
      match s.cniClose ch t with
      | none => s
      | some (e, hold) =>
        let ax := s.rdA CNI.CH_AXIS 0 ch
        let at_ := if hold then none else some (s.axisSector ax (s.rdA CNI.CH_DIV 0 ch) e)
        let s := (s.advanceTo e).modMeas fun m =>
          { m with due := setAt m.due ch none, asked := setAt m.asked ch (some e), sector := setAt m.sector ch at_ }
        let prev := s.meas.closed.getD ch none
        if prev.any fun p => decide (p ≤ e ∧ e < p + us) then (s.inc CNI.CNT_WIN_SHORT).raise 0x80 1
        else
          let s := s.modMeas fun m =>
            { m with
              closed := setAt m.closed ch (some e)
              len := match prev with
                | none => m.len
                | some p => setAt m.len ch (e - p) }
          let s := if s.isHub && s.rdA CNI.CH_MODE 0 ch == 0 then s.advanceTo (e + 40 * ns) else s
          s.cniResult ch code side e hold collides

/-- CNI_WINDOW_CLOSE (R431 to R434). -/
def execCniWindowClose (ch code side t : Nat) (collides : Bool) (s : State) : Host.Outcome State Fault Refusal :=
  s.live fun s => s.inTurn (.cniWindowClose ch code side t collides) fun s => s.windowClose ch code side t collides

/-! Fast converters. -/

/-- The 24-bit raw result of samples (R425): on one over range the full-scale code of the side left (R426). -/
def State.cnfRaw (s : State) (c : Nat) (words : List Nat) : Nat :=
  let bip := s.onA CNF.CH_POLARITY 0 c
  match sampleSide words with
  | 0 => wrapTo 24 (s.cnfMean c words)
  | 1 => if bip then 0x7FFC00 else 0xFFFC00
  | _ => if bip then 0x800000 else 0

/-- A result of a CNF channel formed over samples and written to a signal (R425 to R427, R437, R438). -/
def State.cnfResult (s : State) (c sig : Nat) (words : List Nat) (collides : Bool) : State :=
  let bip := s.onA CNF.CH_POLARITY 0 c
  let raw := s.cnfRaw c words
  let side := sampleSide words
  let s := if side ≠ 0 then (s.wrBit CNF.OVR c true).raise 0x81 0 else s
  let v := convValue (s.rdA CNF.CH_GAIN 0 c) (s.rdA CNF.CH_OFS 0 c) (if bip then sext 24 raw else raw)
  let ok := (side == 0 || s.onA CNF.CH_OVR_VALID 0 c) && !s.bit CNF.STAT_FROZEN c && !s.bit CNF.STAT_SLICE_FAIL2 c
  s.convSig 0x81 c sig v ok collides

/-- The result that SIG takes, kept in CNF_CHc word 4 too. -/
def State.cnfMain (s : State) (x : CnfSamples) : State :=
  (s.cnfResult x.ch (s.rdA CNF.CH_SIG 0 x.ch) x.words (bitOf x.clash 0)).wrA CNF.CH_RAW 0 x.ch (s.cnfRaw x.ch x.words)

/-- The channel's stream is converted. -/
def State.cnfStream (s : State) (c : Nat) : Bool :=
  s.pageOn 0x81 && !s.cnfScan && s.bit CNF.CTL_EN c && decide (c < 8) && (!s.isCell || decide (c < 2))

/-- The stride results of the stream mode (R437): per channel the mean of the stride and that of the last WIN × 10 ns. -/
def State.cnfStride (s : State) (res : List CnfSamples) : State :=
  (res.filter fun x => s.cnfStream x.ch).foldl (fun s x =>
    (s.cnfMain x).cnfResult x.ch (s.rdA CNF.CH_SIG_END 0 x.ch) (endSamples x.words (s.rdA CNF.CH_WIN 0 x.ch)) (bitOf x.clash 1)) s

/-- SCAN_START (R438). -/
def execScanStart (s : State) : Host.Outcome State Fault Refusal :=
  s.live fun s =>
    match s.meas.due.getD 16 none with
    | none => s
    | some t =>
      if s.on CNF.STAT_SCAN_BUSY || !s.cnfScan || !s.pageOn 0x81 then s
      else
        let chs := (bitList (s.rd CNF.SCAN_MASK) 8).filter fun c => s.bit CNF.CTL_EN c && (!s.isCell || decide (c < 2))
        ((s.advanceTo t).wr CNF.STAT_SCAN_BUSY 1).modMeas fun m =>
          { m with due := setAt m.due 16 none, scanAt := some (max t s.mer.mer), scanChs := chs }

/-- SCAN_DONE (R438): the conversions of the scan, each written at its channel's last sample, and the scan ends. -/
def execScanDone (res : List CnfSamples) (s : State) : Host.Outcome State Fault Refusal :=
  s.live fun s =>
    match s.meas.scanAt with
    | none => s
    | some t0 =>
      let n := s.rd CNF.SCAN_SCAN_N * 4 * ns
      let s := s.meas.scanChs.zipIdx.foldl (fun s c =>
        let s := s.advanceTo (t0 + c.2 * (n + 64 * ns) + n)
        ((res.find? fun x => x.ch == c.1).map s.cnfMain).getD s) s
      ((s.wr CNF.STAT_SCAN_BUSY 0).raise 0x81 5).modMeas fun m => { m with scanAt := none, scanChs := [] }

/-- The spare slice of a channel: neither in service nor failed (R436, R442). -/
def State.spare (s : State) (c : Nat) : Option Nat :=
  (List.range 5).find? fun k => !bitOf (s.rdA CNF.CH_ACTIVE 0 c) k && !bitOf (s.rdA CNF.CH_FAILED 0 c) k

/-- The spare takes the place of a slice in service. -/
def State.swapSlice (s : State) (c old new : Nat) : State :=
  let s := s.wrA CNF.CH_ACTIVE 0 c (putBit (putBit (s.rdA CNF.CH_ACTIVE 0 c) old false) new true)
  s.modMeas fun m =>
    { m with
      slices := modAt m.slices c fun l => (l.filter (· != old)) ++ [new]
      place := modAt m.place c fun l => l.map fun k => if k = old then new else k }

/-- The channel of the next calibration step: the next enabled one whose calibration runs. -/
def State.calNext (s : State) : Option Nat :=
  let c0 := s.rd CNF.STAT_CAL_CH + 1
  ((List.range 8).map fun i => (c0 + i) % 8).find? fun c =>
    s.bit CNF.CTL_EN c && s.rdA CNF.CH_FAILED 0 c == 0 && (!s.isCell || decide (c < 2))

/-- CAL_STEP (R439, R440): the step due PERIOD × 10 µs after the one before (assumption 169); whether the spare could be brought within the
limits, and its corrections. -/
def execCalStep (ok : Bool) (ofs gain skew : Nat) (s : State) : Host.Outcome State Fault Refusal :=
  s.live fun s =>
    let s := s.advanceUp (s.meas.calAt + s.rd CNF.CAL_PERIOD * 10 * us)
    let s := s.modMeas fun m => { m with calAt := s.mer.uptime }
    if s.on CNF.CTL_CAL_HOLD || !s.pageOn 0x81 then s
    else
      match s.calNext with
      | none => s
      | some c =>
        match s.spare c, (s.meas.slices.getD c []).head? with
        | some k, some old =>
          let s := ((s.wr CNF.STAT_CAL_CH c).inc CNF.CNT_CAL_STEPS).raise 0x81 4
          if ok then
            let i := 5 * c + k
            let s := ((s.wrA CNF.SL_OFS 0 i ofs).wrA CNF.SL_GAIN 0 i gain).wrA CNF.SL_SKEW 0 i skew
            (s.swapSlice c old k).wrBit CNF.STAT_CAL_FAULT c false
          else (s.wrBit CNF.STAT_CAL_FAULT c true).raise 0x81 3
        | _, _ => s

/-- FROZEN (R441). -/
def execFrozen (ch : Nat) (s : State) : Host.Outcome State Fault Refusal :=
  s.live fun s =>
    if s.cnfStream ch && !s.bit CNF.STAT_FROZEN ch then
      (((s.wrBit CNF.STAT_FROZEN ch true).inc CNF.CNT_FROZEN_CNT).raise 0x81 1).modMeas fun m =>
        { m with frozeAt := setAt m.frozeAt ch (some s.merNs) }
    else s

/-- FROZEN_END (R441). -/
def execFrozenEnd (ch : Nat) (s : State) : Host.Outcome State Fault Refusal :=
  s.live fun s =>
    if ch < 8 then
      let span := (s.meas.frozeAt.getD ch none).map fun t => (ch, t, s.merNs)
      (s.wrBit CNF.STAT_FROZEN ch false).modMeas fun m =>
        { m with
          frozeAt := setAt m.frozeAt ch none
          frozen := (m.frozen.filter fun x => decide (s.merNs ≤ x.2.2 + 1000000000)) ++ span.toList }
    else s

/-- SLICE_FROZEN (R442). -/
def execSliceFrozen (ch slice : Nat) (s : State) : Host.Outcome State Fault Refusal :=
  s.live fun s =>
    if !s.cnfStream ch || s.bit CNF.STAT_FROZEN ch || !bitOf (s.rdA CNF.CH_ACTIVE 0 ch) slice || bitOf (s.rdA CNF.CH_FAILED 0 ch) slice then s
    else
      let first := s.rdA CNF.CH_FAILED 0 ch == 0
      let t := (s.wrA CNF.CH_FAILED 0 ch (putBit (s.rdA CNF.CH_FAILED 0 ch) slice true)).raise 0x81 2
      let t := (t.raiseIf (!t.bit CNF.STAT_CAL_FAULT ch) 0x81 3).wrBit CNF.STAT_CAL_FAULT ch true
      match first, s.spare ch with
      | true, some k => t.swapSlice ch slice k
      | _, _ => t.wrBit CNF.STAT_SLICE_FAIL2 ch true

/-! Sampled values. -/

/-- A stream beside its registers. -/
def State.svs (s : State) (i : Nat) : SvStream := s.meas.sv.getD i emptySv

/-- A stream changed. -/
def State.modSv (s : State) (i : Nat) (f : SvStream → SvStream) : State := s.modMeas fun m => { m with sv := modAt m.sv i f }

/-- The sample rate of a stream. -/
def State.svRate (s : State) (i : Nat) : Nat := if s.onA SVS.S_RATE 0 i then 14400 else 4800

/-- SCALE of a channel. -/
def State.svScale (s : State) (i ch : Nat) : Nat :=
  s.rdA ([SVS.S_SCALE0, SVS.S_SCALE1, SVS.S_SCALE2, SVS.S_SCALE3, SVS.S_SCALE4, SVS.S_SCALE5, SVS.S_SCALE6].getD ch SVS.S_SCALE7) 0 i

/-- The signal of a channel; 0xFFFF for none. -/
def State.svSig (s : State) (i ch : Nat) : Nat :=
  if s.rdA SVS.S_SIG_BASE 0 i = 0xFFFF then 0xFFFF else s.rdA SVS.S_SIG_BASE 0 i + ch

/-- A stream becomes LOST (R449). -/
def State.svLose (s : State) (i : Nat) : State :=
  if s.bit SVS.STAT_LOST i then s
  else
    let s := (List.range (s.rdA SVS.S_NCH 0 i)).foldl (fun s ch => s.invalidSig (s.svSig i ch)) s
    (((s.wrBit SVS.STAT_LOST i true).wrA SVS.S_STATE 0 i 1).addCntA SVS.CNT_LOSSES 0 i 1).raise 0x82 0

/-- The UTC offset in ns. -/
def State.utcNs (s : State) : Int := sext 16 (s.rd MER.UTC_UTC_OFFSET) * 1000000000

/-- The sample instant of a count (R448): the latest second that puts it at or before the arrival. -/
def State.svTime (s : State) (i cnt arrival : Nat) : Nat :=
  let u : Int := (arrival / ns : Nat) - s.utcNs
  let x : Int := (cnt * 1000000000 / s.svRate i : Nat)
  (((u - x).fdiv 1000000000 * 1000000000 + x + s.utcNs) % (2 ^ 64 : Int)).toNat

/-- The time of an entry is that of its sample: the Meridian anchored and the count synchronised (R448). -/
def State.svSynced (s : State) (synch : Nat) : Bool := (s.rd MER.STAT_STATE == 1 || s.rd MER.STAT_STATE == 2) && synch == 2

/-- A channel of a landing takes VALID 1, the stream's state apart (R446): validity in bits 1:0, test in bit 11 of the quality. -/
def State.svGood (s : State) (i synch q : Nat) : Bool :=
  (bitsOf q 0 2 == 0 || (bitsOf q 0 2 == 3 && s.onA SVS.S_Q_OK 0 i)) && (!bitOf q 11 || s.onA SVS.S_TEST_OK 0 i)
    && (synch == 2 || !s.onA SVS.S_SYNC_REQ 0 i)

/-- An entry put into a stream's ring, and the index (R445). -/
def State.svEntry (s : State) (i cnt flags synch time : Nat) (chans : List (Nat × Nat)) : State :=
  let base := 0x380000 + 0x8000 * i
  let n := s.memLe (base + 0x5000) 4 % 256
  let cs := (List.range 8).flatMap fun c => let x := chans.getD c (0, 0); leBytes 4 x.1 ++ leBytes 4 x.2
  let e := leBytes 2 cnt ++ leBytes 1 flags ++ leBytes 1 synch ++ leBytes 4 0 ++ leBytes 8 time ++ cs
  (s.memPut (base + 80 * n) e).memPutLe (base + 0x5000) 4 ((n + 1) % 256)

/-- A sample that no phasor may use, by its instant in ns (R454). -/
def State.svUnfit (s : State) (i t : Nat) (missing : Bool) : State :=
  s.modSv i fun y => { y with unfit := (y.unfit.filter fun x => decide (t ≤ x.1 + 1000000000)) ++ [(t, missing)] }

/-- A landing's ring entry, index and channel signals (R445, R446), LOST as it stands then. -/
def State.svWrite (s : State) (i : Nat) (x : SvAsdu) (t : Nat) : State :=
  let lost := s.bit SVS.STAT_LOST i
  let good := fun (c : Nat × Nat) => s.svGood i x.smpSynch c.2 && !lost
  let bad := x.chans.any fun c => !good c
  let sync := s.svSynced x.smpSynch
  let flags := 2 * ofBool bad + 4 * ofBool (!sync) + 8 * ofBool (x.chans.any fun c => bitOf c.2 11) + 16 * ofBool lost
  let time := if sync then s.svTime i x.smpCnt t else nsOf t
  let s := s.svEntry i x.smpCnt flags x.smpSynch time x.chans
  let s := (List.range x.chans.length).foldl (fun s ch =>
    let c := x.chans.getD ch (0, 0)
    s.hwSig (s.svSig i ch) (bits32 (mul32 (num32 (s.svScale i ch)) (numInt (sext 32 c.1)))) (good c)) s
  let s := (s.raiseIf (bad && !s.bit SVS.STAT_QUAL_BAD i) 0x82 5).wrBit SVS.STAT_QUAL_BAD i bad
  let s := if bad then (s.addCntA SVS.CNT_QBAD 0 i 1).svUnfit i time false else s
  { s with graph := { s.graph with samples := modAt s.graph.samples i (· + 1) } }

/-- A smpCnt equals the last one of a stream, or lies behind it by less than half the rate (R447). -/
def State.svStall (s : State) (i cnt : Nat) : Bool :=
  (s.svs i).last.any fun l => decide (2 * (((l : Int) - cnt) % (s.svRate i : Int)) < s.svRate i)

/-- An ASDU that matches lands, or is a stall (R445 to R450). -/
def State.svLand (s : State) (i : Nat) (x : SvAsdu) (t : Nat) : State :=
  let r := s.svRate i
  let st := s.svs i
  let gap := match st.last with
    | none => 0
    | some l => (((x.smpCnt : Int) - l - 1) % (r : Int)).toNat
  if s.svStall i x.smpCnt then
    let s := ((s.addCntA SVS.CNT_STALL 0 i 1).raise 0x82 3).modSv i fun y => { y with run := 0, stalls := y.stalls + 1 }
    if 2 ≤ (s.svs i).stalls then s.svLose i else s
  else
    let lost := s.bit SVS.STAT_LOST i
    let miss := (st.last.getD 0 + 1) % r
    let sync := s.svSynced x.smpSynch
    let time := if sync then s.svTime i miss t else nsOf t
    let s := if gap = 1 then
        (((s.svEntry i miss (1 + 4 * ofBool (!sync) + 16 * ofBool lost) x.smpSynch time st.chans).addCntA SVS.CNT_MISS 0 i 1).raise 0x82
          2).svUnfit i time true
      else if 2 ≤ gap then s.svLose i else s
    let run := if gap = 0 then st.run + 1 else 1
    let back := lost && decide (s.rd SVS.TOL_REQUAL ≤ run)
    let s := if back then ((s.wrBit SVS.STAT_LOST i false).wrA SVS.S_STATE 0 i 0).raise 0x82 1 else s
    let s := (s.svWrite i x t).wrA SVS.S_LAST_CNT 0 i x.smpCnt
    s.modSv i fun y => { y with last := some x.smpCnt, chans := x.chans, lastAt := s.mer.uptime, run := run, stalls := 0, wrong := none }

/-- An ASDU received for a stream whose MAC address and APPID match (R444). -/
def State.svAsdu (s : State) (i : Nat) (x : SvAsdu) (t : Nat) : State :=
  if crc32 x.svId ≠ s.rdA SVS.S_ID_CRC 0 i ∨ x.svId.length ≠ s.rdA SVS.S_ID_LEN 0 i then s
  else
    let x := { x with smpCnt := x.smpCnt % s.svRate i }
    if x.confRev = s.rdA SVS.S_CONFREV 0 i ∧ x.chans.length = s.rdA SVS.S_NCH 0 i then s.svLand i x t
    else if (s.svs i).wrong = some (x.confRev, x.chans.length) then s
    else ((s.addCntA SVS.CNT_CFG_MM 0 i 1).raise 0x82 4).modSv i fun y => { y with wrong := some (x.confRev, x.chans.length) }

/-- A sampled-value stream that a frame matches in port, tag (`vid`; SVS_S VLAN_EN and VID say what the stream expects), address, APPID and the svID of
one of its ASDUs (R443, R444). -/
def State.svMatches (s : State) (i port : Nat) (vid : Option Nat) (mac appid : Nat) (asdus : List SvAsdu) : Bool :=
  s.pageOn 0x82 && s.bit SVS.CTL_EN i && s.rdA SVS.S_PORT 0 i == port && s.rdA SVS.S_MAC_LO 0 i + 2 ^ 32 * s.rdA SVS.S_MAC_HI 0 i == mac
    && s.rdA SVS.S_APPID 0 i == appid && vid == (if s.onA SVS.S_VLAN_EN 0 i then some (s.rdA SVS.S_VID 0 i) else none)
    && asdus.any fun x => crc32 x.svId == s.rdA SVS.S_ID_CRC 0 i && x.svId.length == s.rdA SVS.S_ID_LEN 0 i

/-- A frame that waits to be received brings a stream, in the cycle of instant `t`, an ASDU that lands (R450). -/
def State.svComes (s : State) (i t : Nat) : Instr → Bool
  | .ethFrameRx port t' (.sv vid mac appid asdus) =>
    sameCycle cyc500 t t' && s.svMatches i port vid mac appid asdus && asdus.any fun x =>
      crc32 x.svId == s.rdA SVS.S_ID_CRC 0 i && x.svId.length == s.rdA SVS.S_ID_LEN 0 i && x.confRev == s.rdA SVS.S_CONFREV 0 i
        && x.chans.length == s.rdA SVS.S_NCH 0 i && !s.svStall i (x.smpCnt % s.svRate i)
  | _ => false

/-- SV_LOST (R449): the watchdog of a stream expires, unless an ASDU lands in the same cycle (R450). -/
def execSvLost (stream : Nat) (s : State) : Host.Outcome State Fault Refusal :=
  s.live fun s =>
    if s.pageOn 0x82 && s.bit SVS.CTL_EN stream && !s.bit SVS.STAT_LOST stream && decide (stream < 16) then
      let w := (s.rdA SVS.S_NASDU 0 stream + 1) * (sec / s.svRate stream) + s.rd SVS.TOL * us
      let s := s.advanceUp ((s.svs stream).lastAt + w)
      if s.pending.any (s.svComes stream s.mer.mer) then s else s.svLose stream
    else s

/-! Synchrophasors. -/

/-- The bound of HO_EST among powers of ten from 1 ns (R455): the smallest c with 10^(c−1) ns at or above it. -/
def timeQuality (est : Nat) : Nat := (((List.range 11).find? fun c => decide (est ≤ 10 ^ c)).map (· + 1)).getD 15

/-- Bits 8:6 of STAT in HOLDOVER (Table 12-9). -/
def statQuality (est : Nat) : Nat := (((List.range 5).find? fun c => decide (est ≤ 1000 * 10 ^ c)).map (· + 2)).getD 7

/-- Bits 5:4 of STAT (Table 12-9). -/
def State.unlockTime (s : State) : Nat :=
  let d := s.mer.uptime - s.mer.hoStart
  if s.rd MER.STAT_STATE = 1 then 0 else if d < 10 * sec then 0 else if d < 100 * sec then 1 else if d < 1000 * sec then 2 else 3

/-- The time status of the PMU brought up to date (PMU_STAT, R458), and a leap noted where the UTC offset has moved. -/
def State.showPmu (s : State) : State :=
  if !s.pageOn 0x83 then s
  else
    let st := s.rd MER.STAT_STATE
    let locked := st == 1
    let was := s.on PMU.STAT_SYNC
    let s := (s.raiseIf (locked && !was) 0x83 1).raiseIf (!locked && was) 0x83 0
    let q := if locked then 0 else if st = 2 then timeQuality (s.rd MER.HO_EST_EST_NS) else 15
    let s := ((s.wr PMU.STAT_SYNC (ofBool locked)).wr PMU.STAT_TQ q).wr PMU.STAT_UNLOCK_T s.unlockTime
    let u := s.rd MER.UTC_UTC_OFFSET
    let d := sext 16 u - sext 16 s.meas.utc
    s.modMeas fun m => { m with utc := u, leapAt := if d = 1 ∨ d = -1 then some s.mer.uptime else m.leapAt, leapNeg := if d = -1 then true else if d = 1 then false else m.leapNeg }

/-- The kind of a source byte: 0 fast converter, 1 sampled value (R451). -/
def State.srcKind (s : State) (b : Nat) : Option Nat :=
  if b < 8 then (if s.cnfScan then none else some 0) else if 0x80 ≤ b then some 1 else none

/-- The sources of a channel are of one kind and can be estimated from (R451). -/
def State.pmuSrcOk (s : State) (c : Nat) : Bool :=
  let k := s.srcKind (s.rdA PMU.CH_SRC_A 0 c)
  k.isSome && (!s.onA PMU.CH_SEQ 0 c || (s.srcKind (s.rdA PMU.CH_SRC_B 0 c) == k && s.srcKind (s.rdA PMU.CH_SRC_C 0 c) == k))

/-- The channel is in use. -/
def State.pmuUsed (s : State) (c : Nat) : Bool := s.onA PMU.CH_PUB 0 c || s.rdA PMU.CH_SIG_BASE 0 c != 0xFFFF

/-- SRC_INVALID of channels whose sources have become invalid. -/
def State.pmuSources (s : State) : State :=
  (List.range 16).foldl (fun s c =>
    let bad := s.pmuUsed c && !s.pmuSrcOk c
    let s := if bad && !bitOf s.meas.pmuInv c then (s.inc PMU.CNT_SRC_INV).raise 0x83 3 else s
    s.modMeas fun m => { m with pmuInv := putBit m.pmuInv c bad }) s

/-- An estimate that was not formed. -/
def noPhasor : Phasor := { mag := 0, ang := 0, freq := 0, rocof := 0, out := true }

/-- The magnitude with SCALE. -/
def State.pmuMag (s : State) (c : Nat) (p : Phasor) : Num := mul32 (num32 p.mag) (num32 (s.rdA PMU.CH_SCALE 0 c))

/-- A number in a 16-bit field, unsigned or signed: free where it lies outside the format. -/
def State.pmuField (s : State) (signed : Bool) (x : Num) : Nat :=
  let lo : Int := if signed then -32768 else 0
  let hi : Int := if signed then 32767 else 65535
  if x.isFinite ∧ lo ≤ x.nearest ∧ x.nearest ≤ hi then wrapTo 16 x.nearest else Config.pmuInt s.freeCtr % 65536

/-- The filter length of a channel in ns (Table 12-7). -/
def State.pmuLen (s : State) (c : Nat) : Nat :=
  if s.onA PMU.CH_CLASS 0 c then 4 * 1000000000 / s.rd PMU.CFG_FS else 2 * 1000000000 / (if s.on PMU.CFG_F_NOM then 60 else 50)

/-- Some instant from `a` to `b`, in ns, lies in a channel's filter window about the report instant `r`. -/
def State.inWindow (s : State) (c : Nat) (r : Int) (a b : Nat) : Bool :=
  decide (2 * ((a : Int) - r) ≤ s.pmuLen c ∧ 2 * (r - b) ≤ s.pmuLen c)

/-- The sources that a channel is estimated from (R451). -/
def State.pmuFrom (s : State) (c : Nat) : List Nat :=
  s.rdA PMU.CH_SRC_A 0 c :: if s.onA PMU.CH_SEQ 0 c then [s.rdA PMU.CH_SRC_B 0 c, s.rdA PMU.CH_SRC_C 0 c] else []

/-- The window holds a sampled value that was MISSING (Table 12-9). -/
def State.pmuMissing (s : State) (c : Nat) (r : Int) : Bool :=
  (s.pmuFrom c).any fun b => decide (0x80 ≤ b) && (s.svs (b % 128 / 8)).unfit.any fun x => x.2 && s.inWindow c r x.1 x.1

/-- The window holds a sample of a FROZEN channel, or a sampled value that was MISSING, QUAL_BAD or LOST (R454). -/
def State.pmuUnfit (s : State) (c : Nat) (r : Int) : Bool :=
  (s.pmuFrom c).any fun b =>
    if b < 8 then
      s.meas.frozen.any (fun x => x.1 == b && s.inWindow c r x.2.1 x.2.2)
        || (s.meas.frozeAt.getD b none).any fun t => s.inWindow c r t s.merNs
    else s.bit SVS.STAT_LOST (b % 128 / 8) || (s.svs (b % 128 / 8)).unfit.any fun x => s.inWindow c r x.1 x.1

/-- The window holds a Meridian step (R454). -/
def State.pmuStepped (s : State) (c : Nat) (r : Int) : Bool := s.meas.step.any fun x => s.inWindow c r x.1 x.1 || s.inWindow c r x.2 x.2

/-- The data error of a channel's phasor for the report instant `r` (R454). -/
def State.pmuErr (s : State) (c : Nat) (r : Int) (p : Phasor) : Nat :=
  if s.pmuStepped c r then 3 else if p.out || bitOf s.meas.pmuInv c || s.pmuUnfit c r then 1 else 0

/-- A phasor's bytes in a data frame (Table 12-8). -/
def State.pmuPhasor (s : State) (c : Nat) (p : Phasor) : Bytes :=
  let m := s.pmuMag c p
  let a := num32 p.ang
  let re := mul32 m (cos32 a)
  let im := mul32 m (sin32 a)
  let u := num32 (s.rdA PMU.CH_PHUNIT 0 c)
  match s.on PMU.CFG_FMT_FLOAT, s.on PMU.CFG_FMT_POLAR with
  | true, true => beBytes 4 (bits32 m) ++ beBytes 4 p.ang
  | true, false => beBytes 4 (bits32 re) ++ beBytes 4 (bits32 im)
  | false, true => beBytes 2 (s.pmuField false (m.div u)) ++ beBytes 2 (s.pmuField true (a.mul (numNat 10000)))
  | false, false => beBytes 2 (s.pmuField true (re.div u)) ++ beBytes 2 (s.pmuField true (im.div u))

/-- FRACSEC's upper byte (Table 12-8). -/
def State.pmuQual (s : State) : Nat :=
  let l59 := s.on MER.UTC_LEAP59
  let pend := l59 || s.on MER.UTC_LEAP61
  let occ := s.meas.leapAt.any fun t => decide (s.mer.uptime < t + 86400 * sec)
  64 * ofBool pend + 32 * ofBool occ + 16 * ofBool (if pend then l59 else occ && s.meas.leapNeg) + s.rd PMU.STAT_TQ

/-- STAT (Table 12-9), with the data errors of the phasors and whether one had a MISSING sample. -/
def State.pmuStat (s : State) (errs : List Nat) (missing : Bool) : Nat :=
  let st := s.rd MER.STAT_STATE
  let err := if s.on PMU.CTL_TEST then 2 else errs.foldl max 0
  let q := if st = 1 then 1 else if st = 2 then statQuality (s.rd MER.HO_EST_EST_NS) else 7
  err * 2 ^ 14 + ofBool (st != 1) * 2 ^ 13 + s.rd PMU.CTL_CFG_CHG * 2 ^ 10 + ofBool missing * 2 ^ 9 + q * 64
    + s.rd PMU.STAT_UNLOCK_T * 16

/-- The data frame of report `n`, counted in reports since UTC second 0 (R453, R455). -/
def State.pmuFrame (s : State) (n : Nat) (est : List Phasor) : Bytes :=
  let chs := (List.range 16).filter fun c => s.onA PMU.CH_PUB 0 c
  let ph := fun (c : Nat) => if bitOf s.meas.pmuInv c then noPhasor else est.getD c noPhasor
  let fq := ph (s.rd PMU.CFG_FREQ_CH)
  let fs := s.rd PMU.CFG_FS
  let r : Int := (n * 1000000000 / fs : Nat) + s.utcNs
  let stat := s.pmuStat (chs.map fun c => s.pmuErr c r (ph c)) (chs.any fun c => s.pmuMissing c r)
  let nom := if s.on PMU.CFG_F_NOM then 60 else 50
  let fr := if s.on PMU.CFG_FREQ_FLOAT then beBytes 4 fq.freq ++ beBytes 4 fq.rocof
    else beBytes 2 (s.pmuField true (((num32 fq.freq).sub (numNat nom)).mul (numNat 1000)))
      ++ beBytes 2 (s.pmuField true ((num32 fq.rocof).mul (numNat 100)))
  let body := beBytes 2 (s.rd PMU.IDCODE) ++ beBytes 4 (n / fs) ++ beBytes 1 s.pmuQual
    ++ beBytes 3 (n % fs * s.rd PMU.TBASE_TIME_BASE / fs) ++ beBytes 2 stat
    ++ (chs.flatMap fun c => s.pmuPhasor c (ph c)) ++ fr
  let f := beBytes 2 (0xAA00 + s.rd PMU.CTL_VERSION) ++ beBytes 2 (body.length + 6) ++ body
  f ++ beBytes 2 (crc16 f)

/-- The ones' complement sum of 16-bit words (IPv4 header checksum). -/
def ipSum (bs : Bytes) : Nat :=
  let t := (List.range (bs.length / 2)).foldl (fun a i => a + beAt bs (2 * i) 2) 0
  let t := t % 65536 + t / 65536
  65535 - (t % 65536 + t / 65536)

/-- A UDP datagram over IPv4, the UDP checksum 0 (R455, R482). -/
def udpPacket (src dst sport dport : Nat) (data : Bytes) : Bytes :=
  let len := data.length + 28
  let hd := fun (sum : Nat) => beBytes 1 0x45 ++ beBytes 1 (Config.ipFill 0) ++ beBytes 2 len ++ beBytes 2 (Config.ipFill 1)
    ++ beBytes 2 (Config.ipFill 2) ++ beBytes 1 (Config.ipFill 3) ++ beBytes 1 17 ++ beBytes 2 sum ++ beBytes 4 src ++ beBytes 4 dst
  hd (ipSum (hd 0)) ++ beBytes 2 sport ++ beBytes 2 dport ++ beBytes 2 (data.length + 8) ++ beBytes 2 0 ++ data

/-- UTC nanoseconds of the Meridian. -/
def State.utcNow (s : State) : Nat := ((s.merNs : Int) - s.utcNs).toNat

/-- PMU_REPORT (R453 to R455): the estimates per channel for the report instant `ago` reports before the latest; the frame left late. -/
def execPmuReport (est : List Phasor) (ago : Nat) (late : Bool) (s : State) : Host.Outcome State Fault Refusal :=
  s.live fun s =>
    if !s.pageOn 0x83 then s
    else
      let s := s.showPmu.pmuSources
      if s.on PMU.CTL_RUN && s.rd MER.STAT_STATE != 0 then
        let n := s.utcNow * s.rd PMU.CFG_FS / 1000000000 - ago
        let vlan := if s.rd PMU.NET_VID = 0 then none else some (s.rd PMU.NET_VID)
        let port := s.rd PMU.CFG_PORT
        let pkt := udpPacket (s.rd PMU.NET_SRC_IP) (s.rd PMU.NET_DST_IP) (s.rd PMU.NET_SPORT) (s.rd PMU.NET_DPORT) (s.pmuFrame n est)
        let head := s.etherHead port (s.rd PMU.NET_DMAC_LO) (s.rd PMU.NET_DMAC_HI) vlan 0x0800
        let s := (s.nextFree.queueFrame port 3 (head ++ pkt)).inc PMU.CNT_FRAMES
        if late then (s.inc PMU.CNT_TX_LATE).raise 0x83 2 else s
      else s

/-- The latest instant of the internal records whose windows have closed, in ns (R457): aligned to the UTC second, or to the Meridian's while
it is UNANCHORED. -/
def State.pmuIntAt (s : State) (c : Nat) : Int :=
  let o := if s.rd MER.STAT_STATE = 0 then 0 else s.utcNs
  let u := (s.merNs : Int) - o - s.pmuLen c / 2
  u * s.rd PMU.CFG_INT_RATE / 1000000000 * 1000000000 / s.rd PMU.CFG_INT_RATE + o

/-- PMU_INT_RECORD (R457). -/
def execPmuIntRecord (est : List Phasor) (s : State) : Host.Outcome State Fault Refusal :=
  s.live fun s =>
    if !s.pageOn 0x83 || s.rd PMU.CFG_INT_RATE == 0 then s
    else
      let s := s.showPmu.pmuSources
      ((List.range 16).filter fun c => s.rdA PMU.CH_SIG_BASE 0 c != 0xFFFF).foldl (fun s c =>
        let p := est.getD c noPhasor
        let ok := s.pmuErr c (s.pmuIntAt c) p == 0
        let b := s.rdA PMU.CH_SIG_BASE 0 c
        (((s.hwSig b (bits32 (s.pmuMag c p)) ok).hwSig (b + 1) p.ang ok).hwSig (b + 2) p.freq ok).hwSig (b + 3) p.rocof ok) s

end Sys2Proof.Machine
end

