-- ==== Sys2Proof/Machine/Triangulation.lean ====
section
/-! DEFINITION. Triangulation (R477 to R484): fronts, their FIFO, single-ended and double-ended location, and the peer exchange. -/

namespace Sys2Proof.Machine

/-- Triangulation changed. -/
def State.modTri (s : State) (f : TriState → TriState) : State := { s with tri := f s.tri }

/-- A front record (Table 13-6). -/
def Front.bytes (x : Front) : Bytes :=
  leBytes 8 (nsOf x.time) ++ leBytes 2 x.time ++ leBytes 1 x.det ++ leBytes 1 (ofBool x.neg + 2 * ofBool x.after + 4 * ofBool x.sent)
    ++ leBytes 2 x.peak ++ leBytes 1 x.rise ++ leBytes 1 x.epoch

/-- TRI_FIFO.COUNT and TRI_FRONT_POP show the FIFO. -/
def State.showFronts (s : State) : State :=
  let b := (s.tri.fifo.head?.map Front.bytes).getD []
  (List.range 4).foldl (fun s i => s.wrA TRI.FRONT_POP_ENTRY 0 i (leAt b (4 * i) 4)) (s.wr TRI.FIFO_COUNT s.tri.fifo.length)

/-- A front stored, or lost in a full FIFO (R479). -/
def State.storeFront (s : State) (x : Front) : State :=
  if s.tri.fifo.length < 64 then
    (s.modTri fun y => { y with fifo := y.fifo ++ [{ x with after := y.lost }], lost := false }).showFronts
  else (((s.modTri fun y => { y with lost := true }).wr TRI.FIFO_OVF 1).inc TRI.FIFO_LOST).raise 0x89 1

/-- The line's length and the propagation velocity. -/
def State.triL (s : State) : Num := num32 (s.rd TRI.LINE_L)

/-- The propagation velocity in m/ns. -/
def State.triV (s : State) : Num := num32 (s.rd TRI.VEL_V)

/-- A difference of two Meridian instants in ns. -/
def nsBetween (a b : Nat) : Num := (numInt ((a : Int) - b)).scale2 (-16)

/-- The single-ended candidates of R480. -/
def State.singleEnded (s : State) (x : Front) : State :=
  if !s.on TRI.CTL_SE_EN then s.modTri fun y => { y with first := none }
  else
    let w := (numNat 2).mul (s.triL.div s.triV)
    match s.tri.first with
    | none => begin s x
    | some f =>
      if !(nsBetween x.time f.time).le w then begin s x
      else
        let n := s.rd TRI.RES_SE_N
        let strong := decide (s.rdA TRI.DET_SE_RATIO 0 x.det * f.peak ≤ 256 * x.peak)
        let same := !s.onA TRI.DET_SE_SAME 0 x.det || f.neg == x.neg
        if n < 3 && strong && same then
          (s.wrA TRI.RES_X_SE 0 n (bits32 ((s.triV.mul (nsBetween x.time f.time)).scale2 (-1)))).wr TRI.RES_SE_N (n + 1)
        else s
where
  /-- A front that later ones may reflect. -/
  begin (s : State) (x : Front) : State := (s.modTri fun y => { y with first := some x }).wr TRI.RES_SE_N 0

/-- A peer front matches a local one: |tA − tB| at most L / v + MARGIN (R483). -/
def State.peerMatches (s : State) (ta tb : Nat) : Bool :=
  (nsBetween ta tb).abs.le ((s.triL.div s.triV).add (numNat (s.rd TRI.WIN_MARGIN * 1000)))

/-- The double-ended location of a local front and a peer front (R483). -/
def State.doubleEnded (s : State) (ta tb peerState : Nat) : State :=
  let x := (s.triL.add (s.triV.mul (nsBetween ta tb))).scale2 (-1)
  let d := divNearestEven ((ta : Int) - tb) 32768
  let dt := if satInt 32 d = d then wrapTo 32 d else Config.triDt d
  let s := (((s.wr TRI.RES_X_DE (bits32 x)).wr TRI.RES_DT dt).wr TRI.RES_DE_VALID 1).wrB TRI.RES_OUT_OF_LINE (!(Num.zero.le x && x.le s.triL))
  let s := s.wrB TRI.RES_UNSYNC (s.rd MER.STAT_STATE != 1 || peerState != 1)
  ((s.wrA TRI.RES_TA 0 0 (nsOf ta)).wrA TRI.RES_TA 0 1 (nsOf ta / 2 ^ 32)).raise 0x89 2

/-- The payload of Table 13-7 with its tag (R481, R577). -/
def State.peerPayload (s : State) (key : Bytes) (seq : Nat) (x : Front) : Bytes :=
  let ns := nsOf x.time
  let body := beBytes 2 0x5401 ++ beBytes 2 (s.rd TRI.PEER_LINE_ID) ++ beBytes 4 seq ++ beBytes 6 (ns / 1000000000)
    ++ beBytes 4 (ns % 1000000000) ++ beBytes 2 x.time ++ beBytes 1 x.epoch ++ beBytes 1 (s.rd MER.STAT_STATE + 4 * ofBool x.neg)
    ++ beBytes 2 x.peak ++ List.replicate 8 0
  let nonce := beBytes 2 0x5401 ++ beBytes 2 (s.rd TRI.PEER_LINE_ID) ++ beBytes 4 seq ++ beBytes 4 (s.rd TRI.PEER_SRC_IP)
  body ++ sliceBytes (Config.gmac key nonce body) 0 8

/-- PEER_SEND (R481): a front sent to the peer, to be repeated twice, 1 ms apart. -/
def State.peerSend (s : State) (x : Front) : State :=
  match s.slotKey (s.rd TRI.PEER_KEY_IDX) 3 with
  | none => s
  | some key =>
    let seq := (s.tri.sent + 1) % 2 ^ 32
    let port := s.rd TRI.CTL_PORT
    let pkt := udpPacket (s.rd TRI.PEER_SRC_IP) (s.rd TRI.PEER_DST_IP) (s.rd TRI.PEER_SPORT) (s.rd TRI.PEER_DPORT) (s.peerPayload key seq x)
    let f := s.etherHead port (s.rd TRI.PEER_DMAC_LO) (s.rd TRI.PEER_DMAC_HI) none 0x0800 ++ pkt
    (s.modTri fun y => { y with sent := seq, again := y.again ++ [(s.mer.uptime + ms, 2, port, f)] }).queueFrame port 2 f

/-- The local front waits for its peer's, or is located at once (R483). -/
def State.seekPeer (s : State) (ta : Nat) : State :=
  let l := s.tri.peers.filter fun p => s.peerMatches ta p.1
  match l with
  | [] => s.modTri fun y => { y with waits := y.waits ++ [(ta, s.mer.uptime + 10 * ms - (s.mer.mer - ta))] }
  | p :: ps =>
    let b := ps.foldl (fun a c => if c.1 < a.1 then c else a) p
    s.doubleEnded ta b.1 b.2

/-- The front instant (R478): the crossing of THR between a sample 4 ns before `t` and the one at `t`, to the nearest 0.5 ns. -/
def frontTime (t d0 d1 thr : Nat) : Nat :=
  (divNearestEven (((t : Int) - 4 * ns) * (d1 - d0 : Nat) + 4 * ns * ((thr : Int) - d0)) (32768 * (d1 - d0))).toNat * 32768

/-- The detector's input at each sample (R477). -/
def State.detInput (s : State) (det : Nat) (a b : List Nat) : List Int :=
  let m := s.rdA TRI.DET_MODE 0 det
  (List.range a.length).map fun i =>
    let x := s.cnfCode (s.rdA TRI.DET_CH_A 0 det) (a.getD i 0)
    let y := s.cnfCode (s.rdA TRI.DET_CH_B 0 det) (b.getD i 0)
    if m = 1 then x - y else if m = 2 then x + y else x

/-- FRONT (R477 to R481): sample words of CH_A and CH_B in the order of time, from SPAN + 1 samples before the one at Meridian instant `t`
to 63 after it, and the µs for which |d| had stayed at or below THR with no sample over range or frozen. -/
def execFront (det : Nat) (a b : List Nat) (t quiet : Nat) (s : State) : Host.Outcome State Fault Refusal :=
  s.live fun s =>
    let s := s.advanceTo t
    let span := s.rdA TRI.DET_SPAN 0 det
    let y := s.detInput det a b
    let d := fun (i : Nat) => y.getD (i + span) 0 - y.getD i 0
    let thr := s.rdA TRI.DET_THR 0 det
    let one := s.rdA TRI.DET_MODE 0 det == 0
    let ovr := (a.take (span + 2)).any (fun w => bitOf w 14) || (!one && (b.take (span + 2)).any fun w => bitOf w 14)
    let pol := if d 1 < 0 then s.onA TRI.DET_POL_NEG 0 det else s.onA TRI.DET_POL_POS 0 det
    let froze := s.bit CNF.STAT_FROZEN (s.rdA TRI.DET_CH_A 0 det) || (!one && s.bit CNF.STAT_FROZEN (s.rdA TRI.DET_CH_B 0 det))
    if !s.pageOn 0x89 || !s.on TRI.CTL_EN || s.cnfScan || decide (8 ≤ det) || ovr || froze || !pol
      || decide (quiet < s.rdA TRI.DET_QUIET 0 det) || decide ((d 1).natAbs ≤ thr) || decide (thr < (d 0).natAbs) then s
    else
      let peak := (List.range 64).foldl (fun (m : Nat × Nat) i => if m.1 < (d (i + 1)).natAbs then ((d (i + 1)).natAbs, i + 1) else m) (0, 0)
      let loc := s.rd TRI.CTL_DE_DET == det
      let send := loc && s.on TRI.CTL_PEER_EN
      let x : Front := { time := frontTime t (d 0).natAbs (d 1).natAbs thr, det := det, neg := decide (d 1 < 0), after := false, sent := send
                         peak := satNat 16 peak.1, rise := peak.2, epoch := s.rd MER.STAT_EPOCH }
      let s := ((s.patBit (48 + det) true).raise 0x89 0).storeFront x
      let s := if loc then s.singleEnded x else s
      if send then (s.peerSend x).seekPeer x.time else s

/-- PEER_RESEND (R481): the datagram that is due is sent again. -/
def execPeerResend (s : State) : Host.Outcome State Fault Refusal :=
  s.live fun s =>
    match s.tri.again with
    | [] => s
    | (due, left, port, f) :: rest =>
      let s := (s.advanceUp due).queueFrame port 2 f
      let more := if left ≤ 1 then [] else [(due + ms, left - 1, port, f)]
      s.modTri fun y => { y with again := (rest.takeWhile fun r => decide (r.1 ≤ due + ms)) ++ more ++ (rest.dropWhile fun r => decide (r.1 ≤ due + ms)) }

/-- The head front removed (R479). -/
def State.frontPop (s : State) : State := (s.modTri fun y => { y with fifo := y.fifo.drop 1 }).showFronts

/-- FRONT_POP (R479): a read of TRI_FRONT_POP word 3. -/
def execFrontPop (s : State) : Host.Outcome State Fault Refusal :=
  s.live fun s => s.busRead 0x89 0x10C fun s => (s.emit (.readData 0x89 0x10C (s.rdA TRI.FRONT_POP_ENTRY 0 3))).frontPop

/-- A peer front message received (R482): the payload and the sender's address. -/
def State.peerRx (s : State) (src : Nat) (p : Bytes) : State :=
  let seq := beAt p 4 4
  match s.slotKey (s.rd TRI.PEER_KEY_IDX) 3 with
  | none => (s.inc TRI.CNT_AUTH_FAIL).raise 0x89 4
  | some key =>
    let nonce := sliceBytes p 0 8 ++ beBytes 4 src
    if sliceBytes (Config.gmac key nonce (sliceBytes p 0 32)) 0 8 ≠ sliceBytes p 32 8 then (s.inc TRI.CNT_AUTH_FAIL).raise 0x89 4
    else if beAt p 2 2 ≠ s.rd TRI.PEER_LINE_ID ∨ seq ≤ s.tri.last then s
    else
      let tb := (beAt p 8 6 * 1000000000 + beAt p 14 4) * ns + beAt p 18 2
      let st := beAt p 21 1 % 4
      let s := (s.modTri fun y => { y with last := seq, peers := y.peers ++ [(tb, st)] }).inc TRI.CNT_PEER_RX
      let hit := s.tri.waits.filter fun w => s.peerMatches w.1 tb
      let s := s.modTri fun y => { y with waits := y.waits.filter fun w => !s.peerMatches w.1 tb }
      hit.foldl (fun s w => s.doubleEnded w.1 tb st) s

/-- A write of SVY_CTL.DISARM (R464, R475): the record in progress is discarded; with CELLS the hub goes on setting SURVEY_ARM until its
broadcast to a ring is complete. -/
def State.svyDisarm (s : State) : State :=
  let rings := (List.range 48).filter fun r => bitOf (s.rd SVY.RINGS_LO + 2 ^ 32 * s.rd SVY.RINGS_HI) r && s.inService r
  if s.isHub && s.on SVY.CTL_CELLS then
    let s := (s.modSvy fun v => { v with disarm := rings.filter s.armsCells }).svyIdle
    rings.foldl (fun s r => s.broadcastWrite r 0x88 0x040 2) s
  else s.svyIdle

/-- DISARM (R475). -/
def execDisarm (s : State) : Host.Outcome State Fault Refusal :=
  s.live fun s => s.actWrite 0x88 0x040 2 fun s => s.svyDisarm

end Sys2Proof.Machine
end

