-- ==== Sys2Proof/Machine/Ethernet.lean ====
section
/-! DEFINITION. The Ethernet ports (R668 to R671): the engine that a received frame goes to, the order of sending, and the link. -/

namespace Sys2Proof.Machine

/-- A Pdelay_Req is answered (R62): in one step, or by two messages, as PTP_CFG orders. -/
def State.pdelayAnswer (s : State) (e port seq rx : Nat) : State :=
  s.queueTx { port := port, engine := 1, data := [], resp := some { twoStep := s.onI PTP.CFG_TWO_STEP_RESP e, engine := e, seq := seq, rx := rx } }

/-- A PTP message taken by an engine; a Pdelay_Req is answered (R62). -/
def State.ptpTake (s : State) (e port t : Nat) (auth : PtpAuth) (msg : PtpMsg) : State :=
  let a := s.ptpAuth auth
  let s := s.ptpMessage e t a msg
  match msg with
  | .pdelayReq seq => if s.ptpBarred e a then s else s.pdelayAnswer e port seq t
  | _ => s

/-- The EtherType of a frame and what follows it, past a VLAN tag. -/
def etherBody (data : Bytes) : Nat × Bytes :=
  if beAt data 12 2 = 0x8100 then (beAt data 16 2, data.drop 18) else (beAt data 12 2, data.drop 14)

/-- A UDP datagram over IPv4, unfragmented: source and destination addresses, destination port, payload. -/
def udpOf (p : Bytes) : Option (Nat × Nat × Nat × Bytes) :=
  let h := beAt p 0 1 % 16 * 4
  let u := p.drop h
  if beAt p 0 1 / 16 ≠ 4 ∨ beAt p 9 1 ≠ 17 ∨ beAt p 6 2 % 16384 ≠ 0 ∨ p.length < h + 8 then none
  else some (beAt p 12 4, beAt p 16 4, beAt u 2 2, (u.take (beAt u 4 2)).drop 8)

/-- A PMU command frame delivered to its host ring in entries of 64 bytes (R456). -/
def State.pmuCommand (s : State) (p : Bytes) : State :=
  let r := s.rd PMU.IDCODE_HST
  let s := if s.rdA HIF.HST_USE 0 r = 5 then
      (List.range (ceilDiv p.length 64)).foldl (fun s i => s.hstPush r (sliceBytes p (64 * i) 64)) s
    else s
  s.raise 0x83 4

/-- A frame that no external standard spells, given to the first engine that it matches: the state, or none. -/
def State.rawTake (s : State) (port t : Nat) (data : Bytes) : Option State :=
  let (ty, p) := etherBody data
  if ty = 0x88B5 then
    if port = 0 ∨ port = 2 then
      ((List.range 8).find? fun c => s.consumes c && s.rdA SEM.CONN_CONN_ID 0 c == beAt p 0 2).map fun c => s.semRx c (port / 2) t p
    else none
  else if ty = 0x0800 then
    match udpOf p with
    | none => none
    | some (src, dst, dport, u) =>
      if s.pageOn 0x83 && s.rd PMU.CFG_PORT == port && dst == s.rd PMU.NET_SRC_IP && dport == s.rd PMU.NET_SPORT
          && beAt u 0 1 == 0xAA && bitsOf (beAt u 1 1) 4 3 == 4 then some (s.pmuCommand u)
      else if s.pageOn 0x89 && s.on TRI.CTL_PEER_EN && s.rd TRI.CTL_PORT == port && dst == s.rd TRI.PEER_SRC_IP
          && dport == s.rd TRI.PEER_SPORT && beAt u 0 2 == 0x5401 && decide (40 ≤ u.length) then some (s.peerRx src u)
      else none
  else none

/-- A frame given to the first engine whose match it meets (R669), or none. -/
def State.etherTake (s : State) (port t : Nat) : EthFrame → Option State
  | .ptp vid domain auth msg => ([0, 1].find? fun e => s.ptpBound e port vid domain).map fun e => s.ptpTake e port t auth msg
  | .sv vid mac appid asdus =>
    ((List.range 16).find? fun i => s.svMatches i port vid mac appid asdus).map fun i => asdus.foldl (fun s x => s.svAsdu i x t) s
  | .raw data => s.rawTake port t data
  | _ => none

/-- What a frame that waits to be received before the end of the present safety cycle would make of the state (R541, R546). -/
def State.safAhead (s : State) : Instr → Option State
  | .ethFrameRx port t (.raw data) =>
    if s.mer.uptime + (t - s.mer.mer) ≤ s.saf.lastAt + safCycle * ns then s.rawTake port t data else none
  | _ => none

/-- CONN_LOST (R546): no copy accepted for WDOG, nor one in the cycle in which the watchdog expires. -/
def execConnLost (conn : Nat) (s : State) : Host.Outcome State Fault Refusal :=
  s.live fun s =>
    if s.consumes conn && s.bit SEM.STAT_CONN_UP conn && decide (conn < 8) then
      let s := s.advanceUp ((s.semConn conn).okAt + s.rdA SEM.CONN_WDOG 0 conn * ms)
      if s.pending.any fun i => (s.safAhead i).any fun u => (u.semConn conn).okAt != (s.semConn conn).okAt then s else s.semLost conn
    else s

/-- A command that waits clears the class D faults in the present safety cycle: its end, or a frame of a lost network. -/
def State.degrClears (s : State) : Instr → Bool
  | .safetyCycle .. => !((List.range 8).foldl State.evalPair s).classD
  | i => (s.safAhead i).any fun u => !u.classD

/-- DEGR_TIMEOUT (R541): T_degr has elapsed; a fault that clears in this cycle counts as cleared. -/
def execDegrTimeout (s : State) : Host.Outcome State Fault Refusal :=
  s.live fun s =>
    if s.rd SAF.STAT_STATE = 2 ∧ s.classD then
      let s := s.advanceUp (s.saf.degrAt + s.rd SAF.DEGR_T_DEGR * sec)
      if (s.pending.find? fun i => s.degrClears i || i matches .safetyCycle ..).any s.degrClears then s else s.forceSafe 10
    else s

/-- A frame that waits to be received in the cycle of instant `t` ends the wait of a local front (R483). -/
def State.peerComes (s : State) (w : Nat × Nat) (t : Nat) : Instr → Bool
  | .ethFrameRx port t' (.raw data) =>
    sameCycle cyc500 t t' && (s.rawTake port t' data).any fun s' => !s'.tri.waits.contains w
  | _ => false

/-- NO_MATCH (R483): the oldest wait ends without a peer front, unless one arrives in the same cycle. -/
def execNoMatch (s : State) : Host.Outcome State Fault Refusal :=
  s.live fun s =>
    match s.tri.waits with
    | [] => s
    | w :: rest =>
      let s := s.advanceUp w.2
      if s.pending.any (s.peerComes w s.mer.mer) then s
      else ((s.modTri fun y => { y with waits := rest }).inc TRI.CNT_NO_MATCH).raise 0x89 3

/-- A frame exceeds 1 522 bytes with its FCS. -/
def frameLong : EthFrame → Bool
  | .tooLong => true
  | .raw data => decide (1518 < data.length)
  | _ => false

/-- The instant at which the bit that a port met at `t` crossed its balls: its receive latency removed (R69, R70). -/
def State.rxStamp (s : State) (port t : Nat) : Nat := t - s.rdI ETH.LAT_RX_LAT port * (ns / 4)

/-- ETH_FRAME_RX (R669): the port meets the first bit after the start-of-frame delimiter at Meridian instant `t`. -/
def execEthFrameRx (port t : Nat) (frame : EthFrame) (s : State) : Host.Outcome State Fault Refusal :=
  s.live fun s =>
    let s := s.advanceTo t
    if !s.isHub || decide (4 ≤ port) || !s.onI PG.ENABLE (0xA8 + port) then s
    else if !s.pageActive (0xA8 + port) then s.askIsland 32
    else if frame = .badFcs then (s.incI ETH.CNT2_CRC_ERR port).raise (0xA8 + port) 2
    else if frameLong frame then s.incI ETH.CNT2_OVERSIZE port
    else
      match s.etherTake port (s.rxStamp port t) frame with
      | some s => s.incI ETH.CNT_RX_FRAMES port
      | none => s.incI ETH.CNT2_UNCLAIMED port

/-- Time on the wire of a frame with its preamble, FCS and gap, at 8 ns a byte. -/
def wireTime (data : Bytes) : Nat := (max 64 (data.length + 4) + 20) * 8 * ns

/-- The frame that a port sends next: the first engine in the order of R670, its oldest frame. -/
def nextFrame (q : List TxFrame) (port : Nat) : Option TxFrame :=
  (List.range 4).findSome? fun e => q.find? fun f => f.port == port && f.engine == e

/-- A frame of a PTP engine as its PTP_CFG has it sent: with a VLAN tag, or without. -/
def State.ptpTagged (s : State) (e : Nat) (data : Bytes) : Bytes :=
  if s.onI PTP.CFG_VLAN_EN e then
    data.take 12 ++ beBytes 2 0x8100 ++ beBytes 2 (s.rdI PTP.CFG_VLAN_PCP e * 8192 + s.rdI PTP.CFG_VID e) ++ data.drop 12
  else data

/-- The content of a frame that leaves with transmit timestamp `tx`: a Pdelay_Resp carries its own times (R62, R69, R70). -/
def State.txData (s : State) (f : TxFrame) (tx : Nat) : Bytes :=
  match f.resp with
  | none => f.data
  | some r => s.ptpTagged r.engine (Config.pdelayResp r.twoStep f.port r.engine r.seq (r.rx - s.rxCorr r.engine) (tx + s.txCorr r.engine))

/-- The Follow_Up of a two-step Pdelay_Resp that has left with timestamp `tx`. -/
def State.txFollow (s : State) (f : TxFrame) (tx : Nat) : State :=
  match f.resp with
  | some r =>
    if r.twoStep then
      s.queueFrame f.port 1 (s.ptpTagged r.engine (Config.pdelayFollow f.port r.engine r.seq (tx + s.txCorr r.engine)))
    else s
  | none => s

/-- The transmit timestamp of a frame that a port begins now (R69): the first bit after preamble and delimiter, 64 ns on, at the balls. -/
def State.txStamp (s : State) (port : Nat) : Nat := s.mer.mer + 64 * ns + s.rdI ETH.LAT_TX_LAT port * (ns / 4)

/-- ETH_TX (R670): the port, once free, begins its next frame. -/
def execEthTx (port : Nat) (s : State) : Host.Outcome State Fault Refusal :=
  s.live fun s =>
    match nextFrame s.txq port with
    | some f =>
      let s := s.advanceUp (s.txBusy.getD port 0)
      let tx := s.txStamp port
      let data := s.txData f tx
      let s := { s with txq := s.txq.erase f, txBusy := setAt s.txBusy port (s.mer.uptime + wireTime data) }
      ((s.incI ETH.CNT_TX_FRAMES port).emit (.frame port f.engine tx data)).txFollow f tx
    | none => s

/-- The ports of the PTP engines bound to Ethernet port `port` follow its link: FAULTY while it is down, LISTENING when it returns
(assumption 160). -/
def State.ptpLink (s : State) (port : Nat) (up : Bool) : State :=
  [0, 1].foldl (fun s e =>
    if !s.onI PG.ENABLE (9 + e) || s.rdI PTP.CFG_PORT e != port then s
    else if !up then s.setPort e 4
    else if s.rdI PTP.STAT_PORT_STATE e = 4 then s.setPort e 1 else s) s

/-- ETH_LINK_CHANGE (R70, R671): the link, auto-negotiation and the partner's fault as they are now, and the latencies measured. -/
def execEthLinkChange (port : Nat) (up anDone remoteFault : Bool) (txLat rxLat : Nat) (s : State) : Host.Outcome State Fault Refusal :=
  s.live fun s =>
    if !s.isHub || decide (4 ≤ port) then s
    else
      let was := s.onI ETH.STAT_LINK port
      let s := ((s.wrI ETH.STAT_LINK port (ofBool up)).wrI ETH.STAT_AN_DONE port (ofBool anDone)).wrI ETH.STAT_REMOTE_FAULT port (ofBool remoteFault)
      let s := if up then (s.wrI ETH.LAT_TX_LAT port txLat).wrI ETH.LAT_RX_LAT port rxLat else s
      ((s.ptpLink port up).raiseIf (up && !was) (0xA8 + port) 0).raiseIf (!up && was) (0xA8 + port) 1

end Sys2Proof.Machine
end

