-- ==== Sys2Proof/Machine/Anchor.lean ====
section
/-! DEFINITION. Orders of software to the Meridian (R55, R66, R67) and their place among the measurements and losses of the same
cycle (R54). -/

namespace Sys2Proof.Machine

/-- A measurement that waits in the queue and falls in the present cycle, taken. -/
def State.dueMeasure (s : State) : Instr → State
  | .ethFrameRx port t (.ptp vid domain auth msg) =>
    if sameCycle cyc500 s.mer.mer t then
      match [0, 1].find? fun e => s.ptpBound e port vid domain with
      | some e => s.ptpMessage e (s.rxStamp port t) (s.ptpAuth auth) msg
      | none => s
    else s
  | .ppsInEdge t => if sameCycle cyc500 s.mer.mer t then s.ppsEdge t else s
  | _ => s

/-- A loss that waits in the queue and falls in the present cycle, taken. -/
def State.dueLoss (s : State) : Instr → State
  | .syncTimeout ⟨e, t⟩ => if sameCycle cyc500 s.mer.mer t && s.ptpWatched e && !s.inTime e t false then s.syncMissed e else s
  | .announceTimeout ⟨e, t⟩ => if sameCycle cyc500 s.mer.mer t && s.ptpWatched e && !s.inTime e t true then s.annMissed e else s
  | .ppsMissing =>
    match s.pps.last with
    | none => s
    | some l =>
      let t := l + 11 * (sec / 10)
      if sameCycle cyc500 s.mer.mer t && !s.ppsComes t then s.ppsGone else s
  | _ => s

/-- The state in which a host write of the present cycle is processed: after the cycle's measurements and losses, those still in the queue
too (R54). -/
def State.afterDue (s : State) : State := s.pending.foldl State.dueLoss (s.pending.foldl State.dueMeasure s)

/-- A write of MER_CTL.REANCHOR (R55, Table 2-1). Table 2-1 has no row for one in LOCKED whose source is not qualified, nor for a hub that
follows its peer: REANCHOR_REFUSED is raised there too, DESIGN CHOICE (assumption 163). -/
def State.reanchor (s : State) : State :=
  let a := s.afterDue
  let src := a.rd MER.STAT_SRC
  if a.rd MER.STAT_STATE = 1 ∧ a.qualified src ∧ !s.follows then s.decideStep (a.srcOffset src) true
  else s.raise 0x08 8

/-- REANCHOR (R55). -/
def execReanchor (s : State) : Host.Outcome State Fault Refusal :=
  s.live fun s => s.actWrite 0x08 0x040 0x20 fun s => s.reanchor

/-- A write of MER_CTL.SWITCH_REQ (R66, R67). "The other domain" while PPS or no source drives the Meridian is the one that PREF names, and a
switch that software orders raises DOMAIN_SWITCH as one after a loss does: DESIGN CHOICE (assumption 163). -/
def State.switchReq (s : State) : State :=
  let a := s.afterDue
  let src := a.rd MER.STAT_SRC
  let target := if src < 2 then 1 - src else s.rd MER.CTL_PREF
  if a.rd MER.STAT_STATE = 1 ∧ a.usable target then (s.setSource target).raise 0x08 3
  else s.raise 0x08 9

/-- SWITCH_REQ (R67). -/
def execSwitchReq (s : State) : Host.Outcome State Fault Refusal :=
  s.live fun s => s.actWrite 0x08 0x040 0x10 fun s => s.switchReq

end Sys2Proof.Machine
end

