-- ==== Sys2Proof/Machine/Pennant.lean ====
section
/-! DEFINITION. What a held pennant does in the cell or hub it reaches (03): responses (R114, R116), latencies and releases (R132, R674),
LINK_BYPASS (R131), ENUM (R118), DIGEST (R513), EMPTY (R113); and the trunk hoists of a branch (R136, R138). -/

namespace Sys2Proof.Machine

/-- A pennant of a type. -/
def HeldPen.isType (p : HeldPen) (t : Nat) : Bool := leAt p.data 0 1 == t

/-- EMPTY (R113): no request; the held pennant is done with. -/
def execEmpty (s : State) : Host.Outcome State Fault Refusal :=
  s.live fun s =>
    match s.takePen fun p => p.isType 0 with
    | some (_, s) => s
    | none => s

/-- REG_RSP (R114): a response ends its transaction. -/
def execRegRsp (s : State) : Host.Outcome State Fault Refusal :=
  s.live fun s =>
    match s.takePen fun p => p.isType 3 with
    | none => s
    | some (p, s) =>
      let txn := leAt p.data 1 1 % 8
      let cell := leAt p.data 2 2
      let unit := bitsOf (leAt p.data 1 1) 3 1
      match s.portRing p.port with
      | none => s
      | some (r, _) =>
        match s.txns.find? fun x => x.ring == r && x.target == cell && x.txn == txn with
        | some x =>
          if s.topo r != 2 || unit == s.unit then
            (s.pushPrt x.port (.done txn cell (leAt p.data 4 1) (sliceBytes p.data 8 (4 * min 12 (leAt p.data 7 1))))).endTxn x
          else s
        | none => s

/-- A signed change of a latency register of the cell (R132). -/
def State.addLat (s : State) (f : RegField) (d : Int) : State := s.wr f (((s.rd f : Nat) : Int) + d).toNat

/-- A LAT_ADJ taken by a cell (R132): a cell beyond the by-passed node adds Δ, and the first of them, at the new hop, releases its side (R129). -/
def State.takeLatAdj (s : State) (first dir : Nat) (d : Int) : State :=
  let i := s.rd BNC.CELL_INDEX
  let s := if i = first then s.releaseSide (if dir = 0 then 0 else 1) else s
  if dir = 0 then (if first ≤ i then s.addLat MER.LAT_W_LAT d else s)
  else if i ≤ first then s.addLat MER.LAT_E_LAT d
  else s

/-- LAT_ADJ (R132): a cell takes the change; a hub that has surveyed the hop that replaces a by-passed cell, with the markers given, sends
the changes out. -/
def execLatAdj (ring cell : Nat) (marks : HopMarks) (s : State) : Host.Outcome State Fault Refusal :=
  s.live fun s =>
    match s.takePen fun p => p.isType 0x30 with
    | some (p, s) => s.takeLatAdj (leAt p.data 4 2) (leAt p.data 6 1) (sext 32 (leAt p.data 8 4))
    | none => if s.isHub && s.inService ring && decide (1 ≤ cell ∧ cell ≤ s.ringN ring) then s.hubLatAdj ring cell marks else s

/-- HOP_RELEASE (R674): the cells at the ends of the hop release their sides; a hub sends the pennant. -/
def execHopRelease (ring hop : Nat) (s : State) : Host.Outcome State Fault Refusal :=
  s.live fun s =>
    match s.takePen fun p => p.isType 0x31 with
    | some (p, s) =>
      let k := leAt p.data 4 2
      let i := s.rd BNC.CELL_INDEX
      if i + 1 = k then s.releaseSide 1 else if i = k then s.releaseSide 0 else s
    | none => if s.isHub then s.requestAll ring (hopReleaseReq hop) else s

/-- LINK_BYPASS (R131): the addressed cell releases LBP; a hub sends the pennant. -/
def execLinkBypass (ring cell : Nat) (s : State) : Host.Outcome State Fault Refusal :=
  s.live fun s =>
    match s.takePen fun p => p.isType 0x32 with
    | some (_, s) => s.modCellRole fun c => { c with lbp := false }
    | none => if s.isHub then s.request (s.homePort ring) ⟨0x32, cell, []⟩ else s

/-- ENUM (R118): the cell takes the running count plus one as its index. -/
def execEnum (s : State) : Host.Outcome State Fault Refusal :=
  s.live fun s =>
    match s.takePen fun p => p.isType 0x38 with
    | some (p, s) =>
      let s := s.wr BNC.CELL_INDEX (leAt p.data 4 2 + 1)
      s.modCellRole fun c => { c with obeyDir := s.primaryDir }
    | none => s

/-- DIGEST (R513): the peer's digests of a compute stride compared with this hub's. -/
def execDigest (s : State) : Host.Outcome State Fault Refusal :=
  s.live fun s =>
    match s.takePen fun p => p.isType 0x40 with
    | none => s
    | some (p, s) =>
      match s.pair.owns.find? fun o => o.seq == leAt p.data 4 4 with
      | some o =>
        if o.inDig = leAt p.data 12 4 ∧ o.outDig = leAt p.data 16 4 then s else (s.inc CLR.CNT3_DIGEST_DIFF).raise 0x90 10
      | none => s

/-- A trunk hoist that began to arrive at instant `t` sent on, unchanged, on each downstream trunk port, at t_hop (R136). -/
def State.forwardTrunk (s : State) (t : Nat) (data : Bytes) : State :=
  s.downPorts.foldl (fun s p => s.sendHoist false p (t + tHop false * ns) data) s

/-- TRUNK_HOIST_RECEIVED (R136 to R138): at Meridian instant `t`, from the lead's side or from a branch downstream. A branch disciplines to every
header that passes R106; records are taken only in service (R137). -/
def execTrunkHoistReceived (port t : Nat) (data : Bytes) (s : State) : Host.Outcome State Fault Refusal :=
  s.live fun s =>
    let s := s.advanceTo t
    let up := s.isBranch && s.upPort == some port
    if !s.isHub || (!up && !s.downPorts.contains port) then s
    else
      let s := if up then s.forwardTrunk s.mer.mer data else s
      let r := s.trunkChecked port data
      match r.2 with
      | none => r.1
      | some (h, ok) =>
        let recs := if ok && r.1.trunk.service then trunkRecs h.count data else []
        if up then recs.foldl (fun s x => s.takeRecord h.seq x) ((r.1.takeKey h).discipline h r.1.trunk.delay)
        else { r.1 with trunk := { r.1.trunk with landed := r.1.trunk.landed ++ recs.map fun x => (r.1.mer.mer, x) } }

end Sys2Proof.Machine
end

