-- ==== Sys2Proof/Machine/Twin.lean ====
section
/-! DEFINITION. The duplex pair (R485 to R517): twin frames received, hub states, handover, disagreement and verdict, the exchange, the
boundary of the pair, and resynchronisation. -/

namespace Sys2Proof.Machine

/-- The other unit. -/
def State.peerUnit (s : State) : Nat := 1 - s.unit

/-- JOINING entered: the twin key is agreed anew and FSEQ restarts (R569). -/
def State.enterJoining (s : State) : State :=
  let k := Config.twinKey s.freeCtr
  (s.nextFree.wr CLR.STAT_STATE 1).modPair fun p =>
    { p with key := k, fseq := 0, lastF := none, heard := s.mer.uptime, leaseRun := 0, goodRun := 0, adopted := false, transfer := false }

/-- OFF entered (Table 14-4). -/
def State.enterOff (s : State) : State :=
  ((s.wr CLR.STAT_STATE 0).wr CLR.STAT_HANDOVER_PEND 0).modPair fun p =>
    { p with hoB := none, hoAcked := false, ackB := none, claimB := none, verdict := none }

/-- A write of the CLR page's PG_CTL.ENABLE (R485, R502). -/
def State.clrEnable (s : State) (on : Bool) : State :=
  if s.isBranch || !s.isHub then s
  else
    let was := s.onI PG.ENABLE 0x90
    let s := s.wrI PG.ENABLE 0x90 (ofBool on)
    if on && !was then s.enterJoining else if !on && was then s.enterOff else s

/-- CLR_ENABLE (R502). -/
def execClrEnable (on : Bool) (s : State) : Host.Outcome State Fault Refusal :=
  s.live fun s => s.busWrite 0x90 0x008 (ofBool on) fun s => s.clrEnable on

/-- The reporting of the pair's state: CLR_STAT, and the time to the next drill. -/
def State.showPair (s : State) : State :=
  let s := (s.wr CLR.STAT_HANDOVER_PEND (ofBool s.pair.hoB.isSome)).wr CLR.STAT_VERDICT_PEND (ofBool s.pair.verdict.isSome)
  let due := max (s.pair.changed + s.rd CLR.CFG_DRILL_H * 3600 * sec) s.pair.drillAt
  s.wr CLR.DRILL_NEXT_MIN (if s.rd CLR.CFG_DRILL_H = 0 ∨ s.clr ≠ 4 then 0 else satNat 16 (ceilDiv (due - s.mer.uptime) (60 * sec)))

/-- This hub claims from JOINING with its peer there too (Table 14-4): it is the preferred one, or A when none is. -/
def State.joinCheck (s : State) : State :=
  if s.clr = 1 ∧ s.rd CLR.PEER_PEER_STATE = 1 ∧ s.on TWN.STAT_UP ∧ !s.on TWN.STAT_BUDGET_FAIL
      ∧ (if s.rd CLR.CFG_PREF = 0 then s.unit = 0 else s.rd CLR.CFG_PREF = s.unit + 1) then s.claim
  else s

/-- ALONE_TIMEOUT (R502): no sign of the peer for T_ALONE, with a ring in service. -/
def execAloneTimeout (s : State) : Host.Outcome State Fault Refusal :=
  s.live fun s =>
    if s.paired && s.clr == 1 && !s.on TWN.STAT_BUDGET_FAIL && (List.range 48).any s.inService then
      (s.advanceUp (s.pair.heard + s.rd CLR.CFG_T_ALONE * sec)).claim.peerLost
    else s

/-! Handover (R505 to R507). -/

/-- A handover proposed: its boundary is the next one plus 2. -/
def State.propose (s : State) (drill : Bool) : State :=
  if s.paired && s.clr == 4 && s.pair.hoB.isNone then
    (s.modPair fun p => { p with hoB := some ((s.mer.seq + 3) % 2 ^ 32), hoAcked := false, hoDrill := drill }).showPair
  else s

/-- FAULTY left by FAULT_CLR. -/
def State.faultClr (s : State) : State := if s.paired && s.clr == 5 then s.enterJoining else s

/-- A write of CLR_CTL. -/
def State.clrCtlWrite (s : State) (v : Nat) : State :=
  let s := s.storeWord 0x90 0x044 v
  let s := if bitOf v 0 then s.propose false else s
  if bitOf v 1 then s.faultClr else s

/-- HANDOVER (R506). -/
def execHandover (s : State) : Host.Outcome State Fault Refusal :=
  s.live fun s =>
    let v := s.rawWord 0x90 0x044 ||| 1
    s.busWrite 0x90 0x044 v fun s => s.clrCtlWrite v

/-- FAULT_CLR (R502). -/
def execFaultClr (s : State) : Host.Outcome State Fault Refusal :=
  s.live fun s =>
    let v := s.rawWord 0x90 0x044 ||| 2
    s.busWrite 0x90 0x044 v fun s => s.clrCtlWrite v

/-- DRILL (R506): DRILL_H hours after the last change of holder, or 1 h after a drill that failed. -/
def execDrill (s : State) : Host.Outcome State Fault Refusal :=
  s.live fun s =>
    let h := s.rd CLR.CFG_DRILL_H
    if s.paired && s.clr == 4 && h != 0 && s.pair.hoB.isNone then
      ((s.advanceUp (max (s.pair.changed + h * 3600 * sec) s.pair.drillAt)).propose true).raise 0x90 8
    else s

/-- PREF_RETURN (R506, R507): the preferred peer has been in STANDBY for HOLDOFF without a diagnostic. -/
def execPrefReturn (s : State) : Host.Outcome State Fault Refusal :=
  s.live fun s =>
    match s.pair.standby with
    | some t =>
      if s.paired && s.clr == 4 && s.rd CLR.CFG_PREF == s.peerUnit + 1 then
        (s.advanceUp (t + s.rd CLR.CFG_HOLDOFF * 100 * ms)).propose false
      else s
    | none => s

/-- HO_SEQ reached (R505). -/
def State.handoverBoundary (s : State) : State :=
  let b := s.mer.seq
  if s.clr = 4 ∧ s.pair.hoB = some b then
    let drill := s.pair.hoDrill
    let acked := s.pair.hoAcked
    let s := s.modPair fun p => { p with hoB := none, hoAcked := false, hoDone := some b }
    if acked then
      let s := (s.strike 3).setTerm (nextTerm s.peerUnit (s.rd CLR.STAT_TERM))
      if drill then s.inc CLR.CNT2_DRILLS else s
    else
      let s := s.raise 0x90 7
      if drill then (s.inc CLR.CNT2_DRILL_SKIP).modPair fun p => { p with drillAt := s.mer.uptime + 3600 * sec } else s
  else if s.clr = 3 ∧ (s.pair.ackB = some b ∨ s.pair.claimB = some b) then s.claim
  else s

/-! Disagreement and verdict (R508 to R511). -/

/-- A disagreement found in compute stride `m` opens a verdict, unless one is open. -/
def State.openVerdict (s : State) (m : Nat) : State :=
  if s.pair.verdict.isSome then s else (s.modPair fun p => { p with verdict := some m }).showPair

/-- A report is of a hub in STANDBY or FLYING, with no solo stride before and no stop (R508). -/
def StrideRep.clean (r : StrideRep) : Bool := !bitOf r.flags 0 && !bitOf r.flags 1 && (r.state == 3 || r.state == 4)

/-- A disagreement about hoist `h`: excused and counted, or it opens a verdict in compute stride `m`. -/
def State.disagree (s : State) (h m : Nat) : State :=
  let ok := fun (l : List StrideRep) => (l.find? fun r => r.seq == h).any StrideRep.clean
  if s.twinLost then s
  else if ok s.pair.owns && ok s.pair.peers then s.openVerdict m
  else s.inc CLR.CNT3_EXCUSED

/-- The OUT_DIGs of a boundary compared, both reports at hand (R508, R517). -/
def State.compareOut (s : State) (own peer : StrideRep) : State :=
  let differ := own.outDig != peer.outDig
  let active := fun (r : StrideRep) => r.state == 3 || r.state == 4
  let s := if differ && active own && active peer && !s.twinLost then
      ((s.inc CLR.CNT_OUT_DIFF).raise 0x90 5).disagree own.seq s.mer.seq
    else s
  if s.clr = 2 ∧ s.pair.adopted then
    if differ then s.enterResync
    else
      let excused := bitOf own.flags 0 || bitOf own.flags 1 || bitOf peer.flags 0 || bitOf peer.flags 1
      s.modPair fun p => { p with goodRun := if excused then 0 else min 16 (p.goodRun + 1) }
  else s

/-- The earliest diagnostic in the reports of a verdict's window, with what was raised. -/
def State.verdictDiag (s : State) (l : List StrideRep) (m : Nat) : Option (Nat × Nat) :=
  let back := s.rd CLR.VERD_WIN_BACK
  let fwd := s.rd CLR.VERD_WIN_FWD
  let mask := s.rd CLR.VERD_DIAG_MASK
  let inWin := l.filter fun r =>
    decide ((r.seq + 2 ^ 32 + back - (m + 1)) % 2 ^ 32 ≤ back + fwd) && (r.diagSrc &&& mask) != 0
  match (inWin.map (·.diagTime)).min? with
  | none => none
  | some t => some (t, inWin.foldl (fun a r => a ||| (r.diagSrc &&& mask)) 0)

/-- The outcome of a verdict: 1 this hub faulty, 2 the peer faulty, 3 the standby unqualified; and the deciding diagnostics (R510). -/
def State.verdictOf (s : State) (m : Nat) : Nat × Nat :=
  match s.verdictDiag s.pair.owns m, s.verdictDiag s.pair.peers m with
  | none, none => (3, 0)
  | some a, none => (1, a.2)
  | none, some b => (2, b.2)
  | some a, some b =>
    if a.1 < b.1 then (1, a.2) else if b.1 < a.1 then (2, b.2) else if s.clr = 4 then (2, b.2) else (1, a.2)

/-- A verdict evaluated, and its outcome (R510, R511). -/
def State.evalVerdict (s : State) (m : Nat) : State :=
  let (res, diag) := s.verdictOf m
  let s := s.modPair fun p => { p with verdict := none }
  let s := (((s.wr CLR.LAST_RESULT res).wr CLR.LAST_DIAG diag).wr CLR.LAST_SEQ m).showPair
  if !s.on CLR.CTL_VERDICT_EN || !s.clrActive then s
  else
    match res with
    | 1 => ((if s.clr = 4 then s.strike 5 else s.wr CLR.STAT_STATE 5)).raise 0x90 6
    | 2 => if s.clr = 3 then s.modPair fun p => { p with claimB := some ((m + s.rd CLR.VERD_WIN_FWD + 2) % 2 ^ 32) } else s
    | _ => if s.clr = 3 then s.enterResync else s

/-- The open verdict is due: its evaluation boundary is here with both reports, or past (R510). -/
def State.verdictDue (s : State) : State :=
  match s.pair.verdict with
  | none => s
  | some m =>
    let b := (m + s.rd CLR.VERD_WIN_FWD + 1) % 2 ^ 32
    let have_ := fun (l : List StrideRep) => l.any fun r => r.seq == b
    let past := (s.mer.seq + 2 ^ 32 - b) % 2 ^ 32
    if past < 2 ^ 31 ∧ (past ≠ 0 ∨ (have_ s.pair.owns ∧ have_ s.pair.peers)) then s.evalVerdict m else s

/-- MISMATCH in the uplinks that compute stride reads (R508): the agreed snapshot of a ring's hoist. -/
def State.mismatchCheck (s : State) : State :=
  if !s.paired || s.twinLost then s
  else
    let rings := (List.range 48).filter fun r => s.inService r && s.topo r == 2 && !bitOf s.ctr.absent r
    rings.foldl (fun s r =>
      let u := s.hoistRead r s.mer.seq
      let bad := (List.range (s.ringN r)).any fun i => (s.ulOf (s.entryOf r (i + 1)) u).any fun ul => bitOf (leAt ul 9 2) 5
      if bad then s.disagree ((u + 2 ^ 32 - s.ctr.la) % 2 ^ 32) s.mer.seq else s) s

/-- The solo decision of compute stride S at S + 0.10 µs (R494), and IN_DIG. -/
def State.soloDecision (s : State) : State :=
  if !s.paired then { s with ctr := { s.ctr with absent := 0 } }
  else
    let rings := (List.range 48).filter fun r => s.inService r && s.topo r == 2
    let own := fun (r : Nat) => ((s.pair.digs.find? fun d => d.1 == r && d.2.1 == s.hoistRead r s.mer.seq).map (·.2.2))
    let peer := fun (r : Nat) => ((s.pair.peerDigs.find? fun d => d.1 == r && d.2.1 == s.hoistRead r s.mer.seq).map (·.2.2))
    let late := match s.pair.peerLate with
      | some (m, q) => if q = s.mer.seq then some m else none
      | none => none
    let solo := late.isNone || rings.any (fun r => (peer r).isNone) || s.pair.xsMissed || s.twinLost
    let bad := if solo then [] else rings.filter fun r => own r != peer r || bitOf (late.getD 0) r || bitOf s.pair.lateCut r
    let dig := crc32 (rings.flatMap (fun r => leBytes 4 ((own r).getD 0))
      ++ (List.range (s.rd TWN.XS_N)).flatMap fun k =>
        let slot := fun (f : RegField) => s.bytesRead (sigAddr (s.rdA f 0 k)) 9
        slot TWN.XS_DST_A ++ slot TWN.XS_DST_B)
    let s := { s with ctr := { s.ctr with absent := maskOf bad } }
    let s := bad.foldl (fun s _ => (s.inc TWN.CNT2_RING_ABSENT).raise 0x41 6) s
    let s := s.modPair fun p => { p with inDig := dig, solos := if solo then (s.mer.seq :: p.solos).take 8 else p.solos.take 8 }
    let s := if solo then (s.inc TWN.CNT2_SOLO).raise 0x41 4 else s
    s.mismatchCheck

/-! Frames received. -/

/-- The twin link's page is enabled and its island runs. -/
def State.pageOn41 (s : State) : Bool := s.onI PG.ENABLE 0x41 && s.pageActive 0x41

/-- A twin frame on a lane (R488, R489): its type and header, taken once; a frame that fails its CRC or tag is counted. -/
def State.twinTake (s : State) (lane typ : Nat) (data : Bytes) : State × Bool :=
  let n := leAt data 2 2
  let h := leAt data 1 1
  let f := leAt data 4 4
  let body := sliceBytes data 0 (16 + n)
  let nonce := leBytes 1 6 ++ leBytes 1 (h % 2) ++ leBytes 1 (leAt data 0 1) ++ leBytes 1 0 ++ leBytes 4 f ++ leBytes 4 0
  if !s.paired || !s.pageOn41 || !bitOf (s.rd TWN.CTL_LANE_EN) lane then (s, false)
  else if data.length ≠ 28 + n ∨ !tcrcOk data ∨ sliceBytes data (16 + n) 8 ≠ tagBytes 8 s.pair.key nonce body then
    (s.inc (if lane = 0 then TWN.CNT_FRAME_ERR_A else TWN.CNT_FRAME_ERR_B), false)
  else
    let new := match s.pair.lastF with
      | none => true
      | some l => seqNewer f l
    if new && h % 2 == s.peerUnit && leAt data 0 1 == typ then (s.modPair fun p => { p with lastF := some f }, true) else (s, false)

/-- A STRIDE payload read (Table 14-2). -/
def parseStride (data : Bytes) : StrideRep :=
  let p := data.drop 16
  { seq := leAt data 8 4, state := bitsOf (leAt data 1 1) 1 3, term := leAt p 0 2, lease := leAt p 2 1, flags := leAt p 3 1, hoSeq := leAt p 4 4
    tTx := leAt p 8 8, tRxPeer := leAt p 16 8, tEcho := leAt p 24 8, inDig := leAt p 32 4, outDig := leAt p 36 4, diagTime := leAt p 40 8
    diagSrc := leAt p 48 1, xs := sliceBytes p 56 (leAt data 2 2 - 56) }

/-- The one-way delay of the twin link from a frame received at `t` ns (R490, R491): the mean over 16 frames in 0.25 ns. -/
def State.twinDelay (s : State) (r : StrideRep) (t : Nat) : State :=
  if r.tEcho = 0 then s
  else
    let rtt := ((t : Int) - r.tEcho) - ((r.tTx : Int) - r.tRxPeer)
    let s := s.modPair fun p => { p with delays := (rtt.toNat :: p.delays).take 16 }
    let l := s.pair.delays
    let d := (l.foldl (· + ·) 0) * 2 / max 1 l.length
    let s := s.wr TWN.DELAY (satNat 16 d)
    let bad := decide (1000 < d)
    (s.raiseIf (bad && !s.on TWN.STAT_BUDGET_FAIL) 0x41 2).wr TWN.STAT_BUDGET_FAIL (ofBool bad)

/-- The twin link returns after 16 frames in a row (R492, R514); before any loss the first frame brings it up. -/
def State.twinBack (s : State) : State :=
  if s.twinLost then
    let n := s.pair.back + 1
    let s := s.modPair fun p => { p with back := n }
    if 16 ≤ n then
      let s := (((s.wr TWN.STAT_TWIN_LOST 0).wr CLR.STAT_TWIN_LOST 0).wr TWN.STAT_UP 1).raise 0x41 1
      if s.clr = 3 then s.enterResync else s
    else s
  else s.wr TWN.STAT_UP 1

/-- What a STRIDE frame says of a handover (R505). -/
def State.takeHandover (s : State) (r : StrideRep) : State :=
  let s := if bitOf r.flags 2 && s.clr == 3 && !s.twinLost && s.pair.verdict.isNone then s.modPair fun p => { p with ackB := some r.hoSeq }
    else s
  if bitOf r.flags 3 && s.pair.hoB == some r.hoSeq then s.modPair fun p => { p with hoAcked := true } else s

/-- STRIDE_FRAME (R490, R492, R504, R505, R508, R510, R86): a frame on a lane at Meridian instant `t`. The delay of the standby's offset is TWN_DELAY,
the mean of the last 16 frames: R86 names "the same exchange" and no more. DESIGN CHOICE (assumption 165). -/
def execStrideFrame (lane t : Nat) (data : Bytes) (s : State) : Host.Outcome State Fault Refusal :=
  s.live fun s =>
    let s := s.advanceTo t
    let (s, ok) := s.twinTake lane 1 data
    if !ok then s
    else
      let r := parseStride data
      let s := (s.wr CLR.PEER_PEER_STATE r.state).wr CLR.PEER_PEER_TERM r.term
      let quiet := r.state == 3 && r.diagSrc == 0
      let s := s.hearPeer.modPair fun p =>
        { p with
          got := true, miss := 0, peers := (r :: p.peers).take 72, peerRx := t / ns
          standby := if quiet then some (p.standby.getD s.mer.uptime) else none }
      let s := (((s.verdictDue.twinDelay r (t / ns)).twinBack).seeTerm r.term).takeHandover r
      let s := if r.state = 4 ∧ s.clr ≠ 4 ∧ !s.twinLost ∧ s.pair.delays ≠ [] then s.slewTo ((((r.tTx : Int) * ns + (s.rd TWN.DELAY * (ns / 4) : Nat)) - (t : Int))) else s
      let s := match s.pair.owns.find? fun o => o.seq == r.seq with
        | none => s
        | some o => s.compareOut o r
      s.joinCheck.verdictDue.showPair

/-- RING_DIG (R493). -/
def execRingDig (lane : Nat) (data : Bytes) (s : State) : Host.Outcome State Fault Refusal :=
  s.live fun s =>
    let (s, ok) := s.twinTake lane 2 data
    if ok then s.modPair fun p => { p with peerDigs := ((leAt data 16 1, leAt data 20 4, leAt data 24 4) :: p.peerDigs).take 512 } else s

/-- LATE_FRAME (R493): the late mask of the compute stride that begins at the next boundary. -/
def execLateFrame (lane : Nat) (data : Bytes) (s : State) : Host.Outcome State Fault Refusal :=
  s.live fun s =>
    let (s, ok) := s.twinTake lane 3 data
    if ok then s.modPair fun p => { p with peerLate := some (leAt data 16 6, (leAt data 8 4 + 1) % 2 ^ 32) } else s

/-- A MIRROR entry read (Table 14-1). -/
def parseMirror (unit : Nat) (e : Bytes) : Mirror :=
  let bar2 := bitOf (leAt e 5 1) 0
  { b := leAt e 0 4, page := leAt e 4 1, bar2 := bar2, ofs := if bar2 then leAt e 8 3 else leAt e 8 2 % 4096
    data := sliceBytes e 16 (leAt e 6 1), unit := unit }

/-- MIRROR_FRAME (R487). -/
def execMirrorFrame (lane : Nat) (data : Bytes) (s : State) : Host.Outcome State Fault Refusal :=
  s.live fun s =>
    let (s, ok) := s.twinTake lane 4 data
    if ok then
      let n := leAt data 2 2 / 32
      let new := (List.range n).map fun i => parseMirror s.peerUnit (sliceBytes data (16 + 32 * i) 32)
      s.modPair fun p => { p with mirrors := p.mirrors ++ new }
    else s

/-- MIRROR_WRITE_RESUME (R487): a place has freed for a write that waits. -/
def execMirrorWriteResume (s : State) : Host.Outcome State Fault Refusal :=
  s.live fun s =>
    match s.pair.waiting with
    | [] => s
    | m :: rest =>
      if s.pair.sent < 32 then
        s.modPair fun p =>
          { p with waiting := rest, sent := p.sent + 1, mirrors := p.mirrors ++ [{ m with b := (s.mer.seq + 2) % 2 ^ 32 }] }
      else s

/-! Resynchronisation (R515 to R517). The regions of STATE frames, 0x7F00 apart, are the model's own. -/

/-- The axes and their registers as the carried part spells them: the spec gives the layout of none. -/
opaque Config.packAxes : List AxisState → Bytes

/-- The axes that bytes of the carried part spell. -/
opaque Config.unpackAxes : Bytes → List AxisState

/-- The group state of the Contour engine as the carried part spells it. -/
opaque Config.packGroups : List ArmGroup → Bytes

/-- The group state that bytes of the carried part spell. -/
opaque Config.unpackGroups : Bytes → List ArmGroup

/-- Plotter scratch areas of the active Chart: offset and length (R515). -/
def State.scratchAreas (s : State) : List (Nat × Nat) :=
  s.descs.filterMap fun d =>
    let x := s.desc d
    let n := ((legendRow x.opcode).getD ⟨0, 0, 0, 0, 0, 0⟩).state
    if n = 0 then none else some (scratchBase + 8 * x.state, 8 * n)

/-- Signal slots that operations of the active Chart write. -/
def State.writtenSlots (s : State) : List (Nat × Nat) :=
  (s.descs.flatMap fun d => (s.desc d).outs.filter (· != 0xFFFF)).dedup.map fun i => (sigAddr i, 16)

/-- CARRIED and CAPACITY (R516). -/
def State.showRsync (s : State) : State :=
  let n := ((s.scratchAreas ++ s.writtenSlots).foldl (fun a x => a + x.2) 0) + Config.carriedFixed
  let room : Int := ((100 - s.ctr.dl : Nat) * s.strideT / 100 : Nat) - ((300 * ns : Nat) : Int)
  (s.wr TWN.RSYNC_CARRIED (satNat 16 n)).wr TWN.RSYNC_CAPACITY (satNat 16 ((room * 5 / (2 * ns : Nat)).toNat))

/-- A STATE frame of a region from an offset. -/
def State.sendState (s : State) (region ofs : Nat) (data : Bytes) : State :=
  s.twinSend 5 (leBytes 2 region ++ leBytes 2 0 ++ leBytes 4 ofs ++ data)

/-- A stretch of SRAM sent in STATE frames of at most 1 024 bytes. -/
def State.sendArea (s : State) (region : Nat) (a : Nat × Nat) : State :=
  (List.range (ceilDiv a.2 1024)).foldl (fun s i =>
    s.sendState region (a.1 + 1024 * i) (s.bytesRead (a.1 + 1024 * i) (min 1024 (a.2 - 1024 * i)))) (s.noteRead a.1 a.2)

/-- The pages of the mirrored set. -/
def mirroredPages : List Nat := (List.range 256).filter mirroredPage

/-- The registers of a page sent: region 1, by page and offset. -/
def State.sendPage (s : State) (page : Nat) : State :=
  s.sendState 1 (page * 4096) (((List.range 256).map fun i => leBytes 4 (s.rawWord page (4 * i))).flatten)

/-- The holder's state sent, static part and carried part (R515). -/
def State.sendAll (s : State) : State :=
  let s := [(0, 0x200000), (0x300000, 0x80000)].foldl (fun s a => s.sendArea 0 a) s
  let s := mirroredPages.foldl State.sendPage s
  let s := (s.scratchAreas ++ s.writtenSlots).foldl (fun s a => s.sendArea 2 a) s
  (s.sendState 3 0 (Config.packAxes s.axes)).sendState 4 0 (Config.packGroups s.groups)

/-- The fields of a word given values, as a transfer writes them. -/
def State.loadWord (s : State) (page ofs v : Nat) : State :=
  (fieldsAt page ofs).foldl (fun s f => s.wrA f.1 (page - f.1.page) f.2 (v / 2 ^ f.1.lo)) s

/-- An item of the transfer adopted. -/
def State.adoptItem (s : State) (x : Nat × Nat × Nat × Bytes) : State :=
  let data := x.2.2.2
  match x.1 with
  | 1 => (List.range (data.length / 4)).foldl (fun s i => s.loadWord (x.2.2.1 / 4096) (x.2.2.1 % 4096 + 4 * i) (leAt data (4 * i) 4)) s
  | 3 => { s with axes := Config.unpackAxes data }
  | 4 => { s with groups := Config.unpackGroups data }
  | _ => s.memPut x.2.2.1 data

/-- What a resynchronising hub has received adopted at a boundary, once the carried part is complete and the cells have been rebuilt over 12
strides (R515, R516). -/
def State.adopt (s : State) : State :=
  if s.clr = 2 ∧ s.pair.ready ∧ 12 ≤ s.pair.rebuilt then
    (s.pair.items.foldl State.adoptItem s).modPair fun p =>
      { p with items := [], ready := false, transfer := false, adopted := true, goodRun := 0 }
  else s

/-- RESYNC_TRANSFER (R515, R516): the holder sends its state, or refuses; at the resynchronising hub the carried part is complete, and the next
boundary adopts it. -/
def execResyncTransfer (s : State) : Host.Outcome State Fault Refusal :=
  s.live fun s =>
    if !s.paired then s
    else if s.clr = 4 ∧ s.rd CLR.PEER_PEER_STATE = 2 then
      let s := s.showRsync
      if s.rd TWN.RSYNC_CAPACITY < s.rd TWN.RSYNC_CARRIED then (s.inc TWN.CNT3_RESYNC_REF).raise 0x41 6 else s.sendAll
    else if s.clr = 2 ∧ s.pair.transfer ∧ s.pair.items.any (fun x => x.1 == 4) then
      s.modPair fun p => { p with ready := true }
    else s

/-- The ring key and K_pair set that the peer shares (R568). The spec does not say when the other hub launches under a next key: it sets REKEY for 16
strides too. DESIGN CHOICE, unsafe (assumption 176). -/
def State.takeRingKey (s : State) (data : Bytes) : State :=
  let tryIdx := (List.range 256).findSome? fun i => (Config.gcmOpen s.pair.key (wrapIv i) [] data).map fun b => (i, b)
  match tryIdx with
  | none => s
  | some (_, b) =>
    let r := leAt b 0 1
    let idx := leAt b 1 1
    let n := (b.length - 34) / 34
    let pairs := (List.range n).map fun i => (leAt b (34 + 34 * i) 2, sliceBytes b (36 + 34 * i) 32)
    let s := s.modRing r fun x => { x with pairs := pairs }
    if (s.ring r).keyIdx = 0 then s.modRing r fun x => { x with key := sliceBytes b 2 32, keyIdx := idx, served := 0 }
    else s.modRing r fun x => { x with nextKey := sliceBytes b 2 32, nextIdx := idx, rekey := true, rekeyRun := 16 }
where
  /-- IV of a key under wrap (R567). -/
  wrapIv (i : Nat) : Bytes := leBytes 1 i ++ List.replicate 11 0

/-- STATE_FRAME (R515, R568): the static part is taken at once, so that later mirrored writes keep it current; the carried part is kept. -/
def execStateFrame (lane : Nat) (data : Bytes) (s : State) : Host.Outcome State Fault Refusal :=
  s.live fun s =>
    let (s, ok) := s.twinTake lane 5 data
    let n := leAt data 2 2
    let body := sliceBytes data 24 (n - 8)
    if !ok then s
    else if leAt data 16 2 = 0x7F00 then s.takeRingKey body
    else if s.clr = 2 ∧ s.pair.transfer then
      let x := (leAt data 16 2, leAt data 18 2, leAt data 20 4, body)
      if x.1 < 2 then s.adoptItem x else s.modPair fun p => { p with items := p.items ++ [x] }
    else s

/-- RESYNC_DONE (R517): 16 equal OUT_DIGs after the adoption. -/
def execResyncDone (s : State) : Host.Outcome State Fault Refusal :=
  s.live fun s =>
    if s.paired && s.clr == 2 && s.pair.adopted && decide (16 ≤ s.pair.goodRun) then
      ((s.wr CLR.STAT_STATE 3).modPair fun p => { p with leaseRun := 0 }).raise 0x90 9
    else s

/-! The boundary. -/

/-- The twin link's frames counted at a boundary (R492). -/
def State.twinCount (s : State) : State :=
  let got := s.pair.got
  let s := s.modPair fun p => { p with got := false, miss := if got then 0 else p.miss + 1, back := if got then p.back else 0 }
  if s.rd TWN.CTL_LOSS_N ≤ s.pair.miss ∧ !s.twinLost then
    (((s.wr TWN.STAT_TWIN_LOST 1).wr CLR.STAT_TWIN_LOST 1).wr TWN.STAT_UP 0).raise 0x41 0
  else s

/-- The lease counted at a boundary (R502, R503). -/
def State.leaseCount (s : State) : State :=
  let seen := s.pair.leaseSeen || s.pending.any (s.holderComes s.mer.lastS)
  let s := s.modPair fun p => { p with leaseSeen := false, leaseRun := if seen then 0 else min 255 (p.leaseRun + 1) }
  if s.pair.leaseRun = s.rd CLR.CFG_LEASE then
    if s.clr = 3 then
      let lost := s.twinLost
      let s := s.claim
      if lost then s.peerLost else s
    else if s.clr = 2 then s.peerLost
    else s
  else s

/-- A slot given the VALUE and status that bytes 0 to 8 of the source slot carry, as a hardware writer with STALE 0. -/
def State.hwSlot (s : State) (i : Nat) (x : Bytes) : State :=
  let st := leAt x 8 1
  s.putSig i (leAt x 0 8) (bitOf st 0) (bitOf st 2) false 0xFFFF

/-- The exchange destinations written with the values of the last boundary (R495). -/
def State.exchange (s : State) : State :=
  let last := (s.mer.seq + 2 ^ 32 - 1) % 2 ^ 32
  let get := fun (l : List StrideRep) => (l.find? fun r => r.seq == last).map (·.xs)
  let own := get s.pair.owns
  let peer := if s.twinLost then none else get s.pair.peers
  let a := if s.unit = 0 then own else peer
  let b := if s.unit = 0 then peer else own
  let put := fun (s : State) (dst k : Nat) (xs : Option Bytes) =>
    if dst = 0xFFFF then s
    else match xs with
      | none => (s.invalidSig dst).staleSig dst
      | some x => s.hwSlot dst (sliceBytes x (12 * k) 9)
  let s := (List.range (s.rd TWN.XS_N)).foldl (fun s k =>
    put (put s (s.rdA TWN.XS_DST_A 0 k) k a) (s.rdA TWN.XS_DST_B 0 k) k b) s
  s.modPair fun p => { p with xsMissed := peer.isNone }

/-- The CMD of an entry's flag as built (R490): before the insertion of a stop mode. -/
def State.builtCmd (s : State) (e : Nat) : Nat :=
  match s.groupOf e with
  | none => 1
  | some (g, p) => if s.on CTR.STAT_ACTIVE then (s.group g).flags.getD p (s.stopMode g) else 1

/-- OUT_DIG of the hoists launched at this boundary (R490): cells in ascending index, which is the slot order of one direction. -/
def State.outDig (s : State) : Nat :=
  crc32 (((List.range 48).filter s.inService).flatMap fun r =>
    (List.range (s.ringN r)).flatMap fun i => leBytes 8 (s.builtCmd (s.entryOf r (i + 1))))

/-- The stride windows of the converters that close at this boundary, whose results stand in their slots by S + 0.05 µs, before the exchanged
values are read (R33, R434, R495). -/
def State.exchangeInputs (s : State) : State :=
  if s.paired && s.rd TWN.XS_N != 0 then
    s.pending.foldl (fun s i =>
      match i with
      | .cniWindowClose ch code side t c =>
        if s.rdA CNI.CH_MODE 0 ch = 0 ∧ !s.served.contains i then
          let u := s.windowClose ch code side t c
          { u with served := u.served ++ [i] }
        else s
      | _ => s) s
  else s

/-- The report of this boundary (Table 14-2). -/
def State.strideRep (s : State) : StrideRep :=
  let solo := s.pair.solos.contains ((s.mer.seq + 2 ^ 32 - 1) % 2 ^ 32)
  let stop := s.pair.stopped
  let last := s.pair.peers.head?
  { seq := s.mer.seq, state := s.clr, term := s.headTerm, lease := s.rd CLR.CFG_LEASE
    flags := ofBool solo + 2 * ofBool stop + 4 * ofBool s.pair.hoB.isSome + 8 * ofBool s.pair.ackB.isSome + 16 * ofBool s.pair.verdict.isSome
    hoSeq := (s.pair.hoB.orElse fun _ => s.pair.ackB).getD 0
    tTx := nsOf s.mer.lastS, tRxPeer := s.pair.peerRx, tEcho := (last.map (·.tTx)).getD 0, inDig := s.pair.inDig, outDig := s.outDig
    diagTime := s.diagTime, diagSrc := s.diagNow
    xs := (List.range (s.rd TWN.XS_N)).flatMap fun k =>
      sliceBytes (if s.rdA TWN.XS_SRC 0 k = 0xFFFF then [] else s.bytesRead (sigAddr (s.rdA TWN.XS_SRC 0 k)) 9) 0 12 }

/-- A STRIDE payload (Table 14-2). -/
def strideBytes (r : StrideRep) : Bytes :=
  leBytes 2 r.term ++ leBytes 1 r.lease ++ leBytes 1 r.flags ++ leBytes 4 r.hoSeq ++ leBytes 8 r.tTx ++ leBytes 8 r.tRxPeer
    ++ leBytes 8 r.tEcho ++ leBytes 4 r.inDig ++ leBytes 4 r.outDig ++ leBytes 8 r.diagTime ++ leBytes 1 r.diagSrc ++ List.replicate 7 0 ++ r.xs

/-- A MIRROR entry (Table 14-1). -/
def mirrorBytes (m : Mirror) : Bytes :=
  leBytes 4 m.b ++ leBytes 1 (if m.bar2 then 0 else m.page) ++ leBytes 1 (ofBool m.bar2) ++ leBytes 1 m.data.length ++ leBytes 1 0
    ++ leBytes 4 m.ofs ++ leBytes 4 0 ++ sliceBytes m.data 0 16

/-- STRIDE_FRAME_SEND (R490) and the MIRROR entries of the writes taken in the stride just ended. -/
def State.strideSend (s : State) : State :=
  let s := s.exchangeInputs
  let r := s.strideRep
  let s := (List.range (s.rd TWN.XS_N)).foldl (fun s k =>
    if s.rdA TWN.XS_SRC 0 k = 0xFFFF then s else s.noteRead (sigAddr (s.rdA TWN.XS_SRC 0 k)) 16) s
  let s := s.modPair fun p => { p with owns := (r :: p.owns).take 72, ackB := if p.ackB = some s.mer.seq then none else p.ackB, sent := 0 }
  if !(s.onI PG.ENABLE 0x41 && s.pageActive 0x41) then s
  else
    let s := s.twinSend 1 (strideBytes r)
    let ms := s.pair.mirrors.filter fun m => m.unit == s.unit && m.b == (s.mer.seq + 1) % 2 ^ 32
    if ms.isEmpty then s
    else if s.mirrorLocal then ms.foldl (fun s _ => s.inc TWN.CNT3_MIRROR_LOCAL) s
    else s.twinSend 4 (ms.flatMap mirrorBytes)

/-- The pair at a boundary, before the hoists launch: twin loss, then verdict, lease and handover in the order of Table 14-4 (R14, R492, R503,
R505, R510). -/
def State.pairBoundary (s : State) : State :=
  if s.paired then s.twinCount.verdictDue.leaseCount.handoverBoundary.joinCheck.showPair else s

end Sys2Proof.Machine
end

