-- ==== Sys2Proof/Machine/RegWrite.lean ====
section
/-! DEFINITION. Registers as software reads and writes them: the common page header (R629, R641 to R645, R677), what each block does on a
write of its own registers, reads with their effects (R11), and soft resets (R643). -/

namespace Sys2Proof.Machine

/-! The common page header. -/

/-- The number of events of a page's block. -/
def eventsOf (page : Nat) : Nat := ((blockOf page).map (·.events)).getD 0

/-- The events that a written word names; a reserved bit is recorded with code 0x1 (R645). -/
def State.eventBits (s : State) (page ofs v : Nat) : State × Nat :=
  let n := eventsOf page
  ((if v % 2 ^ 32 < 2 ^ n then s else s.accessErr page ofs 1), v % 2 ^ n)

/-- A write of EVT_RAW (R629). -/
def State.evtRawWrite (s : State) (page v : Nat) : State :=
  let (s, m) := s.eventBits page 0x010 v
  s.wrI PG.EVT_RAW page (s.rdI PG.EVT_RAW page &&& (2 ^ 32 - 1 - m))

/-- A write of EVT_PEND (R629). -/
def State.evtPendWrite (s : State) (page v : Nat) : State :=
  let (s, m) := s.eventBits page 0x018 v
  let s := s.wrI PG.EVT_RAW page (s.rdI PG.EVT_RAW page &&& (2 ^ 32 - 1 - m))
  s.wrI PG.EVT_PEND page (s.rdI PG.EVT_PEND page &&& (2 ^ 32 - 1 - m))

/-- A write of EVT_FORCE (R629). -/
def State.evtForceWrite (s : State) (page v : Nat) : State :=
  let (s, m) := s.eventBits page 0x01C v
  (bitList m 32).foldl (fun s n => s.raise page n) s

/-- A write of PG_LOCK.KEY (R642); the unlocking of SAF or SEM in service forces SAFE (Table 15-1). -/
def State.lockWrite (s : State) (page v : Nat) : State :=
  let s := if v % 2 ^ 32 < 2 ^ 16 then s else s.accessErr page 0x020 1
  let k := v % 2 ^ 16
  if k = 0x4C4B then s.wrI PG.LOCKED page 1
  else if k = 0x554C then
    let s := s.wrI PG.LOCKED page 0
    if (page = 0x98 ∨ page = 0x99) ∧ s.isHub ∧ (s.rd SAF.STAT_STATE = 1 ∨ s.rd SAF.STAT_STATE = 2) then s.forceSafe 6 else s
  else s.accessErr page 0x020 4

/-- The offsets of a page's registers that hold RO or RC fields. -/
def readOnlyWords (page : Nat) : List Nat :=
  ((blockOf page).map fun b =>
    (b.fields.filter fun f => f.ty == .ro || f.ty == .rc).flatMap fun f => (List.range f.cnt).map fun i => f.ofs + f.stride * i).getD []

/-- The value that a field shows now: the sums and floors of the arbiter (R603), the demand of an island (R602), the lines and vectors of EVT
(R630), and what any other field holds. -/
def State.shown (s : State) (f : RegField) (pg i : Nat) : Nat :=
  if f = PWR.STAT_GRANTED then s.granted
  else if f = PWR.BUDGET_FLOORS then s.floors
  else if f = PWR.ISL_FLOOR then ofBool (s.floorOn i)
  else if f = PWR.ISL_DEMAND then s.demand i
  else if f = EVT.PAGE_PEND_LINES then maskOf ((s.lines.filter fun p => p / 32 == i).map (· % 32))
  else if f = EVT.VEC_ASSERTED then maskOf ((List.range 32).filter fun v => s.vecAsserted (i * 32 + v))
  else s.rdA f pg i

/-- The word that the fields at an offset show now. -/
def State.shownWord (s : State) (page ofs : Nat) : Nat :=
  (fieldsAt page ofs).foldl (fun w f => w + s.shown f.1 (page - f.1.page) f.2 * 2 ^ f.1.lo) 0

/-- A write of FREEZE (R644): the snapshot is taken at the change from 0 to 1. -/
def State.freezeWrite (s : State) (page : Nat) (on : Bool) : State :=
  if on && !s.onI PG.FREEZE page then
    let s := if 0x68 ≤ page ∧ page < 0x78 then s.evalAxis (page - 0x68) s.mer.mer else s
    let snap := (readOnlyWords page).foldl (fun l o => Sparse.insert l (page * 4096 + o) (s.shownWord page o)) s.frozen
    { s.wrI PG.FREEZE page 1 with frozen := snap }
  else if on then s
  else { s.wrI PG.FREEZE page 0 with frozen := s.frozen.filter fun x => x.1 / 4096 != page }

/-- A write of ENABLE. -/
def State.enableWrite (s : State) (page : Nat) (on : Bool) : State :=
  if s.onI PG.ENABLE page = on then s
  else if page = 0x48 then s.ctrEnable on
  else if 0x49 ≤ page ∧ page < 0x55 then s.ctgEnable (page - 0x49) on
  else if page = 0x90 then s.clrEnable on
  else if page = 9 ∨ page = 10 then (s.wrI PG.ENABLE page (ofBool on)).setPort (page - 9) (if on then 1 else 5)
  else if 0x78 ≤ page ∧ page < 0x80 then (s.wrI PG.ENABLE page (ofBool on)).fbkMode (page - 0x78)
  else s.withFloor page 0x008 fun s => s.wrI PG.ENABLE page (ofBool on)

/-! Soft reset (R643). -/

/-- A status field that shows a level, a link, a supply or a lock, which a soft reset of its block does not change and which it shows
again at once. -/
def levelField (f : RegField) : Bool :=
  f.page ≤ 3 || f.page == 0xA8 || f.page == 0xB2 || (f.page == 0x10 && f.ofs == 0x044 && f != BNT.PORT_STAT_LEGACY) || (f.page == 0x41 && f == TWN.STAT_LANE_LOCK)
    || [EDG.TRIP_STAT_IN, EDG.STAT_CAL_OK, EDG.STAT_CAL_FAULT, EDG.CAL_TAPS, EDG.CAL_CAL_OK, EDG.CAL_CAL_FAULT, EDG.CAL_FAIL_CNT,
        GDR.STAT_GEN_LVL, GDR.STAT_VGP_LOW, GDR.STAT_VGN_LOW, GDR.STAT_VDDF_LOW, GDR.SUP_MEAS_VGP, GDR.SUP_MEAS_VGN, GDR.SUP_MEAS2_VDDF,
        SVY.PAT_IN, HIF.PCIE_LINK_UP, HIF.PCIE_SPEED, HIF.PCIE_WIDTH, HIF.PCIE_MSIX_EN].contains f

/-- A field that a soft reset leaves: gate fault latches and CAUSE_PRESENT, the safety island's state, what SEC_STAT tells of keys, the
life of a cell, which only Table 5-1 changes, the slices that failed, which no reset but power-on returns (R442), and the levels of `levelField`. -/
def keptField (f : RegField) : Bool :=
  f.ty == .ro && (f.page == 0x98 || f.page == 0xA0 || f.page == 0x5A || (f.page == 0x59 && f.ofs == 0x048)
    || f == CNF.CH_FAILED || f == CNF.CH_ACTIVE || f == CNF.STAT_SLICE_FAIL2 || f == CNF.STAT_CAL_FAULT
    || f == EDG.TRIP_STAT_LATCH || levelField f)

/-- The keys of a page's registers that a soft reset leaves. -/
def keptKeys (page : Nat) : List Nat :=
  ((blockOf page).map fun b => (b.fields.filter keptField).flatMap fun f => (List.range f.cnt).map fun i => f.key (page - b.first) i).getD []

/-- The register file with a page's own registers at their reset values. -/
def State.resetRegs (s : State) (page : Nat) : List (Nat × Nat) :=
  let own := fun (k : Nat) => decide (page * 131072 + 0x40 * 32 ≤ k ∧ k < (page + 1) * 131072)
  let kept := keptKeys page
  let l := s.regs.filter fun c => !own c.1 || kept.contains c.1
  ((State.afterPor s.straps).regs.filter fun c => own c.1 && !kept.contains c.1).foldl (fun l c => Sparse.insert l c.1 c.2) l

/-- The converters' sequencers restarted: the CNI part. -/
def resetCni (m n : MeasState) : MeasState :=
  { m with starts := n.starts.take 16 ++ m.starts.drop 16, due := n.due.take 16 ++ m.due.drop 16, closed := n.closed, len := n.len
           overed := n.overed, asked := n.asked, sector := n.sector }

/-- The converters' sequencers restarted: the CNF part. -/
def resetCnf (m n : MeasState) : MeasState :=
  { m with scan := n.scan, starts := m.starts.take 16 ++ n.starts.drop 16, due := m.due.take 16 ++ n.due.drop 16, scanAt := n.scanAt
           scanChs := n.scanChs, frozeAt := n.frozeAt }

/-- The legs and channels restarted with their fault latches kept (R643, R283). -/
def resetGate (g n : GateState) : GateState := { n with genLow := g.genLow, genHeld := g.genHeld, burstAt := g.burstAt, burstOn := g.burstOn }

/-- The edge scheduler restarted: nothing queued, every channel as its last turn-off left it for the dead time (R230). -/
def resetEdge (e n : EdgeState) : EdgeState :=
  { n with chans := e.chans.map (fun x => { x with due := [], tripped := false }), otTrip := e.otTrip }

/-- The sequencers of a block restarted: what the model holds of them beside the registers, as `n` has it. -/
def State.restart (s n : State) (page : Nat) : State :=
  if page = 0x03 then { s with pwr := { s.pwr with supOut := n.pwr.supOut, supIn := n.pwr.supIn, supWarn := n.pwr.supWarn } }
  else if page = 0x08 then { s with mer := { n.mer with
    mer := s.mer.mer, uptime := s.mer.uptime, rateRes := s.mer.rateRes, lastS := s.mer.lastS, seq := s.mer.seq, cellLocked := s.mer.cellLocked
    sPrev := s.mer.sPrev } }
  else if page = 0x09 ∨ page = 0x0A then { s with ptp := setAt s.ptp (page - 9) emptyPtp }
  else if page = 0x40 then { s with txns := [], bootStop := false, trunk := { s.trunk with landed := [], service := false } }
  else if page = 0x41 then s.modPair fun p => { p with fseq := 0, lastF := none, miss := 0, got := false, back := 0, delays := [] }
  else if page = 0x48 then { s with ctr := n.ctr }
  else if 0x49 ≤ page ∧ page < 0x55 then { s with groups := setAt s.groups (page - 0x49) emptyGroup }
  else if page = 0x58 then { s with edge := resetEdge s.edge n.edge }
  else if page = 0x59 then { s with gate := resetGate s.gate n.gate }
  else if page = 0x60 ∨ page = 0x61 then { s with graph := n.graph }
  else s

/-- The sequencers of the other blocks restarted. -/
def State.restartMore (s n : State) (page : Nat) : State :=
  if 0x68 ≤ page ∧ page < 0x78 then { s with axes := setAt s.axes (page - 0x68) emptyAxis }
  else if 0x78 ≤ page ∧ page < 0x80 then ({ s with fbk := setAt s.fbk (page - 0x78) (n.fbk.getD 0 emptyFbk) }).fbkMode (page - 0x78)
  else if page = 0x80 then { s with meas := resetCni s.meas n.meas }
  else if page = 0x81 then { s with meas := resetCnf s.meas n.meas }
  else if page = 0x82 then { s with meas := { s.meas with sv := n.meas.sv } }
  else if page = 0x83 then { s with meas := { s.meas with pmuInv := n.meas.pmuInv, utc := n.meas.utc, leapAt := none } }
  else if page = 0x88 then { s with svy := n.svy }
  else if page = 0x89 then { s with tri := n.tri }
  else if page = 0x90 then s.enterOff
  else if page = 0x99 then s.modSaf fun x => { x with conns := n.saf.conns }
  else if page = 0xA0 then s.modSec fun x => { x with cmd := none, challenge := none }
  else if 0xA8 ≤ page ∧ page < 0xAC then { s with txq := s.txq.filter fun f => f.port != page - 0xA8 }
  else if page = 0xB0 then { s with hif := { n.hif with failed := s.hif.failed } }
  else s

/-- A soft reset of GDR or EDG first turns every channel off, with GATE_EN and CH_EN at 0 (R283). -/
def State.gatesOff (s : State) (page : Nat) : State :=
  if s.isCell && (page == 0x58 || page == 0x59) then
    (((s.wr GDR.CTL_GATE_EN 0).wr GDR.CTL_CH_EN 0).allOff s.mer.mer).enforceEnables
  else s

/-- A soft reset of a page (R643): registers and sequencers at once, BUSY until it completes. -/
def State.softReset (s : State) (page : Nat) : State :=
  if s.onI PG.LOCKED page then s.accessErr page 0x008 3
  else
    let n := State.afterPor s.straps
    let s := s.gatesOff page
    let t := { s.wrI PG.ENABLE page 0 with regs := (s.wrI PG.ENABLE page 0).resetRegs page }
    let t := (t.restart n page).restartMore n page
    let t := if t.isCell && (page == 0x58 || page == 0x59) then t.showGate else if decide (0x48 ≤ page ∧ page < 0x55) then t.showCtr else t
    { t with pwr := { t.pwr with resetting := t.pwr.resetting ++ [page] } }

/-- A write of PG_CTL: ENABLE, FREEZE, then SOFT_RESET. -/
def State.pgCtlWrite (s : State) (page v : Nat) : State :=
  let s := if v % 2 ^ 32 &&& 0xFFFFFFE8 = 0 then s else s.accessErr page 0x008 1
  let s := (s.enableWrite page (bitOf v 0)).freezeWrite page (bitOf v 2)
  if bitOf v 1 then s.softReset page else s

/-- A write of the common header. -/
def State.headerWrite (s : State) (page ofs v : Nat) : State :=
  if ofs = 0x008 then s.pgCtlWrite page v
  else if ofs = 0x010 then s.evtRawWrite page v
  else if ofs = 0x014 then
    let (s, m) := s.eventBits page 0x014 v
    s.wrI PG.EVT_EN page m
  else if ofs = 0x018 then s.evtPendWrite page v
  else if ofs = 0x01C then s.evtForceWrite page v
  else if ofs = 0x020 then s.lockWrite page v
  else if ofs < 0x028 then s.accessErr page ofs 2
  else if v % 2 ^ 32 = 0 then s
  else s.accessErr page ofs 1

/-! The blocks' own registers. -/

/-- A positive finite binary32 number. -/
def posFinite (v : Nat) : Bool := (num32 v).isFinite && Num.zero.lt (num32 v)

/-- A write of the pages 0x00 to 0x03. -/
def State.sysWrite (s : State) (page ofs v : Nat) : State :=
  if page = 0 ∧ ofs = 0x050 then s.sysResetWrite v
  else if page = 1 ∧ ofs = 0x044 then s.dormantWrite v
  else if page = 1 ∧ ofs = 0x04C then (s.noteErrors page ofs (v / 2 ^ 16 * 2 ^ 16)).budgetWrite v
  else if page = 2 ∧ 0x060 ≤ ofs ∧ ofs < 0x080 then s.clkOutWrite ((ofs - 0x060) / 4) v
  else s.storeWord page ofs v

/-- A write of the MER page. -/
def State.merWrite (s : State) (ofs v : Nat) : State :=
  if ofs = 0x084 then s.todArm v
  else
    let s := s.storeWord 0x08 ofs v
    if ofs = 0x040 then
      let s := if bitOf v 4 then s.switchReq else s
      if bitOf v 5 then s.reanchor else s
    else s

/-- A write of a BNT page; BNT_PORT_STAT.LEGACY shows the framing (R139, R142). -/
def State.bntWrite (s : State) (page ofs v : Nat) : State :=
  let s := s.storeWord page ofs v
  if ofs = 0x040 then
    s.wrI BNT.PORT_STAT_LEGACY (page - 0x10) (ofBool (s.onI BNT.PORT_CTL_LEGACY (page - 0x10) || s.on SYS.STRAP_LGCY))
  else s

/-- A write of the BNC page: UP starts a bring-up (R118), and a split written for a ring in service is broadcast (R675). -/
def State.bncWrite (s : State) (ofs v : Nat) : State :=
  if ofs = 0x078 then s.bootCtlWrite v
  else
    let s := s.storeWord 0x40 ofs v
    if ofs = 0x084 then (if s.isCell then s.modCellRole fun c => { c with splitNew := some (v % 512) } else s)
    else if 0x100 ≤ ofs ∧ ofs < 0x400 ∧ ofs % 16 = 0 then
      let r := (ofs - 0x100) / 16
      if bitOf v 30 then s.takeDown r else if bitOf v 31 then s.startUp r else s
    else if 0x100 ≤ ofs ∧ ofs < 0x400 ∧ ofs % 16 = 12 ∧ s.inService ((ofs - 0x100) / 16) then
      s.modRing ((ofs - 0x100) / 16) fun x => { x with splitDue := true }
    else s

/-- A write of a CTG page (R148, R153, R156). -/
def State.ctgWrite (s : State) (page ofs v : Nat) : State :=
  let on := s.onI PG.ENABLE page
  if (ofs = 0x058 ∨ ofs = 0x054) ∧ !posFinite (v % 2 ^ 32) then s.accessErr page ofs 4
  else if on ∧ ofs = 0x044 then s.accessErr page ofs 4
  else if on ∧ ofs = 0x040 then
    let keep := s.rawWord page 0x040 % 4
    let t := s.storeWord page ofs (v / 4 * 4 + keep)
    if v % 4 = keep then t else t.accessErr page ofs 4
  else s.storeWord page ofs v

/-- A write of the EDG, GDR or CEL page. -/
def State.edgeWrite (s : State) (page ofs v : Nat) : State :=
  let tev := page == 0x58 && decide (0x0A0 ≤ ofs ∧ ofs < 0x0E0)
  if tev then (s.storeWord page ofs v).tevCheck ((ofs - 0x0A0) / 16)
  else if !s.isCell then s.accessErr page ofs 4
  else if page = 0x58 ∧ (ofs = 0x054 ∨ ofs = 0x058) then (s.noteErrors page ofs v).mapWrite ofs v
  else if page = 0x58 ∧ ofs = 0x040 then s.edgCtlWrite v
  else if page = 0x58 ∧ (ofs = 0x070 ∨ ofs = 0x074) then s.lcWrite ofs v
  else if page = 0x58 ∧ ofs = 0x064 then (s.noteErrors page ofs v).tripClrWrite v
  else if page = 0x58 ∧ ofs = 0x07C then
    let s := s.noteErrors page ofs v
    if bitOf v 0 then s.commitWrite else s
  else if page = 0x59 ∧ ofs = 0x040 then s.gdrCtlWrite v
  else if page = 0x5A ∧ ofs = 0x06C then s.celBootWrite v
  else if page = 0x5A ∧ (ofs = 0x050 ∨ ofs = 0x058) ∧ !(num32 (v % 2 ^ 32)).isFinite then s.accessErr page ofs 4
  else s.storeWord page ofs v

/-- A write of the GRF or GRS page. -/
def State.graphWrite (s : State) (page ofs v : Nat) : State :=
  if page = 0x60 ∧ ofs = 0x040 then s.grfCtlWrite v
  else if page = 0x60 ∧ ofs = 0x084 then s.coefDataWrite v false
  else if page = 0x60 ∧ ofs = 0x090 then s.fblStatWrite v
  else if page = 0x61 ∧ ofs = 0x040 then ((s.noteErrors page ofs v).cancel (v % 4096)).graphDone
  else
    let s := s.storeWord page ofs v
    if page = 0x61 ∧ ofs = 0x058 then s.showGraph else s

/-- A write of an AXS page. -/
def State.axsWrite (s : State) (a ofs v : Nat) : State :=
  if ofs = 0x048 then s.axsCtlWrite a v
  else if 0x084 ≤ ofs ∧ ofs < 0x098 then s.gearWrite a ofs v
  else if ofs = 0x0C4 then s.datumCtlWrite a v
  else if ofs = 0x0C8 then s.ltCfgWrite a v
  else if ofs = 0x0E8 then s.cmpWrite a 0 v
  else if ofs = 0x0F8 then s.cmpWrite a 1 v
  else s.storeWord (axisPage a) ofs v

/-- A write of the converter, sampled-value or PMU page. -/
def State.measWrite (s : State) (page ofs v : Nat) : State :=
  if page = 0x80 ∧ ofs = 0x040 then s.withFloor page ofs fun s => s.storeWord page ofs v
  else if page = 0x82 ∧ ofs = 0x040 then
    let was := s.rd SVS.CTL_EN
    let s := s.storeWord page ofs v
    (List.range 16).foldl (fun s i => if s.bit SVS.CTL_EN i && !bitOf was i then s.modSv i fun x => { x with lastAt := s.mer.uptime } else s) s
  else if page = 0x83 ∧ ofs = 0x044 then
    let s := s.storeWord page ofs v
    if (pmuRates (s.on PMU.CFG_F_NOM)).contains (s.rd PMU.CFG_FS) then s else s.wr PMU.CFG_FS (if s.on PMU.CFG_F_NOM then 60 else 50)
  else if page = 0x83 then (s.storeWord page ofs v).pmuSources
  else s.storeWord page ofs v

/-- A write of the SVY page (R14: DISARM stands first in Table 13-3). -/
def State.svyWrite (s : State) (ofs v : Nat) : State :=
  let s := s.storeWord 0x88 ofs v
  if ofs = 0x040 then
    let s := if s.isCell then s.wr SVY.CTL_MODE 0 else s
    let s := if bitOf v 1 then s.svyDisarm else if bitOf v 0 then s.svyArm else s
    if bitOf v 2 then s.svyFireHere 4 0 s.mer.mer else s
  else if ofs = 0x044 then
    let s := if s.isCell then s.wr SVY.CFG_CH_EN (s.rd SVY.CFG_CH_EN % 4) else s
    s.wr SVY.STAT_G_MAX s.svyGmax
  else if ofs = 0x05C then s.svyFree (v / 256 % 256)
  else s

/-- The SEC registers that a cell serves: SEC_CMD, SEC_STAT, SEC_ID, SEC_OWNER and SEC_MBOX ("Security", before its rules' index). -/
def cellSecWord (ofs : Nat) : Bool := ofs == 0x040 || ofs == 0x044 || decide (0x080 ≤ ofs ∧ ofs < 0x0E0) || decide (0x400 ≤ ofs ∧ ofs < 0x800)

/-- A write of the SEC page. -/
def State.secWrite (s : State) (ofs v : Nat) : State :=
  if s.isCell ∧ !cellSecWord ofs then s.accessErr 0xA0 ofs 4
  else if ofs = 0x040 then s.secCmdWrite v
  else if 0x400 ≤ ofs ∧ ofs < 0x800 ∧ s.on SEC.STAT_BUSY then s.accessErr 0xA0 ofs 4
  else
    let s := s.storeWord 0xA0 ofs v
    if ofs = 0x048 ∧ bitOf v 22 then s.rekeyNow (s.rd SEC.RING)
    else if ofs = 0x04C then (if bitOf v 17 then s.suspectClr (s.rd SEC.SUSPECT_CELL) else s.showSuspect)
    else s

/-- A write of HIF_BOOT.GO (R639): taken only while the ROM waits for the host. -/
def State.bootGo (s : State) : State :=
  if s.rd SYS.BOOT_STATE = 6 then (s.wr SYS.BOOT_STATE 2).wr SYS.BOOT_SRC 2 else s.accessErr 0xB0 0x044 4

/-- A write of HIF_QSPI_CMD with START (R648): the command given runs; one that runs already lets no other start. -/
def State.qspiStart (s : State) : State :=
  if s.hif.flash ∨ s.rd SYS.BOOT_STATE ≠ 4 then s.accessErr 0xB0 0x050 4
  else
    let n := min 64 (s.rd HIF.QSPI_CMD_LEN)
    let ab := if s.on HIF.QSPI_ADDR4 then 4 else s.rd HIF.QSPI_CMD_ADDR_BYTES
    let data := if s.on HIF.QSPI_CMD_WRITE then ((List.range 16).flatMap fun i => leBytes 4 (s.rdA HIF.QSPI_DATA 0 i)).take n else []
    let addr := s.rd HIF.QSPI_ADDR
    (s.modHif fun h => { h with flash := true }).emit (.flash (s.rd HIF.QSPI_CMD_OPCODE) addr ab (s.rd HIF.QSPI_CMD_DUMMY) data)

/-- A write of the HIF page. -/
def State.hifWrite (s : State) (ofs v : Nat) : State :=
  if ofs = 0x044 then
    let s := s.noteErrors 0xB0 ofs v
    if bitOf v 0 then s.bootGo else s
  else if 0x100 ≤ ofs ∧ ofs < 0x200 ∧ ofs % 16 = 4 then (s.noteErrors 0xB0 ofs v).hstPiWrite ((ofs - 0x100) / 16) v
  else if 0x100 ≤ ofs ∧ ofs < 0x200 ∧ ofs % 16 = 8 then (s.noteErrors 0xB0 ofs v).hstCiWrite ((ofs - 0x100) / 16) v
  else
    let s := s.storeWord 0xB0 ofs v
    if ofs = 0x050 ∧ bitOf v 31 then s.qspiStart else s

/-- The levels at the GPIO pins: an output's own level (AUX), an edge selected raises GPIO. -/
def State.gpioLevels (s : State) (inputs : Nat) : State :=
  let dir := s.rd AUX.GPIO_DIR
  let new := (s.rd AUX.GPIO_OUT &&& dir) ||| (inputs % 256 &&& (255 - dir))
  let old := s.rd AUX.GPIO_IN
  let hit := (new &&& (255 - old) &&& s.rd AUX.EDGE_RISE) ||| (old &&& (255 - new) &&& s.rd AUX.EDGE_FALL)
  let s := (s.wr AUX.GPIO_IN new).wr AUX.EDGE_SEEN (s.rd AUX.EDGE_SEEN ||| hit)
  s.raiseIf (hit != 0) 0xB2 0

/-- A write of a block's own register, presented to the block (R11). -/
def State.ownWrite (s : State) (page ofs v : Nat) : State :=
  if page < 4 then s.sysWrite page ofs v
  else if page = 0x08 then s.merWrite ofs v
  else if 0x10 ≤ page ∧ page < 0x40 then s.bntWrite page ofs v
  else if page = 0x40 then s.bncWrite ofs v
  else if page = 0x41 then s.withFloor page ofs fun s => s.storeWord page ofs v
  else if page = 0x48 then
    let s := s.storeWord page ofs v
    if ofs = 0x040 ∧ bitOf v 1 then s.timingApply else s
  else if 0x49 ≤ page ∧ page < 0x55 then s.ctgWrite page ofs v
  else if 0x58 ≤ page ∧ page < 0x5B then s.edgeWrite page ofs v
  else if page = 0x60 ∨ page = 0x61 then s.graphWrite page ofs v
  else if 0x68 ≤ page ∧ page < 0x78 then s.axsWrite (page - 0x68) ofs v
  else if 0x78 ≤ page ∧ page < 0x80 ∧ ofs = 0x040 then (s.storeWord page ofs v).fbkMode (page - 0x78)
  else if 0x80 ≤ page ∧ page < 0x84 then s.measWrite page ofs v
  else if page = 0x88 then s.svyWrite ofs v
  else if page = 0x90 ∧ ofs = 0x044 then s.clrCtlWrite v
  else if page = 0x98 ∧ ofs = 0x040 then s.safCtlWrite v
  else if page = 0xA0 then s.secWrite ofs v
  else if page = 0xB0 then s.hifWrite ofs v
  else if page = 0xB2 ∧ ofs = 0x040 then
    let s := s.storeWord page ofs v
    s.gpioLevels (s.rd AUX.GPIO_IN)
  else s.storeWord page ofs v

/-- A write presented to a register: what the block does with it, in full. -/
def State.writeReg (s : State) (page ofs v : Nat) : State :=
  if ofs < 0x40 then s.headerWrite page ofs v else s.ownWrite page ofs v

/-! Reads. -/

/-- A word of the common header. -/
def State.headerWord (s : State) (page ofs : Nat) : Nat :=
  match blockOf page with
  | none => 0
  | some b =>
    if ofs = 0x000 then 1 + 256 * (page - b.first) + 65536 * b.first
    else if ofs = 0x004 then b.events + 256 * ofBool b.lockable + 512 * ofBool b.cell
    else if ofs = 0x008 then s.rdI PG.ENABLE page + 4 * s.rdI PG.FREEZE page
    else if ofs = 0x00C then
      s.rdI PG.ENABLE page + 2 * ofBool (s.pageActive page) + 4 * s.rdI PG.LOCKED page + 8 * ofBool (s.pwr.resetting.contains page)
    else if ofs = 0x010 then s.rdI PG.EVT_RAW page
    else if ofs = 0x014 then s.rdI PG.EVT_EN page
    else if ofs = 0x018 then s.rdI PG.EVT_PEND page
    else if ofs = 0x024 then s.rdI PG.ERR_OFFSET page + 4096 * s.rdI PG.ERR_CODE page + 65536 * s.rdI PG.ERR_COUNT page
    else 0

/-- What a read does before it takes the value: a read of MER_TIME latches the time (R89), a read of a Bearing brings it up to now. -/
def State.readBefore (s : State) (page ofs : Nat) : State :=
  if page = 0x08 ∧ ofs = 0x048 then s.snapshot
  else if 0x68 ≤ page ∧ page < 0x78 ∧ 0x0A4 ≤ ofs ∧ ofs < 0x0C0 then s.evalAxis (page - 0x68) s.mer.mer
  else s

/-- A field as a read returns it: WO as 0, RO and RC from the snapshot of a frozen page (R11, R644). -/
def State.fieldRead (s : State) (page ofs : Nat) (f : RegField × Nat) : Nat :=
  match f.1.ty with
  | .wo => 0
  | .ro | .rc =>
    if s.onI PG.FREEZE page then bitsOf ((Sparse.get s.frozen (page * 4096 + ofs)).getD 0) f.1.lo f.1.width
    else s.shown f.1 (page - f.1.page) f.2
  | _ => s.rdA f.1 (page - f.1.page) f.2

/-- A block's own register as a read returns it. -/
def State.ownWord (s : State) (page ofs : Nat) : Nat :=
  if s.isHub ∧ (page = 0x5A ∨ (page = 0x58 ∧ (ofs < 0x0A0 ∨ 0x0E0 ≤ ofs))) then 0
  else if s.isCell ∧ page = 0xA0 ∧ !cellSecWord ofs then 0
  else if s.isCell ∧ page = 0x98 then (if ofs = 0x044 then s.rd SAF.STAT_FAULT * 256 + s.rd SAF.STAT_XCHK_OK * 64 else 0)
  else if page = 0x88 ∧ 0x140 ≤ ofs ∧ ofs < 0x170 then s.memLe (0x500000 + (s.rd SVY.RD_ADDR + ofs - 0x140) % s.svySize) 4
  else (fieldsAt page ofs).foldl (fun w f => w + s.fieldRead page ofs f * 2 ^ f.1.lo) 0

/-- The value that a read of a register returns. -/
def State.readWord (s : State) (page ofs : Nat) : Nat := if ofs < 0x40 then s.headerWord page ofs else s.ownWord page ofs

/-- The RC fields of a register cleared by its read; a snapshot's are not (R11, R644). -/
def State.rcClear (s : State) (page ofs : Nat) : State :=
  if ofs = 0x024 then ((s.wrI PG.ERR_OFFSET page 0).wrI PG.ERR_CODE page 0).wrI PG.ERR_COUNT page 0
  else if ofs < 0x40 ∨ s.onI PG.FREEZE page then s
  else (fieldsAt page ofs).foldl (fun t f => if f.1.ty == .rc then t.wrA f.1 (page - f.1.page) f.2 0 else t) s

/-- What a read does: RC fields clear, a popped FIFO moves on. -/
def State.readAfter (s : State) (page ofs : Nat) : State :=
  let s := s.rcClear page ofs
  if page = 0x89 ∧ ofs = 0x10C then s.frontPop
  else if 0x68 ≤ page ∧ page < 0x78 ∧ ofs = 0x0DC then s.latchPop (page - 0x68)
  else if page = 0x88 ∧ 0x140 ≤ ofs ∧ ofs < 0x170 ∧ s.on SVY.RD_ADDR_AUTOINC then s.wr SVY.RD_ADDR ((s.rd SVY.RD_ADDR + 4) % s.svySize)
  else s

/-- A register read: the state after it, and the value. -/
def State.readReg (s : State) (page ofs : Nat) : State × Nat :=
  let s := s.readBefore page ofs
  (s.readAfter page ofs, s.readWord page ofs)

end Sys2Proof.Machine
end

