-- ==== Sys2Proof/Machine/Host.lean ====
section
/-! DEFINITION. Register accesses of the host, of the SPI initiator, of pennants and of the pair (R11, R117, R212 to R215, R487, R606, R619,
R629, R630, R633, R641 to R645, R648), and what the SYS, HIF and AUX pages report of the device (R25, R509, R647). -/

namespace Sys2Proof.Machine

/-! The common page header. -/

/-- The bits of a clear whose raise does not fall in the same cycle: the others stay set (R629). -/
def clearBits (mask raised : Nat) : Nat := mask &&& (2 ^ 32 - 1 - raised % 2 ^ 32)

/-- EVT_PEND_WRITE (R629); a bit raised in the same cycle stays set. -/
def execEvtPendWrite (page : Nat) (bits : EventClear) (s : State) : Host.Outcome State Fault Refusal :=
  s.live fun s => s.busWrite page 0x018 bits.mask fun s => s.evtPendWrite page (clearBits bits.mask bits.raised)

/-- EVT_RAW_WRITE (R629); a bit raised in the same cycle stays set. -/
def execEvtRawWrite (page : Nat) (bits : EventClear) (s : State) : Host.Outcome State Fault Refusal :=
  s.live fun s => s.busWrite page 0x010 bits.mask fun s => s.evtRawWrite page (clearBits bits.mask bits.raised)

/-- EVT_FORCE (R629). -/
def execEvtForce (page mask : Nat) (s : State) : Host.Outcome State Fault Refusal :=
  s.live fun s => s.busWrite page 0x01C mask fun s => s.evtForceWrite page mask

/-- PAGE_LOCK (R642). -/
def execPageLock (page : Nat) (s : State) : Host.Outcome State Fault Refusal :=
  s.live fun s => s.busWrite page 0x020 0x4C4B fun s => s.lockWrite page 0x4C4B

/-- PAGE_UNLOCK (R642, Table 15-1). -/
def execPageUnlock (page : Nat) (s : State) : Host.Outcome State Fault Refusal :=
  s.live fun s => s.busWrite page 0x020 0x554C fun s => s.lockWrite page 0x554C

/-- PG_CTL as it reads, with SOFT_RESET, or with FREEZE as given. -/
def State.pgCtl (s : State) (page : Nat) (reset freeze : Bool) : Nat := s.rdI PG.ENABLE page + 2 * ofBool reset + 4 * ofBool freeze

/-- SOFT_RESET (R643). -/
def execSoftReset (page : Nat) (s : State) : Host.Outcome State Fault Refusal :=
  s.live fun s => s.busWrite page 0x008 (s.pgCtl page true (s.onI PG.FREEZE page)) fun s => s.softReset page

/-- SOFT_RESET_DONE (R643): within 1 µs BUSY clears. -/
def execSoftResetDone (page : Nat) (s : State) : Host.Outcome State Fault Refusal :=
  s.live fun s =>
    if s.pwr.resetting.contains page then
      { s.advance us with pwr := { s.pwr with resetting := s.pwr.resetting.filter fun p => p != page } }
    else s

/-- FREEZE (R644). -/
def execFreeze (page : Nat) (on : Bool) (s : State) : Host.Outcome State Fault Refusal :=
  s.live fun s => s.busWrite page 0x008 (s.pgCtl page false on) fun s => s.freezeWrite page on

/-! Register accesses. -/

/-- A register read by the host or by a cell's own software: its value returned, with the effects of the read. -/
def State.hostRead (s : State) (page ofs : Nat) : State :=
  let (s, v) := s.readReg page ofs
  s.emit (.readData page ofs v)

/-- The MSI-X table with a word given a value; an entry that nothing has written is masked (R630). -/
def msixPut (l : List Nat) (i v : Nat) : List Nat :=
  (List.range 256).map fun j => if j = i then v else l.getD j (if j % 4 = 3 then 1 else 0)

/-- A write of the MSI-X table (R618, R630): a pending vector that is unmasked is sent; the pending bit array takes no write. -/
def State.msixWrite (s : State) (a v : Nat) : State :=
  if 1024 ≤ a then s
  else
    let s := { s with msix := msixPut s.msix (a / 4) (v % 2 ^ 32) }
    let vec := a / 16
    if bitOf s.msixPending vec && !s.msixMasked vec && s.on HIF.PCIE_MSIX_EN then
      ({ s with msixPending := putBit s.msixPending vec false }).emit (.msix vec)
    else s

/-- A write of `size` bytes in BAR0, or in BAR4 (R11, R619). -/
def State.pcieWrite (s : State) (bar page ofs value size : Nat) : State :=
  if bar = 4 then (if s.isHub ∧ size = 4 ∧ ofs % 4 = 0 then s.msixWrite (page * 4096 + ofs) value else s)
  else if size ≠ 4 then s.accessErr 0xB0 ofs 5
  else s.busWrite page ofs value fun s => s.writeReg page ofs value

/-- A word of BAR4 (Table 18-2): of the MSI-X table, an entry that nothing has written being masked, or of the pending bits behind it (R630). -/
def State.msixWord (s : State) (a : Nat) : Nat :=
  if 1024 ≤ a then (if a = 4096 ∨ a = 4100 then s.msixPending / 2 ^ (8 * (a - 4096)) % 2 ^ 32 else 0)
  else s.msix.getD (a / 4) (if a / 4 % 4 = 3 then 1 else 0)

/-- A read of `size` bytes in BAR0, or in BAR4 (R11, R619): one of another size, or not aligned, returns 0. -/
def State.pcieRead (s : State) (bar page ofs size : Nat) : State :=
  if bar = 4 then
    (if s.isHub ∧ size = 4 ∧ ofs % 4 = 0 then s.emit (.readData page ofs (s.msixWord (page * 4096 + ofs))) else s.emit (.readData page ofs 0))
  else if size ≠ 4 then (s.accessErr 0xB0 ofs 5).emit (.readData page ofs 0)
  else s.busRead page ofs fun s => s.hostRead page ofs

/-- RC_FIELD_READ (R11, R619): a read of `size` bytes in BAR0, or in BAR4; the RC fields of the register clear. -/
def execRcFieldRead (at_ : BarPlace) (size : Nat) (s : State) : Host.Outcome State Fault Refusal :=
  s.live fun s => s.inTurn (.rcFieldRead at_ size) fun s => s.pcieRead at_.bar at_.page at_.ofs size

/-- REGISTER_WRITE (R11, R619): a write of `size` bytes in BAR0, or in BAR4. -/
def execRegisterWrite (bar page ofs value size : Nat) (s : State) : Host.Outcome State Fault Refusal :=
  s.live fun s => s.inTurn (.registerWrite bar page ofs value size) fun s => s.pcieWrite bar page ofs value size

/-! The SPI target. -/

/-- The result of an SPI access kept for the status opcode: whether it was a write that has been performed, and whether it recorded an
error since `was` failures had been counted. -/
def State.spiNote (s : State) (done : Bool) (was : Nat) : State :=
  s.modHif fun h => { h with spiDone := done, spiErr := decide (h.failed ≠ was) }

/-- Address bits that must be 0 in an SPI access (R633). -/
def spiBad (addr : Nat) : Bool := addr % 4 != 0 || addr / 2 ^ 20 % 16 != 0

/-- The 0x01 byte and four data bytes that answer an SPI read (R633). -/
def State.spiAnswer (s : State) (v : Nat) : State := s.emit (.spi (1 :: leBytes 4 v))

/-- An SPI write of a register. -/
def State.spiWrite (s : State) (page ofs v : Nat) : State :=
  let was := s.hif.failed
  match s.busVerdict page ofs true with
  | .perform => ((s.useIslands (homeIslands s.isCell page)).present page ofs v fun s => s.writeReg page ofs v).spiNote true was
  | .hold => (s.hold ⟨page, ofs, v, true, 1⟩).spiNote false was
  | .fail p c => (s.accessErr p ofs c).spiNote false was

/-- The PCI Express access at the front of the queue, where it reaches the register at BAR0 offset `addr` in this cycle. -/
def State.pcieTie (s : State) (addr : Nat) : Option Instr :=
  match s.pending.head? with
  | some (.rcFieldRead ⟨bar, page, ofs⟩ 4) =>
    if bar ≠ 4 ∧ page * 4096 + ofs = addr then some (.rcFieldRead ⟨bar, page, ofs⟩ 4) else none
  | some (.registerWrite bar page ofs value 4) =>
    if bar ≠ 4 ∧ page * 4096 + ofs = addr then some (.registerWrite bar page ofs value 4) else none
  | _ => none

/-- The SPI access `acc` at `addr`; with a tie, after the PCI Express access that reaches the same register in its cycle (R634). Where both
fail at one page, the higher code is recorded (R645). -/
def State.afterPcie (s : State) (tie : Bool) (addr : Nat) (acc : State → State) : State :=
  match if tie then s.pcieTie addr else none with
  | none => acc s
  | some i =>
    let p := match i with
      | .rcFieldRead ⟨bar, page, ofs⟩ size => s.pcieRead bar page ofs size
      | .registerWrite bar page ofs value size => s.pcieWrite bar page ofs value size
      | _ => s
    let t := acc p
    let t := { t with served := t.served ++ [i] }
    if p.hif.failed ≠ s.hif.failed ∧ t.hif.failed ≠ p.hif.failed ∧ t.hif.lastErr.1 = p.hif.lastErr.1 then
      t.wrI PG.ERR_CODE t.hif.lastErr.1 (max p.hif.lastErr.2 t.hif.lastErr.2)
    else t

/-- SPI_WRITE (R633): the address and data of a frame. -/
def execSpiWrite (addr data : Nat) (frame : SpiFrame) (s : State) : Host.Outcome State Fault Refusal :=
  s.live fun s =>
    if !s.isHub || !frame.whole then s
    else if spiBad addr then (s.accessErr 0xB0 (addr % 4096) 5).spiNote false s.hif.failed
    else s.afterPcie frame.tie addr fun s => s.spiWrite (addr / 4096) (addr % 4096) (data % 2 ^ 32)

/-- An SPI read of a register. -/
def State.spiRead (s : State) (page ofs : Nat) : State :=
  let was := s.hif.failed
  let done := s.hif.spiDone
  match s.busVerdict page ofs false with
  | .perform =>
    let (s, v) := (s.useIslands (homeIslands s.isCell page)).readReg page ofs
    (s.spiAnswer v).spiNote done was
  | .hold => ((s.hold ⟨page, ofs, 0, false, 1⟩).emit (.spi [0])).spiNote done was
  | .fail p c => ((s.accessErr p ofs c).spiAnswer 0).spiNote done was

/-- SPI_READ (R633): as SPI_WRITE. -/
def execSpiRead (addr : Nat) (frame : SpiFrame) (s : State) : Host.Outcome State Fault Refusal :=
  s.live fun s =>
    if !s.isHub || !frame.whole then s
    else if spiBad addr then ((s.accessErr 0xB0 (addr % 4096) 5).spiAnswer 0).spiNote s.hif.spiDone s.hif.failed
    else s.afterPcie frame.tie addr fun s => s.spiRead (addr / 4096) (addr % 4096)

/-- SPI_STATUS (R633). -/
def execSpiStatus (s : State) : Host.Outcome State Fault Refusal :=
  s.live fun s => if s.isHub then s.emit (.spi [BitVec.ofNat 8 (ofBool s.hif.spiDone + 2 * ofBool s.hif.spiErr)]) else s

/-! Accesses held. -/

/-- A held access performed. -/
def State.resumeHeld (s : State) (h : Held) : State :=
  let s := s.useIslands (homeIslands s.isCell h.page)
  let was := s.hif.failed
  if h.write then
    let t := if h.src = 3 then s.writeReg h.page h.ofs h.value else s.present h.page h.ofs h.value fun s => s.writeReg h.page h.ofs h.value
    if h.src = 1 then t.spiNote true was else t
  else if h.src = 1 then
    let (t, v) := s.readReg h.page h.ofs
    (t.spiAnswer v).spiNote s.hif.spiDone was
  else s.hostRead h.page h.ofs

/-- HELD_ACCESS_RESUME (R606, R643): the oldest access that nothing holds any more completes. -/
def execHeldAccessResume (s : State) : Host.Outcome State Fault Refusal :=
  s.live fun s =>
    match s.pwr.held.find? fun h => s.busVerdict h.page h.ofs h.write != .hold with
    | none => s
    | some h =>
      let t := { s with pwr := { s.pwr with held := s.pwr.held.erase h } }
      match s.busVerdict h.page h.ofs h.write with
      | .fail p c => t.accessErr p h.ofs c
      | _ => t.resumeHeld h

/-! Pennant accesses in a cell (R212 to R215). -/

/-- The word offsets of a request. -/
def penOffsets (p : HeldPen) : List Nat := (List.range (leAt p.data 7 1)).map fun i => leAt p.data 5 2 + 4 * i

/-- A request of an offset or count that R214 does not let through; a generation-1 pennant holds at most 5 words (R141). -/
def penBad (p : HeldPen) : Bool :=
  let o := leAt p.data 5 2
  let n := leAt p.data 7 1
  o % 4 != 0 || n == 0 || decide ((if p.data.length = 32 then 5 else 12) < n) || decide (0xFFC < o + 4 * (n - 1))

/-- The response to a request put among those that wait for a response slot (R114); a broadcast is answered by none (R215). -/
def State.answer (s : State) (p : HeldPen) (status : Nat) (data : Bytes) : State :=
  if leAt p.data 2 2 = 0 then s
  else
    let body := penBody 3 (leAt p.data 1 1 % 16) (s.rd BNC.CELL_INDEX) ([BitVec.ofNat 8 status, 0, 0] ++ sliceBytes p.data 7 1 ++ data)
    s.modCellRole fun c => { c with resp := c.resp ++ [(p.unit, body)] }

/-- A request waits for its page: asleep, or in a soft reset. -/
def State.penWaits (s : State) (p : HeldPen) (write : Bool) : Bool :=
  (penOffsets p).any fun o => s.busVerdict (leAt p.data 4 1) o write == .hold

/-- A request that the cell serves, read from one state. -/
def State.penRead (s : State) (p : HeldPen) : State :=
  let page := leAt p.data 4 1
  let ofs := penOffsets p
  let s := (ofs.foldl (fun s o => s.readBefore page o) s).useIslands (homeIslands s.isCell page)
  let data := (ofs.map fun o => leBytes 4 (s.readWord page o)).flatten
  (ofs.foldl (fun s o => s.readAfter page o) s).answer p 0 data

/-- The first offset of a request that names an RWL field of a locked page. -/
def State.penLocked (s : State) (p : HeldPen) : Option Nat :=
  let page := leAt p.data 4 1
  if s.onI PG.LOCKED page then (penOffsets p).find? fun o => (fieldsAt page o).any fun f => f.1.ty == .rwl else none

/-- A request that the cell serves, its words written in address order. -/
def State.penWrite (s : State) (p : HeldPen) : State :=
  let page := leAt p.data 4 1
  let s := s.useIslands (homeIslands s.isCell page)
  let s := (List.range (leAt p.data 7 1)).foldl (fun s i => s.writeReg page (leAt p.data 5 2 + 4 * i) (leAt p.data (8 + 4 * i) 4)) s
  s.answer p 0 []

/-- A held REG_RD acted on (R212 to R215); one whose page is asleep stays held. -/
def State.serveRead (s : State) (p : HeldPen) : State :=
  let t := { s with pens := s.pens.erase p }
  let page := leAt p.data 4 1
  if leAt p.data 2 2 = 0 then t.accessErr 0x40 (leAt p.data 5 2) 4
  else if !t.pagePresent page then t.answer p 1 []
  else if penBad p then t.answer p 3 []
  else if s.penWaits p false then (homeIslands true page).foldl (fun s k => s.askIsland k) s
  else t.penRead p

/-- A held REG_WR acted on (R192, R212 to R215); one whose page is asleep stays held. -/
def State.serveWrite (s : State) (p : HeldPen) : State :=
  let t := { s with pens := s.pens.erase p }
  let page := leAt p.data 4 1
  if !t.pagePresent page then t.answer p 1 []
  else if penBad p then t.answer p 3 []
  else if page = 0x5A ∧ (penOffsets p).contains 0x06C ∧ !t.cellKeyed then (t.accessErr 0x5A 0x06C 4).answer p 2 []
  else if s.penWaits p true then (homeIslands true page).foldl (fun s k => s.askIsland k) s
  else match t.penLocked p with
    | some o => (t.accessErr page o 3).answer p 2 []
    | none => t.penWrite p

/-- Of two requests the first executes first (R117): by the cycle of arrival, then by the number of the launching hub port, then hub A before
hub B. -/
def penBefore (p q : HeldPen) : Bool :=
  let a := p.time / cycPort
  let b := q.time / cycPort
  let m := Config.hubPort p.unit p.dir
  let n := Config.hubPort q.unit q.dir
  decide (a < b) || (a == b && (decide (m < n) || (m == n && decide (p.unit < q.unit))))

/-- A request put in its place. -/
def insertPen (p : HeldPen) : List HeldPen → List HeldPen
  | [] => [p]
  | q :: l => if penBefore q p then q :: insertPen p l else p :: q :: l

/-- The held requests of the two kinds, in the order in which they execute. -/
def State.regPens (s : State) : List HeldPen := (s.pens.filter fun p => p.isType 1 || p.isType 2).foldr insertPen []

/-- The first request of a kind executes, after those of the same cycle that stand before it (R117). -/
def State.serveReg (s : State) (typ : Nat) : State :=
  match s.regPens.find? fun p => p.isType typ with
  | none => s
  | some p =>
    let first := (s.regPens.takeWhile fun q => q != p).filter fun q => sameCycle cycPort q.time p.time
    (first ++ [p]).foldl (fun s q => if q.isType 1 then s.serveRead q else s.serveWrite q) s

/-- REG_RD (R117, R212 to R215). -/
def execRegRd (s : State) : Host.Outcome State Fault Refusal := s.live fun s => if s.isCell then s.serveReg 1 else s

/-- REG_WR (R117, R192, R212 to R215). -/
def execRegWr (s : State) : Host.Outcome State Fault Refusal := s.live fun s => if s.isCell then s.serveReg 2 else s

/-! Mirrored writes (R487). -/

/-- Strides by which a mirrored write's boundary has passed, if it has. -/
def State.mirrorAge (s : State) (m : Mirror) : Option Nat :=
  let d := (s.mer.seq + 2 ^ 32 - m.b) % 2 ^ 32
  if d < 2 ^ 31 then some d else none

/-- The mirrored writes of the oldest boundary that has come, those of hub A first. -/
def State.mirrorsDue (s : State) : List Mirror :=
  let ages := s.pair.mirrors.filterMap s.mirrorAge
  let oldest := ages.foldl max 0
  let due := s.pair.mirrors.filter fun m => s.mirrorAge m == some oldest
  (due.filter fun m => m.unit == 0) ++ (due.filter fun m => m.unit != 0)

/-- A mirrored write presented to its target. -/
def State.applyMirror (s : State) (m : Mirror) : State :=
  if m.bar2 then (if s.pieceBarred m.ofs m.data then s.accessErr 0xB0 m.ofs 7 else s.writePiece [] m.ofs m.data)
  else
    match s.busVerdict m.page m.ofs true with
    | .perform => (s.useIslands (homeIslands s.isCell m.page)).writeReg m.page m.ofs (ofLe m.data)
    | .hold => s.hold ⟨m.page, m.ofs, ofLe m.data, true, 3⟩
    | .fail p c => s.accessErr p m.ofs c

/-- MIRROR_APPLY (R487). -/
def execMirrorApply (s : State) : Host.Outcome State Fault Refusal :=
  s.live fun s =>
    let due := s.mirrorsDue
    due.foldl (fun s m => s.applyMirror m) (s.modPair fun p => { p with mirrors := p.mirrors.filter fun m => !due.contains m })

/-! Flash, pins, temperature and self-tests. -/

/-- QSPI_START (R648): a write of HIF_QSPI_CMD with START. -/
def execQspiStart (value : Nat) (s : State) : Host.Outcome State Fault Refusal :=
  s.live fun s => s.busWrite 0xB0 0x050 (value ||| 2 ^ 31) fun s => s.hifWrite 0x050 (value ||| 2 ^ 31)

/-- QSPI_DONE (R648): the flash command ends; a read's data stand in the window. -/
def execQspiDone (data : Bytes) (s : State) : Host.Outcome State Fault Refusal :=
  s.live fun s =>
    if !s.hif.flash then s
    else
      let s := s.modHif fun h => { h with flash := false }
      let win := overlay (((List.range 16).map fun i => leBytes 4 (s.rdA HIF.QSPI_DATA 0 i)).flatten) 0
        (sliceBytes data 0 (min 64 (s.rd HIF.QSPI_CMD_LEN)))
      let s := if s.on HIF.QSPI_CMD_WRITE then s
        else (List.range 16).foldl (fun s i => s.wrA HIF.QSPI_DATA 0 i (leAt win (4 * i) 4)) s
      s.raise 0xB0 6

/-- GPIO_EDGE (18, AUX page): the levels that the pins are driven to. -/
def execGpioEdge (inputs : Nat) (s : State) : Host.Outcome State Fault Refusal :=
  s.live fun s => if s.isHub then s.gpioLevels inputs else s

/-- TEMP_HIGH (18, AUX page): the hub's junction sensor reports a temperature, in 0.25 °C; HIGH is in °C. -/
def execTempHigh (t : Int) (s : State) : Host.Outcome State Fault Refusal :=
  s.live fun s =>
    if !s.isHub then s
    else
      let was := s.rdS AUX.TEMP_T 0
      let s := s.wrS AUX.TEMP_T 0 t
      let high := 4 * s.rdS AUX.TEMP_HIGH 0
      s.raiseIf (decide (was < high ∧ high ≤ s.rdS AUX.TEMP_T 0)) 0xB2 1

/-- A 64-bit word of SRAM that the role powers (R20, R26). -/
def State.sramWord (s : State) (w : Nat) : Bool :=
  w % 8 == 0 &&
    (if s.isCell then decide (w < 0x400000 ∨ (0x500000 ≤ w ∧ w < 0x700000) ∨ (0xD00000 ≤ w ∧ w < 0xE00000)) else decide (w < 0x1000000))

/-- SCRUB_PASS (R23 to R25): the single-bit errors corrected in a pass, and the words found with double-bit errors. -/
def execScrubPass (singles : Nat) (doubles : List Nat) (s : State) : Host.Outcome State Fault Refusal :=
  s.live fun s =>
    let s := if singles = 0 then s else (s.addCntA SYS.CNT_SRAM_SEC 0 0 singles).raise 0 0
    (doubles.filter s.sramWord).foldl
      (fun s w => ({ s with sramBad := if s.sramBad.contains w then s.sramBad else s.sramBad ++ [w] }).noteDed w) s

/-- PLOT_BIST (R647): the Plotters that found a mismatch in a pass. -/
def execPlotBist (mask : Nat) (s : State) : Host.Outcome State Fault Refusal :=
  s.live fun s =>
    let m := mask % 2 ^ 16
    if m = 0 ∨ !s.isHub then s else ((s.wr SYS.DIAG_PLOT_BIST (s.rd SYS.DIAG_PLOT_BIST ||| m)).raise 0 3).diagnose 4

/-- REG_PARITY (R509, R647): a parity error in a register page or a ring control block. -/
def execRegParity (s : State) : Host.Outcome State Fault Refusal :=
  s.live fun s => ((s.inc SYS.CNT_REG_PARITY).raise 0 2).diagnose 3

end Sys2Proof.Machine
end

