-- ==== Sys2Proof/Machine/Boot.lean ====
section
/-! DEFINITION. Boot images (R636, R637), the hub's boot (R638, R639, Table 18-5) and the check of a cell image (R188, Table 5-1). -/

namespace Sys2Proof.Machine

/-! The plaintext (R636). -/

/-- A boot record is well formed: its reserved byte is 0. -/
def recordsOk (body : Bytes) : Bool :=
  body.length % 8 == 0 && (List.range (body.length / 8)).all fun i => leAt body (8 * i + 1) 1 == 0

/-- A section of a type of R636 keeps its rules: REG records, SRAM data behind an offset, a safety program. -/
def sectionOk (t : Nat) (body : Bytes) : Bool :=
  if t = 1 then recordsOk body
  else if t = 2 then decide (8 ≤ body.length) && zeroAt body 4 4
  else t == 3 && decide (body.length ≤ 65536)

/-- The sections up to END, which closes the plaintext; none where a rule of R636 is broken. -/
def bootSections : Nat → Bytes → Option (List (Nat × Bytes))
  | 0, _ => none
  | f + 1, bs =>
    let t := leAt bs 0 1
    let len := leAt bs 4 4
    let whole := 8 + (len + 7) / 8 * 8
    if bs.length < whole || !zeroAt bs 1 3 || !zeroAt bs (8 + len) (whole - 8 - len) then none
    else if t = 0x0F then (if len = 0 ∧ bs.length = whole then some [] else none)
    else if !sectionOk t (sliceBytes bs 8 len) then none
    else (bootSections f (bs.drop whole)).map fun l => (t, sliceBytes bs 8 len) :: l

/-- The sections of a plaintext for a role: 0 cell, 1 hub. -/
def parseBoot (role : Nat) (p : Bytes) : Option (List (Nat × Bytes)) :=
  if p.length < 16 || leAt p 0 4 != 0x4C444E42 || leAt p 4 2 != 1 || leAt p 6 1 != role || !zeroAt p 7 5 || leAt p 12 4 != p.length then none
  else bootSections (p.length / 8 + 1) (p.drop 16)

/-! The sections applied (R637). -/

/-- One REG record: a register write, 40 ns; one that the page refuses or discards is counted. -/
def State.bootRecord (s : State) (r : Bytes) : State :=
  let s := s.advance (40 * ns)
  let page := leAt r 0 1
  let ofs := leAt r 2 2
  if ofs % 4 ≠ 0 ∨ 0x1000 ≤ ofs ∨ !s.pagePresent page then s.inc SYS.BOOT2_REC_ERR
  else
    let t := s.writeReg page ofs (leAt r 4 4)
    if t.hif.failed ≠ s.hif.failed ∧ t.rdI PG.ERR_CODE page ≠ 1 then t.inc SYS.BOOT2_REC_ERR else t

/-- An SRAM section that R622 would discard, or that lies outside the regions that the role powers (R26). -/
def State.bootDataBarred (s : State) (a : Nat) (data : Bytes) : Bool :=
  decide (0x1000000 < a + data.length) || (cutWrite a data).any fun p => s.pieceBarred p.1 p.2 || !s.sramWord (p.1 / 8 * 8)

/-- The sections applied in order, up to the first that fails the image: the state and the status. -/
def State.bootApply (s : State) : List (Nat × Bytes) → State × Nat
  | [] => (s, 0)
  | (t, body) :: rest =>
    if t = 1 then
      ((List.range (body.length / 8)).foldl (fun s i => s.bootRecord (sliceBytes body (8 * i) 8)) s).bootApply rest
    else if t = 2 then
      let data := body.drop 8
      if s.bootDataBarred (leAt body 0 4) data then (s, 3)
      else (((cutWrite (leAt body 0 4) data).foldl (fun s p => s.writePiece [] p.1 p.2) s).advance (data.length * ns / 4)).bootApply rest
    else (s.modSaf fun x => { x with prog := body }).bootApply rest

/-- What is kept of the envelope of a running image (R559, R562). -/
def State.bootKeep (s : State) (hdr body : Bytes) : State :=
  let svn := leAt hdr 8 4
  let pub := if s.on SEC.STAT_CLAIMED then sliceBytes hdr 44 97 else s.security.ownerPub
  (s.wr SYS.BOOT2_SVN svn).modSec fun x => { x with bootSvn := svn, measBoot := envMeas hdr body, ownerPub := pub }

/-- An envelope checked (R561, R551), its checks asked for at uptime `asked`, and its plaintext applied: the state and the status. -/
def State.bootImage (s : State) (kind role room asked : Nat) (hashed : Bool) (hdr body : Bytes) (got : Option Nat) : State × Nat :=
  let (st, p) := if s.on SEC.STAT_ID_OK then s.envelope kind room hdr body got else (0x22, [])
  let s := (s.envelopeDone asked st hashed hdr).envResult st
  if st ≠ 0 then (s, st)
  else
    match parseBoot role p with
    | none => (s, 1)
    | some l =>
      let (s, st) := (if role = 0 then s.memPut 0 p else s).bootApply l
      (if st = 0 then s.bootKeep hdr body else s, st)

/-! The hub (R638). -/

/-- The field that holds the result of a source. -/
def bootRes (src : Nat) : RegField := if src = 0 then SYS.BOOT_RES_A else if src = 1 then SYS.BOOT_RES_B else SYS.BOOT_RES_HOST

/-- A source tried: on success the sections are being applied, else the result stands. -/
def State.bootTry (s : State) (src : Nat) (hashed : Bool) (hdr body : Bytes) (got : Option Nat) : State :=
  let s := (s.wr SYS.BOOT_SRC src).wr SYS.BOOT_STATE 2
  let (t, st) := s.bootImage 1 1 0x7FFF00 s.mer.uptime hashed hdr body got
  let t := t.wr (bootRes src) st
  if st = 0 then t.wr SYS.BOOT_STATE 3 else t

/-- A flash slot tried (R638, Table 18-6): the header read at 25 MB/s and checked, then, while no check has failed, the ciphertext read and hashed; the
envelope staged in the Survey capture region. -/
def State.bootSlot (s : State) (src : Nat) (slot : Bytes) : State :=
  let hdr := sliceBytes slot 0 256
  let body := sliceBytes slot 256 (min 0x7FFF00 (leAt hdr 12 4))
  let st := (s.envelope 1 0x7FFF00 hdr body none).1
  let n := if s.on SEC.STAT_ID_OK && decide (st = 0 ∨ 5 ≤ st) then 256 + body.length else 256
  ((s.advance (n * 40 * ns)).memPut 0x500000 (hdr ++ body)).bootTry src true hdr body none

/-- The envelope that the host has staged tried (R638, R639). -/
def State.bootHost (s : State) : State :=
  let n := s.rd HIF.BOOT_LEN
  if n < 256 then s.wr SYS.BOOT_RES_HOST 3
  else s.bootTry 2 false (s.bytesAt 0x500000 256) (s.bytesAt 0x500100 (min 0x7FFF00 (n - 256))) (some (n - 256))

/-- HUB_BOOT (R638): the contents of the two flash slots; after GO the host's envelope is tried. The ROM runs once the main PLL has locked (R591,
Table 17-6). -/
def execHubBoot (slotA slotB : Bytes) (s : State) : Host.Outcome State Fault Refusal :=
  s.live fun s =>
    let src := s.rd SYS.STRAP_BOOTSRC
    if !s.isHub || !s.arbiterRuns then s
    else if s.rd SYS.BOOT_STATE = 2 ∧ s.rd SYS.BOOT_SRC = 2 ∧ s.rd SYS.BOOT_RES_HOST = 0 then s.bootHost
    else if s.rd SYS.BOOT_STATE ≠ 0 ∨ src = 3 then s
    else if src = 1 then s.wr SYS.BOOT_STATE 6
    else
      let s := s.bootSlot 0 slotA
      let s := if s.rd SYS.BOOT_STATE = 3 then s else s.bootSlot 1 slotB
      if s.rd SYS.BOOT_STATE = 2 ∧ src = 2 then s.wr SYS.BOOT_STATE 6 else s

/-- No source of the boot remains (R638). -/
def State.bootOver (s : State) : Bool :=
  (s.rd SYS.BOOT_STATE == 0 && s.rd SYS.STRAP_BOOTSRC == 3)
    || (s.rd SYS.BOOT_STATE == 2 && s.on (bootRes (s.rd SYS.BOOT_SRC)))

/-- BOOT_DONE (R638): running, or failed. -/
def execBootDone (s : State) : Host.Outcome State Fault Refusal :=
  s.live fun s =>
    if !s.isHub then s
    else if s.rd SYS.BOOT_STATE = 3 then (s.wr SYS.BOOT_STATE 4).raise 0 5
    else if s.bootOver then (s.wr SYS.BOOT_STATE 5).raise 0 6
    else s

/-- BOOT_GO (R639): a write of HIF_BOOT.GO. -/
def execBootGo (s : State) : Host.Outcome State Fault Refusal :=
  s.live fun s => s.busWrite 0xB0 0x044 1 fun s => s.bootGo

/-! The cell (Table 5-1). -/

/-- The envelope that the chunks held make: as many bytes as BOOT_END named. -/
def State.cellImage (s : State) : Bytes :=
  match s.cell.bootEnd with
  | none => []
  | some (n, len) => ((s.cell.chunks.filter fun c => decide (c.1 < n)).flatMap (·.2)).take len

/-- IMAGE_VERIFY_DONE (R188): the image passes the checks and runs, or is rejected. -/
def execImageVerifyDone (s : State) : Host.Outcome State Fault Refusal :=
  s.live fun s =>
    if !s.isCell || s.life != 3 then s
    else
      let img := s.cellImage
      let hdr := sliceBytes img 0 256
      let (t, st) := if img.length < 256 then (s.envResult 3, 3)
        else (s.setLife 4).bootImage 2 0 0x200000 s.cell.verifyAt false hdr (img.drop 256) (some (img.length - 256))
      if st = 0 then t.raise 0x5A 0 else (t.dropChunks.setLife 5).raise 0x5A 1

end Sys2Proof.Machine
end

