-- ==== Sys2Proof/Machine/Boundary.lean ====
section
/-! DEFINITION. The stride boundary of a hub with everything that comes about at it (R31 to R42, R185), the step of the Meridian that
precedes it (R59), the stages of the hub's stride, and the boundary of a cell (R41). -/

namespace Sys2Proof.Machine

/-- A ring of the hub launches hoists. -/
def State.anyRing (s : State) : Bool := (List.range 48).any s.launches

/-- STEP_APPLY (R59 to R61): a decided step is applied at the boundary, or within 1 µs while no ring runs. -/
def execStepApply (s : State) : Host.Outcome State Fault Refusal :=
  s.live fun s =>
    match s.mer.stepDelta with
    | none => s
    | some d =>
      if !s.isHub then s
      else
        let s := if s.anyRing then s.advanceTo (s.mer.lastS + s.strideT) else s
        let again := s.mer.stepByReanchor
        let s := (s.shiftMer d).wr MER.STAT_EPOCH (s.rd MER.STAT_EPOCH + 1)
        let s := { s.wr MER.STAT_STEP_PENDING 0 with mer := { s.mer with stepDelta := none, stepByReanchor := false, stepFlag := true } }
        s.raiseIf again 0x08 1

/-! CTR_TIMING (R185). -/

/-- The values written into CTR_TIMING pass: their ranges, C1 and C2 (R38), and, where T or LA changes, the stop modes. -/
def State.timingOk (s : State) : Bool :=
  let t := s.rd CTR.TIMING_STRIDE
  let la := s.rd CTR.TIMING_LA
  let d := s.rd CTR.TIMING_DEADLINE
  let same := t == s.stride10 && la == s.ctr.la
  decide (200 ≤ t ∧ t ≤ 20000 ∧ 1 ≤ la ∧ la ≤ 3 ∧ 1 ≤ d ∧ d ≤ 100) && budgetOk s.nTotal t d
    && (same || (List.range 12).all fun g => !s.onI PG.ENABLE (0x49 + g) || s.bit CTR.GROUPS_STOPPED g)

/-- CTR_TIMING taken into force at a boundary, or refused (R185, R120). -/
def State.applyTiming (s : State) : State :=
  if !s.on CTR.STAT_TIMING_PENDING then s
  else
    let s := s.wr CTR.STAT_TIMING_PENDING 0
    let t := s.rd CTR.TIMING_STRIDE * (10 * ns)
    let la := s.rd CTR.TIMING_LA
    let same := t == s.strideT && la == s.ctr.la
    let fits := same || (s.unfitRings la t).isEmpty
    let s := if same then s else s.judgeRings la t
    if s.timingOk && fits then
      let s := { s with strideT := t, ctr := { s.ctr with la := la, dl := s.rd CTR.TIMING_DEADLINE } }
      ((s.agesAt t).budgetResult true).raise 0x48 2
    else s.budgetResult false

/-! The boundary. -/

/-- The boundary itself (R31, R34): its instant, the stride counter, the uplink slots, the stages of the new stride; the stages of the stride
that ends are complete before it (R33, R36). -/
def State.openStride (s : State) : State :=
  let s := s.finishStages
  let b := s.mer.lastS + s.strideT
  let s := s.advanceTo b
  { s with
    mer := { s.mer with lastS := b, seq := (s.mer.seq + 1) % 2 ^ 32 }
    ctr := { s.ctr with slot := 1 - s.ctr.slot, sorted := false, edgeStarted := false, edgeDone := false, built := false, sortStarted := false, cut := false }
    pair := { s.pair with lateSent := false } }

/-- The rotation of each enabled group (R157), by the ROT_STEP that the last sort stage took (R184). -/
def State.rotate (s : State) : State :=
  (List.range 12).foldl (fun s g =>
    if s.onI PG.ENABLE (0x49 + g) then
      s.modGroup g fun gr => { gr with rot := (gr.rot + gr.cf CTG.SWAP_ROT_STEP g) % max 1 (s.rdI CTG.CELLS_COUNT g) }
    else s) s

/-- SURVEY_ARM at a launch boundary (R472, R474). -/
def State.surveyStride (s : State) : State :=
  let s := { s with svy := { s.svy with hold := s.svy.hold - 1 } }
  s.wrB SVY.STAT_ARM_OUT ((List.range 48).any fun r => s.armsCells r && s.launches r)

/-- Every hoist of the boundary launched (R31, R136). -/
def State.launchAll (s : State) : State :=
  let s := ((List.range 48).foldl State.launchRing s).launchTrunks
  { s with mer := { s.mer with stepFlag := false }, pair := { s.pair with stopped := s.rd CTR.GROUPS_STOPPED != 0 } }

/-- What the islands do with the inputs at the boundary: graph, axes, converters, pair, phasors (R33, R317, R370, R437, R495, R503). -/
def State.strideInputs (s : State) (cnf : List CnfSamples) : State :=
  let s := (s.adopt.graphBoundary.axesBoundary s.mer.lastS).cnfStride cnf
  let s := { s with meas := { s.meas with scan := s.on CNF.CTL_MODE } }
  (s.exchange.pairBoundary.showPmu).pmuSources.showRsync

/-- What counts strides: keys (the trunk tree's under number 48), retrains, the boot stream (R571, R128, R143). -/
def State.strideCounts (s : State) : State := (((List.range 49).foldl State.keyStride s).retrainStride).bootStride

/-- The STRIDE frame sent, and the diagnostics of a new stride begun (R490, R509). -/
def State.closeStride (s : State) : State := { s.strideSend with diagNow := 0, diagTime := 0 }

/-- STRIDE_BOUNDARY (R31, R33): with what the CNF channels gave in the stride. -/
def execStrideBoundary (cnf : List CnfSamples) (s : State) : Host.Outcome State Fault Refusal :=
  s.live fun s =>
    if s.isHub then
      let s := s.openStride
      let s := s.noteEvent 1 s.mer.lastS
      (((s.applyTiming.strideInputs cnf).rotate.surveyStride).showStops).launchAll.strideCounts.closeStride
    else s

/-- SORT_STAGE_START (R33, R153): at S + 0.10 µs. -/
def execSortStageStart (s : State) : Host.Outcome State Fault Refusal :=
  s.live fun s =>
    if s.isHub && !s.ctr.sortStarted then ((s.advanceTo (s.mer.lastS + 100 * ns)).soloDecision).sortStage else s

/-- HOIST_BUILD_DONE (R33, Table 14-5): the next hoist is built; whether it failed the check against the CRC of its flags. -/
def execHoistBuildDone (bad : Bool) (s : State) : Host.Outcome State Fault Refusal :=
  s.live fun s =>
    if s.isHub && !s.ctr.built && (s.ctr.edgeDone || !s.ctr.sortStarted) then
      let s := { s with ctr := { s.ctr with built := true } }
      if bad then ((s.inc SYS.DIAG_BUILD_ERR).raise 0 4).diagnose 5 else s
    else s

/-- CELL_BOUNDARY (R41): the next local boundary, with what the CNI channel on the capacitor gave in the stride (its readings, whether a
window was over range and whether downward, and the side of the end window), the junction temperature, and what the CNF channels gave. -/
def execCellBoundary (cni : List Int) (cniOvr cniBelow : Bool) (endSide : Nat) (junction : Int) (cnf : List CnfSamples) (s : State) :
    Host.Outcome State Fault Refusal :=
  s.live fun s =>
    if s.isCell then
      let cap : CapInput := ⟨cni, if cniOvr then (if cniBelow then 2 else 1) else 0, endSide⟩
      let b := s.mer.lastS + s.strideT
      let s := s.advanceTo b
      let s := s.modCellRole fun c => { c with temp := s.reportedTemp junction }
      let s := (s.latchUplink b cap (cnfWords cnf 0)).otWarn.otTripCheck
      let s := { s with mer := { s.mer with lastS := b, seq := (s.mer.seq + 1) % 2 ^ 32 } }
      let s := ((s.noteEvent 1 b).countOrphan.retrainStride.applyStride b).cnfStride cnf
      { s with meas := { s.meas with scan := s.on CNF.CTL_MODE } }
    else s

end Sys2Proof.Machine
end

