-- ==== Sys2Proof/Machine/Dispatch.lean ====
section
/-! DEFINITION. The dispatch of a command to its meaning, one arm a constructor. -/

namespace Sys2Proof.Machine

/-- The effect of a command on everything but the queue. -/
def exec (i : Instr) (s : State) : Host.Outcome State Fault Refusal :=
  match i with
  | .powerOnReset vddaoLost => Sys2Proof.Machine.execPowerOnReset vddaoLost s
  | .porRelease role unit lgcy locksel bootsrc vddio3v3 entropyOk unwrapOk => Sys2Proof.Machine.execPorRelease role unit lgcy locksel bootsrc vddio3v3 entropyOk unwrapOk s
  | .sysReset key => Sys2Proof.Machine.execSysReset key s
  | .refMonitorWindow edges => Sys2Proof.Machine.execRefMonitorWindow edges s
  | .serdesUnlock quad => Sys2Proof.Machine.execSerdesUnlock quad s
  | .hubBoot slotA slotB => Sys2Proof.Machine.execHubBoot slotA slotB s
  | .strideBoundary cnf => Sys2Proof.Machine.execStrideBoundary cnf s
  | .cellTableCutoff retraining => Sys2Proof.Machine.execCellTableCutoff retraining s
  | .hoistBuildDone bad => Sys2Proof.Machine.execHoistBuildDone bad s
  | .hoistTrailerReceived port t data => Sys2Proof.Machine.execHoistTrailerReceived port t data s
  | .hoistExpire ring => Sys2Proof.Machine.execHoistExpire ring s
  | .hubHeaderCheck port t head => Sys2Proof.Machine.execHubHeaderCheck port t head s
  | .hoistPass side t data => Sys2Proof.Machine.execHoistPass side t data s
  | .cellBoundary cni cniOvr cniBelow endSide junction cnf => Sys2Proof.Machine.execCellBoundary cni cniOvr cniBelow endSide junction cnf s
  | .selftestDone report => Sys2Proof.Machine.execSelftestDone report s
  | .cniMonitorMean mean sub => Sys2Proof.Machine.execCniMonitorMean mean sub s
  | .otWarn temp => Sys2Proof.Machine.execOtWarn temp s
  | .otTrip temp => Sys2Proof.Machine.execOtTrip temp s
  | .delayLineCal taps => Sys2Proof.Machine.execDelayLineCal taps s
  | .tripActive n input => Sys2Proof.Machine.execTripActive n input s
  | .tripClear mask => Sys2Proof.Machine.execTripClear mask s
  | .edgMapWrite ovr value => Sys2Proof.Machine.execEdgMapWrite ovr value s
  | .tevFire e => Sys2Proof.Machine.execTevFire e s
  | .gatePhaseEnd chan mv => Sys2Proof.Machine.execGatePhaseEnd chan mv s
  | .millerTmo chan => Sys2Proof.Machine.execMillerTmo chan s
  | .refreshBurst m => Sys2Proof.Machine.execRefreshBurst m s
  | .deckFrame m bits => Sys2Proof.Machine.execDeckFrame m bits s
  | .deckStartTimeout m => Sys2Proof.Machine.execDeckStartTimeout m s
  | .gateSupplyLow reading => Sys2Proof.Machine.execGateSupplyLow reading s
  | .gateSupplyOk reading => Sys2Proof.Machine.execGateSupplyOk reading s
  | .gateEnWrite value => Sys2Proof.Machine.execGateEnWrite value s
  | .desaturation n reading => Sys2Proof.Machine.execDesaturation n reading s
  | .blockLockLoss port => Sys2Proof.Machine.execBlockLockLoss port s
  | .retrainOk port neighbour => Sys2Proof.Machine.execRetrainOk port neighbour s
  | .hopDown port => Sys2Proof.Machine.execHopDown port s
  | .ringBringup ring trained n marks fwd rev => Sys2Proof.Machine.execRingBringup ring trained n marks fwd rev s
  | .ringTakeDown ring => Sys2Proof.Machine.execRingTakeDown ring s
  | .splitBroadcast ring => Sys2Proof.Machine.execSplitBroadcast ring s
  | .trunkBringup hops records branches => Sys2Proof.Machine.execTrunkBringup hops records branches s
  | .trunkHoistReceived port t data => Sys2Proof.Machine.execTrunkHoistReceived port t data s
  | .penRequestLaunch port typ target payload => Sys2Proof.Machine.execPenRequestLaunch port typ target payload s
  | .penTmo ring target txn => Sys2Proof.Machine.execPenTmo ring target txn s
  | .hubCred ring => Sys2Proof.Machine.execHubCred ring s
  | .cellCred ring => Sys2Proof.Machine.execCellCred ring s
  | .keyWrap ring cell => Sys2Proof.Machine.execKeyWrap ring cell s
  | .keyAck ring => Sys2Proof.Machine.execKeyAck ring s
  | .latAdj ring cell marks => Sys2Proof.Machine.execLatAdj ring cell marks s
  | .hopRelease ring hop => Sys2Proof.Machine.execHopRelease ring hop s
  | .linkBypass ring cell => Sys2Proof.Machine.execLinkBypass ring cell s
  | .syncTimeout due => Sys2Proof.Machine.execSyncTimeout due s
  | .announceTimeout due => Sys2Proof.Machine.execAnnounceTimeout due s
  | .ppsInEdge t => Sys2Proof.Machine.execPpsInEdge t s
  | .todArm value => Sys2Proof.Machine.execTodArm value s
  | .ethFrameRx port t frame => Sys2Proof.Machine.execEthFrameRx port t frame s
  | .ethTx port => Sys2Proof.Machine.execEthTx port s
  | .ethLinkChange port up anDone remoteFault txLat rxLat => Sys2Proof.Machine.execEthLinkChange port up anDone remoteFault txLat rxLat s
  | .ctrEnable on => Sys2Proof.Machine.execCtrEnable on s
  | .ctgEnable group on => Sys2Proof.Machine.execCtgEnable group on s
  | .opDispatch t => Sys2Proof.Machine.execOpDispatch t s
  | .legEnd d => Sys2Proof.Machine.execLegEnd d s
  | .waitMet d => Sys2Proof.Machine.execWaitMet d s
  | .waitTmo due => Sys2Proof.Machine.execWaitTmo due s
  | .opComplete d => Sys2Proof.Machine.execOpComplete d s
  | .cancel idx => Sys2Proof.Machine.execCancel idx s
  | .run on => Sys2Proof.Machine.execRun on s
  | .xcopy d => Sys2Proof.Machine.execXcopy d s
  | .wsum d => Sys2Proof.Machine.execWsum d s
  | .mul d => Sys2Proof.Machine.execMul d s
  | .pi d => Sys2Proof.Machine.execPi d s
  | .piRs d => Sys2Proof.Machine.execPiRs d s
  | .ramp d => Sys2Proof.Machine.execRamp d s
  | .lpf1 d => Sys2Proof.Machine.execLpf1 d s
  | .biq2 d => Sys2Proof.Machine.execBiq2 d s
  | .clarke d => Sys2Proof.Machine.execClarke d s
  | .iclarke d => Sys2Proof.Machine.execIclarke d s
  | .park d => Sys2Proof.Machine.execPark d s
  | .ipark d => Sys2Proof.Machine.execIpark d s
  | .seq d => Sys2Proof.Machine.execSeq d s
  | .pll d => Sys2Proof.Machine.execPll d s
  | .lim d => Sys2Proof.Machine.execLim d s
  | .rlim d => Sys2Proof.Machine.execRlim d s
  | .lut d => Sys2Proof.Machine.execLut d s
  | .ccsc d => Sys2Proof.Machine.execCcsc d s
  | .min d => Sys2Proof.Machine.execMin d s
  | .max d => Sys2Proof.Machine.execMax d s
  | .med d => Sys2Proof.Machine.execMed d s
  | .gear d => Sys2Proof.Machine.execGear d s
  | .cmp d => Sys2Proof.Machine.execCmp d s
  | .stopreq d => Sys2Proof.Machine.execStopreq d s
  | .coefWr d => Sys2Proof.Machine.execCoefWr d s
  | .coefDataWrite value collides => Sys2Proof.Machine.execCoefDataWrite value collides s
  | .push axis => Sys2Proof.Machine.execPush axis s
  | .pushResume axis => Sys2Proof.Machine.execPushResume axis s
  | .replace axis => Sys2Proof.Machine.execReplace axis s
  | .stop axis => Sys2Proof.Machine.execStop axis s
  | .flush axis => Sys2Proof.Machine.execFlush axis s
  | .gearIn axis => Sys2Proof.Machine.execGearIn axis s
  | .gearOut axis => Sys2Proof.Machine.execGearOut axis s
  | .fblClr axis => Sys2Proof.Machine.execFblClr axis s
  | .encoderEdge f a b at_ => Sys2Proof.Machine.execEncoderEdge f a b at_ s
  | .hallChange f u v w at_ => Sys2Proof.Machine.execHallChange f u v w at_ s
  | .hallInvalid f => Sys2Proof.Machine.execHallInvalid f s
  | .index f at_ => Sys2Proof.Machine.execIndex f at_ s
  | .lineFault f input low => Sys2Proof.Machine.execLineFault f input low s
  | .ssiReadStart f => Sys2Proof.Machine.execSsiReadStart f s
  | .ssiReadDone f resp ack back t => Sys2Proof.Machine.execSsiReadDone f resp ack back t s
  | .fbkValid f => Sys2Proof.Machine.execFbkValid f s
  | .datumArm axis value => Sys2Proof.Machine.execDatumArm axis value s
  | .datumSet axis => Sys2Proof.Machine.execDatumSet axis s
  | .latch n rising at_ => Sys2Proof.Machine.execLatch n rising at_ s
  | .swLatch axis => Sys2Proof.Machine.execSwLatch axis s
  | .latchPop axis => Sys2Proof.Machine.execLatchPop axis s
  | .cmpArm axis c value => Sys2Proof.Machine.execCmpArm axis c value s
  | .startEvent k t => Sys2Proof.Machine.execStartEvent k t s
  | .converterStart sel => Sys2Proof.Machine.execConverterStart sel s
  | .cniWindowClose ch code side t collides => Sys2Proof.Machine.execCniWindowClose ch code side t collides s
  | .scanDone res => Sys2Proof.Machine.execScanDone res s
  | .calStep ok ofs gain skew => Sys2Proof.Machine.execCalStep ok ofs gain skew s
  | .frozen ch => Sys2Proof.Machine.execFrozen ch s
  | .sliceFrozen ch slice => Sys2Proof.Machine.execSliceFrozen ch slice s
  | .svLost stream => Sys2Proof.Machine.execSvLost stream s
  | .pmuReport est ago late => Sys2Proof.Machine.execPmuReport est ago late s
  | .pmuIntRecord est => Sys2Proof.Machine.execPmuIntRecord est s
  | .segmentFree mask => Sys2Proof.Machine.execSegmentFree mask s
  | .levelTrigger ch words t sample => Sys2Proof.Machine.execLevelTrigger ch words t sample s
  | .slopeTrigger ch words t sample => Sys2Proof.Machine.execSlopeTrigger ch words t sample s
  | .patternTrigger inputs t sample => Sys2Proof.Machine.execPatternTrigger inputs t sample s
  | .groupWritten t raw frozen fifo => Sys2Proof.Machine.execGroupWritten t raw frozen fifo s
  | .svyRdData words => Sys2Proof.Machine.execSvyRdData words s
  | .front det a b t quiet => Sys2Proof.Machine.execFront det a b t quiet s
  | .strideFrame lane t data => Sys2Proof.Machine.execStrideFrame lane t data s
  | .ringDig lane data => Sys2Proof.Machine.execRingDig lane data s
  | .lateFrame lane data => Sys2Proof.Machine.execLateFrame lane data s
  | .mirrorFrame lane data => Sys2Proof.Machine.execMirrorFrame lane data s
  | .stateFrame lane data => Sys2Proof.Machine.execStateFrame lane data s
  | .clrEnable on => Sys2Proof.Machine.execClrEnable on s
  | .safetyCycle len overrun selfBad changes moves high low dark => Sys2Proof.Machine.execSafetyCycle len overrun selfBad changes moves high low dark s
  | .supFault bad => Sys2Proof.Machine.execSupFault bad s
  | .connLost conn => Sys2Proof.Machine.execConnLost conn s
  | .netLost conn net => Sys2Proof.Machine.execNetLost conn net s
  | .claimCmd len => Sys2Proof.Machine.execClaimCmd len s
  | .attest len => Sys2Proof.Machine.execAttest len s
  | .endorse len => Sys2Proof.Machine.execEndorse len s
  | .dbgChallenge len => Sys2Proof.Machine.execDbgChallenge len s
  | .dbgResponse len => Sys2Proof.Machine.execDbgResponse len s
  | .keyLoad len => Sys2Proof.Machine.execKeyLoad len s
  | .keyErase len => Sys2Proof.Machine.execKeyErase len s
  | .rollFwd len => Sys2Proof.Machine.execRollFwd len s
  | .rekeyNow ring => Sys2Proof.Machine.execRekeyNow ring s
  | .rekeyStart ring => Sys2Proof.Machine.execRekeyStart ring s
  | .keyExpired ring => Sys2Proof.Machine.execKeyExpired ring s
  | .suspectClr cell => Sys2Proof.Machine.execSuspectClr cell s
  | .priorityRequest island => Sys2Proof.Machine.execPriorityRequest island s
  | .islandRelease island => Sys2Proof.Machine.execIslandRelease island s
  | .budgetWrite value => Sys2Proof.Machine.execBudgetWrite value s
  | .clkOutWrite out value => Sys2Proof.Machine.execClkOutWrite out value s
  | .supSample mv gate => Sys2Proof.Machine.execSupSample mv gate s
  | .dormantRequest key => Sys2Proof.Machine.execDormantRequest key s
  | .wakeEvent comparator change => Sys2Proof.Machine.execWakeEvent comparator change s
  | .pcieLinkChange up speed width msix => Sys2Proof.Machine.execPcieLinkChange up speed width msix s
  | .bar2Write ofs data ties => Sys2Proof.Machine.execBar2Write ofs data ties s
  | .scrubPass singles doubles => Sys2Proof.Machine.execScrubPass singles doubles s
  | .hostRingPiWrite ring value => Sys2Proof.Machine.execHostRingPiWrite ring value s
  | .ringWriteResume ring => Sys2Proof.Machine.execRingWriteResume ring s
  | .dmaHostToSram engine data collides => Sys2Proof.Machine.execDmaHostToSram engine data collides s
  | .dmaSramToHost engine taken => Sys2Proof.Machine.execDmaSramToHost engine taken s
  | .dmaNoTransfer engine => Sys2Proof.Machine.execDmaNoTransfer engine s
  | .dmaComplete engine => Sys2Proof.Machine.execDmaComplete engine s
  | .evtPendWrite page bits => Sys2Proof.Machine.execEvtPendWrite page bits s
  | .evtRawWrite page bits => Sys2Proof.Machine.execEvtRawWrite page bits s
  | .evtForce page mask => Sys2Proof.Machine.execEvtForce page mask s
  | .spiWrite addr data frame => Sys2Proof.Machine.execSpiWrite addr data frame s
  | .spiRead addr frame => Sys2Proof.Machine.execSpiRead addr frame s
  | .qspiStart value => Sys2Proof.Machine.execQspiStart value s
  | .qspiDone data => Sys2Proof.Machine.execQspiDone data s
  | .pageLock page => Sys2Proof.Machine.execPageLock page s
  | .pageUnlock page => Sys2Proof.Machine.execPageUnlock page s
  | .softReset page => Sys2Proof.Machine.execSoftReset page s
  | .softResetDone page => Sys2Proof.Machine.execSoftResetDone page s
  | .freeze page on => Sys2Proof.Machine.execFreeze page on s
  | .rcFieldRead at_ size => Sys2Proof.Machine.execRcFieldRead at_ size s
  | .gpioEdge inputs => Sys2Proof.Machine.execGpioEdge inputs s
  | .tempHigh t => Sys2Proof.Machine.execTempHigh t s
  | .registerWrite bar page ofs value size => Sys2Proof.Machine.execRegisterWrite bar page ofs value size s
  | .serdesLock quad => Sys2Proof.Machine.execSerdesLock quad s
  | .plotBist mask => Sys2Proof.Machine.execPlotBist mask s
  | .frozenEnd ch => Sys2Proof.Machine.execFrozenEnd ch s
  | .electricalCompareFire axis t => Sys2Proof.Machine.execElectricalCompareFire axis t s
  | .pllLock => Sys2Proof.Machine.execPllLock s
  | .pllUnlock => Sys2Proof.Machine.execPllUnlock s
  | .msynLock => Sys2Proof.Machine.execMsynLock s
  | .msynUnlock => Sys2Proof.Machine.execMsynUnlock s
  | .bootDone => Sys2Proof.Machine.execBootDone s
  | .bootGo => Sys2Proof.Machine.execBootGo s
  | .chartStart => Sys2Proof.Machine.execChartStart s
  | .sortStageStart => Sys2Proof.Machine.execSortStageStart s
  | .sortStageDone => Sys2Proof.Machine.execSortStageDone s
  | .chartDeadline => Sys2Proof.Machine.execChartDeadline s
  | .edgeStageStart => Sys2Proof.Machine.execEdgeStageStart s
  | .edgeStageDone => Sys2Proof.Machine.execEdgeStageDone s
  | .flagDeadline => Sys2Proof.Machine.execFlagDeadline s
  | .orphanTimeout => Sys2Proof.Machine.execOrphanTimeout s
  | .bptPulse => Sys2Proof.Machine.execBptPulse s
  | .bootWindowExpiry => Sys2Proof.Machine.execBootWindowExpiry s
  | .imageVerifyDone => Sys2Proof.Machine.execImageVerifyDone s
  | .bootRetry => Sys2Proof.Machine.execBootRetry s
  | .ov2 => Sys2Proof.Machine.execOv2 s
  | .edgeAction => Sys2Proof.Machine.execEdgeAction s
  | .lcPeriodBoundary => Sys2Proof.Machine.execLcPeriodBoundary s
  | .commit => Sys2Proof.Machine.execCommit s
  | .accountUpdate => Sys2Proof.Machine.execAccountUpdate s
  | .forcedRefill => Sys2Proof.Machine.execForcedRefill s
  | .genLow => Sys2Proof.Machine.execGenLow s
  | .genClear => Sys2Proof.Machine.execGenClear s
  | .empty => Sys2Proof.Machine.execEmpty s
  | .regRd => Sys2Proof.Machine.execRegRd s
  | .regWr => Sys2Proof.Machine.execRegWr s
  | .regRsp => Sys2Proof.Machine.execRegRsp s
  | .bootData => Sys2Proof.Machine.execBootData s
  | .bootEnd => Sys2Proof.Machine.execBootEnd s
  | .enum => Sys2Proof.Machine.execEnum s
  | .digest => Sys2Proof.Machine.execDigest s
  | .bootStreamStart => Sys2Proof.Machine.execBootStreamStart s
  | .bootStreamStop => Sys2Proof.Machine.execBootStreamStop s
  | .reanchor => Sys2Proof.Machine.execReanchor s
  | .switchReq => Sys2Proof.Machine.execSwitchReq s
  | .stepApply => Sys2Proof.Machine.execStepApply s
  | .ppsMissing => Sys2Proof.Machine.execPpsMissing s
  | .ppsOutPulse => Sys2Proof.Machine.execPpsOutPulse s
  | .holdoverUpdate => Sys2Proof.Machine.execHoldoverUpdate s
  | .snapshotRead => Sys2Proof.Machine.execSnapshotRead s
  | .timingApply => Sys2Proof.Machine.execTimingApply s
  | .stage => Sys2Proof.Machine.execStage s
  | .stageCheckDone => Sys2Proof.Machine.execStageCheckDone s
  | .swap => Sys2Proof.Machine.execSwap s
  | .swapCancel => Sys2Proof.Machine.execSwapCancel s
  | .coefWriteResume => Sys2Proof.Machine.execCoefWriteResume s
  | .cflClear => Sys2Proof.Machine.execCflClear s
  | .scanStart => Sys2Proof.Machine.execScanStart s
  | .svyArm => Sys2Proof.Machine.execSvyArm s
  | .disarm => Sys2Proof.Machine.execDisarm s
  | .force => Sys2Proof.Machine.execForce s
  | .logRateDown => Sys2Proof.Machine.execLogRateDown s
  | .peerResend => Sys2Proof.Machine.execPeerResend s
  | .noMatch => Sys2Proof.Machine.execNoMatch s
  | .frontPop => Sys2Proof.Machine.execFrontPop s
  | .mirrorApply => Sys2Proof.Machine.execMirrorApply s
  | .mirrorWriteResume => Sys2Proof.Machine.execMirrorWriteResume s
  | .aloneTimeout => Sys2Proof.Machine.execAloneTimeout s
  | .handover => Sys2Proof.Machine.execHandover s
  | .drill => Sys2Proof.Machine.execDrill s
  | .prefReturn => Sys2Proof.Machine.execPrefReturn s
  | .faultClr => Sys2Proof.Machine.execFaultClr s
  | .resyncTransfer => Sys2Proof.Machine.execResyncTransfer s
  | .resyncDone => Sys2Proof.Machine.execResyncDone s
  | .degrTimeout => Sys2Proof.Machine.execDegrTimeout s
  | .faultAck => Sys2Proof.Machine.execFaultAck s
  | .safReset => Sys2Proof.Machine.execSafReset s
  | .cmdDone => Sys2Proof.Machine.execCmdDone s
  | .entropyFail => Sys2Proof.Machine.execEntropyFail s
  | .arbiterCycle => Sys2Proof.Machine.execArbiterCycle s
  | .heldAccessResume => Sys2Proof.Machine.execHeldAccessResume s
  | .pwrenLow => Sys2Proof.Machine.execPwrenLow s
  | .pcieReset => Sys2Proof.Machine.execPcieReset s
  | .spiStatus => Sys2Proof.Machine.execSpiStatus s
  | .regParity => Sys2Proof.Machine.execRegParity s
  | .keyAgreeOperationDone => Sys2Proof.Machine.execKeyAgreeOperationDone s
  | .entropyOk => Sys2Proof.Machine.execEntropyOk s

end Sys2Proof.Machine
end

