-- ==== Sys2Proof/WellFormed.lean ====
section
/-! DEFINITION. Which commands are well formed: every operand lies in the range that the device's wires, registers and tables give it. The
meanings are total; an operand outside its range names nothing the device has. -/

namespace Sys2Proof

/-- A strap level (Table 18-5). -/
def isBit (x : Nat) : Bool := decide (x < 2)

/-- A two-bit strap or code (Table 18-5, HIF_PCIE). -/
def isTwoBits (x : Nat) : Bool := decide (x < 4)

/-- A three-bit code (HIF_PCIE). -/
def isThreeBits (x : Nat) : Bool := decide (x < 8)

/-- A byte. -/
def isByte (x : Nat) : Bool := decide (x < 256)

/-- A register word (R11). -/
def isWord (x : Nat) : Bool := decide (x < 2 ^ 32)

/-- A raw converter result (R426, Table 12-1). -/
def isRaw (x : Nat) : Bool := decide (x < 2 ^ 24)

/-- A Bunting port (Table 18-4). -/
def isPort (x : Nat) : Bool := decide (x < 48)

/-- An Ethernet port (Table 18-4). -/
def isEthPort (x : Nat) : Bool := decide (x < 4)

/-- A register page (R618). -/
def isPage (x : Nat) : Bool := decide (x < 256)

/-- An offset in a page (R641). -/
def isOffset (x : Nat) : Bool := decide (x < 4096)

/-- An arm group (Table 18-4). -/
def isGroup (x : Nat) : Bool := decide (x < 12)

/-- An axis (Table 18-4). -/
def isAxis (x : Nat) : Bool := decide (x < 16)

/-- A descriptor of a Chart (R295). -/
def isDesc (x : Nat) : Bool := decide (x < 4096)

/-- A feedback interface (Table 18-4). -/
def isFbk (x : Nat) : Bool := decide (x < 8)

/-- A timed event channel of the edge scheduler. -/
def isTev (x : Nat) : Bool := decide (x < 4)

/-- One of two: west or east, a lane of the twin link, an engine, a deck, a comparator, a network. -/
def isSide (x : Nat) : Bool := decide (x < 2)

/-- A Semaphore connection. -/
def isConn (x : Nat) : Bool := decide (x < 8)

/-- An island (Table 1-2). -/
def isIsland (x : Nat) : Bool := decide (x < 34)

/-- A Bunting SerDes quad; 12 is the SerDes of the Ethernet ports (R593). -/
def isQuad (x : Nat) : Bool := decide (x ≤ 12)

/-- A clock output (R583). -/
def isClkOut (x : Nat) : Bool := decide (x < 8)

/-- A sampled-value stream. -/
def isStream (x : Nat) : Bool := decide (x < 16)

/-- A front detector (R477). -/
def isDetector (x : Nat) : Bool := decide (x < 8)

/-- A ring of the ring table (R91). -/
def isRing (x : Nat) : Bool := decide (x < 48)

/-- A host ring (R624). -/
def isHostRing (x : Nat) : Bool := decide (x < 16)

/-- A hardware ring with a producer that can wait: a port ring or a host ring (Table 1-4). -/
def isWaitRing (x : Nat) : Bool := decide (32 ≤ x ∧ x < 96)

/-- A cell of a ring; 0 for every cell (R98, R118). -/
def isCellIndex (x : Nat) : Bool := decide (x ≤ 256)

/-- A Cell table entry (R146). -/
def isCellEntry (x : Nat) : Bool := decide (x < 8192)

/-- A hop of a ring (R126). -/
def isHop (x : Nat) : Bool := decide (x ≤ 257)

/-- A pennant transaction (R115). -/
def isTxn (x : Nat) : Bool := decide (x < 8)

/-- The length field of SEC_CMD. -/
def isMailLen (x : Nat) : Bool := decide (x < 2048)

/-- A gate channel. -/
def isChannel (x : Nat) : Bool := decide (x < 4)

/-- A trip input. -/
def isTrip (x : Nat) : Bool := decide (x < 4)

/-- A gate supply: VGP, VGN or VDDF. -/
def isSupply (x : Nat) : Bool := decide (x < 3)

/-- A latch input (R397). -/
def isLatch (x : Nat) : Bool := decide (x < 8)

/-- A converter channel. -/
def isConverter (x : Nat) : Bool := decide (x < 16)

/-- A fast converter channel. -/
def isFast (x : Nat) : Bool := decide (x < 8)

/-- A Bunting port, or a lane of the twin link. -/
def isLinkPort (x : Nat) : Bool := decide (x < 50)

/-- A ring with a key; 48 stands for the trunk tree (R570). -/
def isKeyRing (x : Nat) : Bool := decide (x ≤ 48)

/-- A slice of a fast converter. -/
def isSlice (x : Nat) : Bool := decide (x < 5)

/-- Within the range, left upward, left downward (R426). -/
def isLimit (x : Nat) : Bool := decide (x < 3)

/-- Samples of a fast converter's channel (R425, R436): one at the least, of 15 bits. -/
def isSamples (x : CnfSamples) : Bool := decide (x.ch < 8) && !x.words.isEmpty && x.words.all fun w => decide (w < 2 ^ 15)

/-- A capture channel (R462). -/
def isSurveyChannel (x : Nat) : Bool := decide (x < 8)

/-- A sample of a capture group. -/
def isSample (x : Nat) : Bool := decide (x < 64)

/-- A window of registers (R618). -/
def isBar (x : Nat) : Bool := decide (x = 0 ∨ x = 4)

/-- The three address bytes of an SPI access (R633). -/
def isSpiAddr (x : Nat) : Bool := decide (x < 2 ^ 24)

/-- A range of bytes inside the 16 MB of SRAM (R20). -/
def inSram (ofs n : Nat) : Bool := decide (ofs + n ≤ 0x1000000)

/-- The command is well formed. -/
def wellFormed (i : Instr) : Bool :=
  match i with
  | .powerOnReset _ => true
  | .porRelease role unit lgcy locksel bootsrc vddio3v3 _ _ => isTwoBits role && isBit unit && isBit lgcy && isBit locksel && isTwoBits bootsrc && isByte vddio3v3
  | .sysReset key => isWord key
  | .refMonitorWindow _ => true
  | .serdesUnlock quad => isQuad quad
  | .hubBoot _ _ => true
  | .strideBoundary cnf => cnf.all isSamples
  | .cellTableCutoff _ => true
  | .hoistBuildDone _ => true
  | .hoistTrailerReceived port _ _ => isPort port
  | .hoistExpire ring => isRing ring
  | .hubHeaderCheck port _ _ => isPort port
  | .hoistPass side _ _ => isSide side
  | .cellBoundary cni _ _ endSide _ cnf => isLimit endSide && !cni.isEmpty && cnf.all isSamples
  | .selftestDone report => isByte report.taps
  | .cniMonitorMean mean _ => isRaw mean
  | .otWarn _ => true
  | .otTrip _ => true
  | .delayLineCal taps => isByte taps
  | .tripActive n _ => isTrip n
  | .tripClear mask => isWord mask
  | .edgMapWrite _ value => isWord value
  | .tevFire e => isTev e
  | .gatePhaseEnd chan _ => isChannel chan
  | .millerTmo chan => isChannel chan
  | .refreshBurst m => isSide m
  | .deckFrame m _ => isSide m
  | .deckStartTimeout m => isSide m
  | .gateSupplyLow x => isSupply x.supply
  | .gateSupplyOk x => isSupply x.supply
  | .gateEnWrite value => isWord value
  | .desaturation n _ => isSide n
  | .blockLockLoss port => isLinkPort port
  | .retrainOk port _ => isLinkPort port
  | .hopDown port => isPort port
  | .ringBringup ring _ _ _ _ _ => isRing ring
  | .ringTakeDown ring => isRing ring
  | .splitBroadcast ring => isRing ring
  | .trunkBringup _ _ _ => true
  | .trunkHoistReceived port _ _ => isPort port
  | .penRequestLaunch port typ target _ => isPort port && isByte typ && isCellIndex target
  | .penTmo ring target txn => isRing ring && isCellIndex target && isTxn txn
  | .hubCred ring => isKeyRing ring
  | .cellCred ring => isKeyRing ring
  | .keyWrap ring cell => isKeyRing ring && isCellIndex cell
  | .keyAck ring => isKeyRing ring
  | .latAdj ring cell _ => isRing ring && isCellIndex cell
  | .hopRelease ring hop => isRing ring && isHop hop
  | .linkBypass ring cell => isRing ring && isCellIndex cell
  | .syncTimeout due => isSide due.engine
  | .announceTimeout due => isSide due.engine
  | .ppsInEdge _ => true
  | .todArm value => isWord value
  | .ethFrameRx port _ _ => isEthPort port
  | .ethTx port => isEthPort port
  | .ethLinkChange port _ _ _ _ _ => isEthPort port
  | .ctrEnable _ => true
  | .ctgEnable group _ => isGroup group
  | .opDispatch _ => true
  | .legEnd d => isDesc d
  | .waitMet d => isDesc d
  | .waitTmo due => isDesc due.d
  | .opComplete d => isDesc d
  | .cancel idx => isDesc idx
  | .run _ => true
  | .xcopy d => isDesc d
  | .wsum d => isDesc d
  | .mul d => isDesc d
  | .pi d => isDesc d
  | .piRs d => isDesc d
  | .ramp d => isDesc d
  | .lpf1 d => isDesc d
  | .biq2 d => isDesc d
  | .clarke d => isDesc d
  | .iclarke d => isDesc d
  | .park d => isDesc d
  | .ipark d => isDesc d
  | .seq d => isDesc d
  | .pll d => isDesc d
  | .lim d => isDesc d
  | .rlim d => isDesc d
  | .lut d => isDesc d
  | .ccsc d => isDesc d
  | .min d => isDesc d
  | .max d => isDesc d
  | .med d => isDesc d
  | .gear d => isDesc d
  | .cmp d => isDesc d
  | .stopreq d => isDesc d
  | .coefWr d => isDesc d
  | .coefDataWrite value _ => isWord value
  | .push axis => isAxis axis
  | .pushResume axis => isAxis axis
  | .replace axis => isAxis axis
  | .stop axis => isAxis axis
  | .flush axis => isAxis axis
  | .gearIn axis => isAxis axis
  | .gearOut axis => isAxis axis
  | .fblClr axis => isAxis axis
  | .encoderEdge f _ _ _ => isFbk f
  | .hallChange f _ _ _ _ => isFbk f
  | .hallInvalid f => isFbk f
  | .index f _ => isFbk f
  | .lineFault f _ _ => isFbk f
  | .ssiReadStart f => isFbk f
  | .ssiReadDone f _ _ _ _ => isFbk f
  | .fbkValid f => isFbk f
  | .datumArm axis value => isAxis axis && isWord value
  | .datumSet axis => isAxis axis
  | .latch n _ _ => isLatch n
  | .swLatch axis => isAxis axis
  | .latchPop axis => isAxis axis
  | .cmpArm axis c value => isAxis axis && isSide c && isWord value
  | .startEvent k _ => k < 17
  | .converterStart _ => true
  | .cniWindowClose ch code side _ _ => isConverter ch && isRaw code && isLimit side
  | .scanDone res => res.all isSamples
  | .calStep _ ofs _ _ => isOffset ofs
  | .frozen ch => isFast ch
  | .sliceFrozen ch slice => isFast ch && isSlice slice
  | .svLost stream => isStream stream
  | .pmuReport _ _ _ => true
  | .pmuIntRecord _ => true
  | .segmentFree mask => isWord mask
  | .levelTrigger ch _ _ sample => isSurveyChannel ch && isSample sample
  | .slopeTrigger ch _ _ sample => isSurveyChannel ch && isSample sample
  | .patternTrigger _ _ sample => isSample sample
  | .groupWritten _ _ _ _ => true
  | .svyRdData words => isByte words
  | .front det _ _ _ _ => isDetector det
  | .strideFrame lane _ _ => isSide lane
  | .ringDig lane _ => isSide lane
  | .lateFrame lane _ => isSide lane
  | .mirrorFrame lane _ => isSide lane
  | .stateFrame lane _ => isSide lane
  | .clrEnable _ => true
  | .safetyCycle len _ _ _ _ _ _ _ => isMailLen len
  | .supFault _ => true
  | .connLost conn => isConn conn
  | .netLost conn net => isConn conn && isSide net
  | .claimCmd len => isMailLen len
  | .attest len => isMailLen len
  | .endorse len => isMailLen len
  | .dbgChallenge len => isMailLen len
  | .dbgResponse len => isMailLen len
  | .keyLoad len => isMailLen len
  | .keyErase len => isMailLen len
  | .rollFwd len => isMailLen len
  | .rekeyNow ring => isKeyRing ring
  | .rekeyStart ring => isKeyRing ring
  | .keyExpired ring => isKeyRing ring
  | .suspectClr cell => isCellEntry cell
  | .priorityRequest island => isIsland island
  | .islandRelease island => isIsland island
  | .budgetWrite value => isWord value
  | .clkOutWrite out value => isClkOut out && isWord value
  | .supSample _ _ => true
  | .dormantRequest key => isWord key
  | .wakeEvent _ _ => true
  | .pcieLinkChange _ speed width _ => isTwoBits speed && isThreeBits width
  | .bar2Write ofs data ties => inSram ofs data.length && inSram ties.dma.1 ties.dma.2
  | .scrubPass _ _ => true
  | .hostRingPiWrite ring value => isHostRing ring && isWord value
  | .ringWriteResume ring => isWaitRing ring
  | .dmaHostToSram engine _ _ => isSide engine
  | .dmaSramToHost engine _ => isSide engine
  | .dmaNoTransfer engine => isSide engine
  | .dmaComplete engine => isSide engine
  | .evtPendWrite page bits => isPage page && isWord bits.mask && isWord bits.raised
  | .evtRawWrite page bits => isPage page && isWord bits.mask && isWord bits.raised
  | .evtForce page mask => isPage page && isWord mask
  | .spiWrite addr data _ => isSpiAddr addr && isWord data
  | .spiRead addr _ => isSpiAddr addr
  | .qspiStart value => isWord value
  | .qspiDone _ => true
  | .pageLock page => isPage page
  | .pageUnlock page => isPage page
  | .softReset page => isPage page
  | .softResetDone page => isPage page
  | .freeze page _ => isPage page
  | .rcFieldRead x _ => isPage x.page && isOffset x.ofs
  | .gpioEdge inputs => isByte inputs
  | .tempHigh _ => true
  | .registerWrite bar page ofs value _ => isBar bar && isPage page && isOffset ofs && isWord value
  | .serdesLock quad => isQuad quad
  | .plotBist mask => isWord mask
  | .frozenEnd ch => isFast ch
  | .electricalCompareFire axis _ => isAxis axis
  | .pllLock => true
  | .pllUnlock => true
  | .msynLock => true
  | .msynUnlock => true
  | .bootDone => true
  | .bootGo => true
  | .chartStart => true
  | .sortStageStart => true
  | .sortStageDone => true
  | .chartDeadline => true
  | .edgeStageStart => true
  | .edgeStageDone => true
  | .flagDeadline => true
  | .orphanTimeout => true
  | .bptPulse => true
  | .bootWindowExpiry => true
  | .imageVerifyDone => true
  | .bootRetry => true
  | .ov2 => true
  | .edgeAction => true
  | .lcPeriodBoundary => true
  | .commit => true
  | .accountUpdate => true
  | .forcedRefill => true
  | .genLow => true
  | .genClear => true
  | .empty => true
  | .regRd => true
  | .regWr => true
  | .regRsp => true
  | .bootData => true
  | .bootEnd => true
  | .enum => true
  | .digest => true
  | .bootStreamStart => true
  | .bootStreamStop => true
  | .reanchor => true
  | .switchReq => true
  | .stepApply => true
  | .ppsMissing => true
  | .ppsOutPulse => true
  | .holdoverUpdate => true
  | .snapshotRead => true
  | .timingApply => true
  | .stage => true
  | .stageCheckDone => true
  | .swap => true
  | .swapCancel => true
  | .coefWriteResume => true
  | .cflClear => true
  | .scanStart => true
  | .svyArm => true
  | .disarm => true
  | .force => true
  | .logRateDown => true
  | .peerResend => true
  | .noMatch => true
  | .frontPop => true
  | .mirrorApply => true
  | .mirrorWriteResume => true
  | .aloneTimeout => true
  | .handover => true
  | .drill => true
  | .prefReturn => true
  | .faultClr => true
  | .resyncTransfer => true
  | .resyncDone => true
  | .degrTimeout => true
  | .faultAck => true
  | .safReset => true
  | .cmdDone => true
  | .entropyFail => true
  | .arbiterCycle => true
  | .heldAccessResume => true
  | .pwrenLow => true
  | .pcieReset => true
  | .spiStatus => true
  | .regParity => true
  | .keyAgreeOperationDone => true
  | .entropyOk => true

end Sys2Proof
end

