-- ==== Sys2Proof/Safety.lean ====
section
/-! DEFINITION. The terms that claims use: what it is for a command to complete, which command may stop, the parts of the state, what a command
leaves as it was, and the invariants of a run. -/

namespace Sys2Proof.Machine

/-- The command completes at a state: it answers a next state, and `P` holds of that state. -/
def Completes (c : Instr) (s : State) (P : State → Prop) : Prop := ∃ t, exec c s = .next t ∧ P t

/-- The command is an access to bytes outside the 16 MB of SRAM that BAR2 maps: the one command that may stop (R20). -/
def beyondSram (c : Instr) : Prop := ∃ ofs data ties, c = .bar2Write ofs data ties ∧ 0x1000000 < ofs + data.length

/-- Event `n` of a page stands in its EVT_RAW (R629). -/
def Raised (page n : Nat) (t : State) : Prop := t.bitI PG.EVT_RAW page n = true

/-- The rows that act on a device held in power-on reset or dormant (R598, R610 to R614). -/
def actsAsleep : Instr → Bool
  | .powerOnReset _ | .porRelease .. | .pwrenLow | .wakeEvent .. => true
  | _ => false

/-- The rows with which the security island burns fuses, beside power-on reset (R550, R551, R554). -/
def burnsFuses : Instr → Bool
  | .cmdDone | .entropyOk | .porRelease .. => true
  | _ => false

/-- A host write to a register reaches its block at once: the device is awake, nothing refuses or holds the access, and the pair does not mirror
it (R487, R606, R619, R620, R640, R643). -/
def WriteReaches (s : State) (page ofs : Nat) : Prop :=
  s.awake = true ∧ s.busVerdict page ofs true = .perform ∧ (s.mirroring && mirroredPage page) = false

/-- The state that an access to a page presents to the block: the page's islands count as used now (R607). -/
def State.used (s : State) (page : Nat) : State := s.useIslands (homeIslands s.isCell page)

/-- The parts of the state beside the register file, the straps and the queue. -/
inductive Part where
  | memory | record | meridian | sources | msix | timing | link | contour | cell | edge | gate | graph | axes | feedback | measure
  | survey | ethernet | tri | pair | safety | security | power | diag | fuses | host | reset
  deriving DecidableEq, Repr

/-- A part of the state stands in `t` as in `s`: the bytes of memory as they read, every other part as it is held. -/
def Part.same (s t : State) : Part → Prop
  | .memory => (∀ a, t.byte a = s.byte a) ∧ t.sramBad = s.sramBad
  | .record => t.out = s.out ∧ t.freeCtr = s.freeCtr ∧ t.served = s.served
  | .meridian => t.mer = s.mer
  | .sources => t.pps = s.pps ∧ t.ptp = s.ptp
  | .msix => t.msix = s.msix ∧ t.msixPending = s.msixPending
  | .timing => t.strideT = s.strideT
  | .link => t.rings = s.rings ∧ t.prt = s.prt ∧ t.txns = s.txns ∧ t.pens = s.pens ∧ t.bootStop = s.bootStop ∧ t.trunk = s.trunk
  | .contour => t.cells = s.cells ∧ t.groups = s.groups ∧ t.ctr = s.ctr
  | .cell => t.cell = s.cell ∧ t.bypassFromRunning = s.bypassFromRunning
  | .edge => t.edge = s.edge
  | .gate => t.gate = s.gate
  | .graph => t.graph = s.graph
  | .axes => t.axes = s.axes
  | .feedback => t.fbk = s.fbk
  | .measure => t.meas = s.meas
  | .survey => t.svy = s.svy
  | .ethernet => t.txq = s.txq ∧ t.txBusy = s.txBusy
  | .tri => t.tri = s.tri
  | .pair => t.pair = s.pair
  | .safety => t.saf = s.saf
  | .security => t.security = s.security
  | .power => t.pwr = s.pwr
  | .diag => t.diagNow = s.diagNow ∧ t.diagTime = s.diagTime
  | .fuses => t.fuses = s.fuses
  | .host => t.hif = s.hif ∧ t.frozen = s.frozen
  | .reset => t.por = s.por

/-- Every register outside the pages named reads in `t` as in `s`. -/
def SameRegs (pages : List Nat) (s t : State) : Prop :=
  ∀ (f : RegField) (pg idx : Nat), f.key pg idx / 131072 ∉ pages → t.rdA f pg idx = s.rdA f pg idx

/-- From `s` to `t` nothing changed but registers of the pages named and the parts named; straps and queue never. -/
def Frame (pages : List Nat) (parts : List Part) (s t : State) : Prop :=
  SameRegs pages s t ∧ (∀ p, p ∉ parts → p.same s t) ∧ t.straps = s.straps ∧ t.pending = s.pending

/-- The command changes nothing but registers of the pages named and the parts named, whenever it answers a next state. -/
def Touches (c : Instr) (pages : List Nat) (parts : List Part) : Prop :=
  ∀ s t, exec c s = .next t → Frame pages parts s t

/-- The command changes no part of the state but the parts named, whenever it answers a next state; registers are not spoken of. -/
def TouchesParts (c : Instr) (parts : List Part) : Prop :=
  ∀ s t, exec c s = .next t → ∀ p, p ∉ parts → p.same s t

/-- The operation commands of the Legend: each computes what its operation will write at its completion. -/
def isOperation : Instr → Bool
  | .xcopy _ | .wsum _ | .mul _ | .pi _ | .piRs _ | .ramp _ | .lpf1 _ | .biq2 _ | .clarke _ | .iclarke _ | .park _ | .ipark _ | .seq _
  | .pll _ | .lim _ | .rlim _ | .lut _ | .ccsc _ | .min _ | .max _ | .med _ | .gear _ | .cmp _ | .stopreq _ | .coefWr _ => true
  | _ => false

/-- The parts that any access to a register may change while it is held, refused or mirrored (R487, R606, R645): the record of what left the
balls, the MSI-X messages, the arbiter's requests, the host interface and the mirrored writes. -/
def busParts : List Part := [.record, .msix, .power, .host, .pair]

/-- Bytes of SRAM from `a` for `n` are all that a state's memory changed. -/
def MemoryBut (a n : Nat) (s t : State) : Prop := ∀ b, b < a ∨ a + n ≤ b → t.byte b = s.byte b

/-- What the one-time memory may undergo: the version floor never falls, and an identity, an owner and its image key stay once they have
been burned (R551, R557, R562). -/
def FusesOnlyBurn (s t : State) : Prop :=
  s.fuses.svnMin ≤ t.fuses.svnMin
  ∧ (s.fuses.identity ≠ [] → t.fuses.identity = s.fuses.identity)
  ∧ (s.fuses.owner ≠ [] → t.fuses.owner = s.fuses.owner ∧ t.fuses.imageKey = s.fuses.imageKey)

/-- Descriptor `d` of the active Chart executes on a Plotter, has not read its inputs yet, and is of the opcode given. -/
def State.starts (s : State) (d code : Nat) : Prop :=
  s.awake = true ∧ d < s.graph.ops.length ∧ (s.op d).st = 2 ∧ (s.op d).res = none ∧ (s.desc d).opcode = code

/-- What descriptor `d` reads as its first leg starts (R291). -/
def State.inputs (s : State) (d : Nat) : OpIn := (s.advanceTo (s.op d).legAt).opIn d (s.desc d) (s.op d).legAt

/-- The version floor is a count of 64 fuse bits (R557). -/
def FloorInRange (s : State) : Prop := s.fuses.svnMin ≤ 64

end Sys2Proof.Machine
end

