-- ==== Sys2Proof/Certificates/Slice0/Obligations.lean ====
section
/-! DEFINITION. The statements for the provers: what every command does, what each leaves as it was, and what every step keeps. -/

open Sys2Proof Sys2Proof.Machine

/-- A step with a command at the front of the queue is that command's exec on the state with the queue's rest: the model's rule for a block (assumption 4). -/
def Obligations.StepRunsFrontCommand : Prop :=
  ∀ (c : Instr) (rest : List Instr) (s : State), s.pending = c :: rest → step s = exec c { s with pending := rest }

/-- An idle step is one cycle of the Meridian (R48, R50; the model's choice, assumption 3): nothing but time changes, by 40 ns of REFCLK before the synthesizer's lock. -/
def Obligations.IdleStepIsOneMeridianCycle : Prop := ∀ s : State, s.pending = [] →
  ∃ t, step s = .next t ∧ Frame [] [.meridian] s t ∧
    (s.pwr.synthRun = false → t.mer.uptime = s.mer.uptime + 40 * ns ∧ t.mer.mer = (s.mer.mer + 40 * ns) % merRange) ∧
    (s.pwr.synthRun = true → s.mer.freq = 0 → s.mer.phase = 0 → 0 ≤ s.mer.rateRes → s.mer.rateRes < 256000000000 →
      t.mer.uptime = s.mer.uptime + 2 * ns ∧ t.mer.mer = (s.mer.mer + 2 * ns) % merRange)

/-- What reset leaves (R2, R50, R598, R635 and the register tables): time at zero, no command waiting, memory with nothing listed, and the reset values of the tables.
The straps are the model's choice (assumption 1). -/
def Obligations.ResetLeavesTheTablesValues : Prop :=
  State.reset.mer.mer = 0 ∧ State.reset.mer.uptime = 0 ∧ State.reset.pending = [] ∧ State.reset.sram = [] ∧ State.reset.awake = true ∧ State.reset.isHub = true ∧
  State.reset.rd MER.STAT_STATE = 0 ∧ State.reset.rd MER.STAT_SRC = 3 ∧ State.reset.rd CTR.TIMING_STRIDE = 1000 ∧ State.reset.rd CTR.TIMING_LA = 1 ∧
  State.reset.rd CTR.TIMING_DEADLINE = 60 ∧ State.reset.rd GRF.LEGEND_VERSION = 0x0100 ∧ State.reset.rd GRF.STAT_STAGED = 0 ∧ State.reset.rd GRF.CTL_RUN = 0 ∧
  State.reset.rd GRF.FBL_HOLD = 2 ∧ State.reset.rd CLR.STAT_STATE = 0 ∧ State.reset.rd SAF.STAT_SPB = 1 ∧ State.reset.rd SEC.RING_REKEY_LOG = 30 ∧
  State.reset.rd PWR.BUDGET = 0x3E8 ∧ FloorInRange State.reset ∧ Memory.wf State.reset.sram = true ∧
  ∀ page, page < 256 → State.reset.rdI PG.EVT_RAW page = 0

/-- In power-on reset and in the dormant state every command but those that act on a sleeping device leaves the state as it was (R598, R610, R611; assumption 10). -/
def Obligations.AsleepDeviceIgnoresCommands : Prop :=
  ∀ (c : Instr) (s : State), s.awake = false → actsAsleep c = false → ¬ beyondSram c → exec c s = .next s

/-- Every command completes in every state, but a BAR2 write past the 16 MB of SRAM, which stops with the address it would reach (R20). -/
def Obligations.EveryCommandAnswersUnlessBeyondSram : Prop :=
  ∀ (c : Instr) (s : State), (beyondSram c → ∃ a, exec c s = .fault (.outsideSram a)) ∧ (¬ beyondSram c → ∃ t, exec c s = .next t)

/-- The queue is first in, first out, and the straps are sampled at the release of power-on reset only (R1): no other step changes them. -/
def Obligations.StepKeepsStrapsAndQueueOrder : Prop := ∀ s t : State, step s = .next t →
  t.pending = s.pending.tail ∧
  ((∀ a b c d e f g h, s.pending.head? ≠ some (.porRelease a b c d e f g h)) ∨ s.por = false → t.straps = s.straps)

/-- Fuses only burn: no step lowers the version floor, and none changes an identity, an owner or an owner's image key once it is there (R551, R557, R562). -/
def Obligations.StepBurnsFusesOneWay : Prop := ∀ s t : State, step s = .next t → FusesOnlyBurn s t

/-- The version floor stays a count of 64 fuse bits (R557): every step from a state in which it is one leaves it one. -/
def Obligations.StepKeepsTheFloorInRange : Prop := ∀ s t : State, FloorInRange s → step s = .next t → FloorInRange t

/-- The memory keeps its canonical form in every step: addresses rising, and no byte listed that equals what an unlisted address reads as. -/
def Obligations.StepKeepsMemoryCanonical : Prop := ∀ s t : State, Memory.wf s.sram = true → step s = .next t → Memory.wf t.sram = true

/-- Power-on reset (R1, R50, R598): a rail, RST_N or the SYS_RESET key asserts it, the fuses and the queue stay; its release samples the straps
into SYS_STRAP, clears the time and reports the cause.
It says that these commands complete, each with the result its clause gives, under hypotheses on state and operands alone: powerOnReset, porRelease, sysReset. -/
def Obligations.PowerOnResetAssertsAndReleases : Prop :=
  ∀ s : State,
  (∀ lost, Completes (.powerOnReset lost) s fun t =>
    t.por = true ∧ t.sram = [] ∧ t.fuses = s.fuses ∧ t.pending = s.pending) ∧
  (s.por = true → ∀ role unit lgcy locksel bootsrc io ent unw, role < 4 → unit < 2 → lgcy < 2 → locksel < 2 → bootsrc < 4 →
    Completes (.porRelease role unit lgcy locksel bootsrc io ent unw) s fun t =>
      t.por = false ∧ t.straps = ⟨role, unit, lgcy, locksel, bootsrc⟩ ∧ t.rd SYS.STRAP_ROLE = role ∧ t.mer.mer = 0 ∧ t.mer.uptime = 0 ∧
      t.rd PWR.STAT_WAKE_CAUSE = s.pwr.porCause % 4) ∧
  (WriteReaches s 0x00 0x050 → Completes (.sysReset 0x5253) s fun t => t.por = true ∧ t.sram = [] ∧ t.fuses = s.fuses)

/-- The dormant state (R610, R611, R613, R614): a request with the key is accepted while the outputs are safe and asserts the wait for PWREN; PWREN falls
100 µs later; an armed wake event then begins power-on reset with its cause. A request with another key is refused.
It says that these commands complete, each with the result its clause gives, under hypotheses on state and operands alone: dormantRequest, pwrenLow,
wakeEvent. -/
def Obligations.DormantStateIsEnteredAndLeft : Prop :=
  ∀ s : State,
  (WriteReaches s 0x01 0x044 → s.isCell = false → s.on SAF.STAT_SPB = true → Completes (.dormantRequest 0xD0) s fun t =>
    t.pwr.dormant = some s.mer.uptime ∧ t.pwr.pwren = true ∧ t.awake = false) ∧
  (WriteReaches s 0x01 0x044 → ∀ key, key ≠ 0xD0 → Completes (.dormantRequest key) s fun t =>
    t.pwr.dormant = none ∧ t.rdI PG.ERR_CODE 0x01 = 4) ∧
  (∀ t0, s.pwr.dormant = some t0 → s.pwr.wakeLatched = none → Completes .pwrenLow s fun t =>
    t.pwr.pwren = false ∧ t0 + 100 * us ≤ t.mer.uptime ∧ t.pwr.dormant = some t0) ∧
  (s.pwr.dormant.isSome = true → s.por = false → s.pwr.pwren = false → s.on PWR.WAKE_WAKE_EN = true →
    ∀ was now, (if s.on PWR.WAKE_WAKE_POL then was ≠ 0 ∧ now = 0 else was = 0 ∧ now ≠ 0) →
    Completes (.wakeEvent false ⟨was, now⟩) s fun t =>
      t.por = true ∧ t.pwr.porCause = 1 ∧ t.pwr.pwren = true ∧ t.pwr.dormant = none) ∧
  (s.pwr.dormant.isSome = true → s.por = false → s.pwr.pwren = false → s.on PWR.WAKE_CMP_EN = true →
    ∀ was now, s.wakeCross was now = true → Completes (.wakeEvent true ⟨was, now⟩) s fun t =>
      t.por = true ∧ t.pwr.porCause = 2 ∧ t.pwr.pwren = true ∧ t.pwr.dormant = none)

/-- The power-budget arbiter (R605 to R609): a cycle makes the island it chooses ACTIVE; a request that has waited 50 cycles may take priority; an
island whose keeping condition has ended goes to RETAIN; PWR_BUDGET takes the value written, in a cell no less than 0x27, and not while its page is locked;
a held access that nothing holds any more is answered.
It says that these commands complete, each with the result its clause gives, under hypotheses on state and operands alone: arbiterCycle, priorityRequest,
islandRelease, budgetWrite, heldAccessResume. -/
def Obligations.ArbiterGrantsAndReleasesIslands : Prop :=
  ∀ s : State, s.awake = true →
  (∀ k, s.arbiterRuns = true → (∀ j, .islandRelease j ∉ s.pending) → s.arbiterChoice = some k → Completes .arbiterCycle s fun t =>
    t.isl k = 2 ∧ t.mer.uptime = max s.mer.uptime (s.windowEnd arbCyc)) ∧
  (∀ k i, s.isl k = 3 → s.pwr.islands[k]? = some i → 50 ≤ i.waited → Completes (.priorityRequest k) s fun t =>
    t.rdA PWR.ISL_PRIO 0 k = 1) ∧
  (∀ k, s.isl k = 2 → s.keeps k = false → .islandRelease k ∉ s.served → Completes (.islandRelease k) s fun t =>
    t.isl k = 1 ∧ t.mer.uptime = max s.mer.uptime (s.releaseAt k)) ∧
  (∀ v, WriteReaches s 0x01 0x04C → s.onI PG.LOCKED 0x01 = false → Completes (.budgetWrite v) s fun t =>
    t.rd PWR.BUDGET = if s.isCell then max 0x27 (v % 65536) else v % 65536) ∧
  (∀ v, WriteReaches s 0x01 0x04C → s.onI PG.LOCKED 0x01 = true → Completes (.budgetWrite v) s fun t =>
    t.rd PWR.BUDGET = s.rd PWR.BUDGET ∧ t.rdI PG.ERR_CODE 0x01 = 3) ∧
  (∀ h rest, s.pwr.held = h :: rest → h.write = false → h.src = 0 → s.busVerdict h.page h.ofs false = .perform →
    Completes .heldAccessResume s fun t => ∃ v, t.out.head? = some (.readData h.page h.ofs v))

/-- The event registers of a page (R629): a write of 1 to bits of EVT_PEND clears them there and in EVT_RAW, a write to EVT_RAW clears them there alone, a bit
raised in the same cycle stays in both cases, and
EVT_FORCE raises the event as the block does: its bit in EVT_RAW, and with its EVT_EN bit set the page's line.
It says that these commands complete, each with the result its clause gives, under hypotheses on state and operands alone: evtPendWrite, evtRawWrite,
evtForce. -/
def Obligations.EventRegistersClearAndForce : Prop :=
  ∀ (s : State) (page : Nat),
  (∀ mask raised, WriteReaches s page 0x018 → mask < 2 ^ eventsOf page → Completes (.evtPendWrite page ⟨mask, raised⟩) s fun t =>
    t.rdI PG.EVT_PEND page = s.rdI PG.EVT_PEND page &&& (2 ^ 32 - 1 - clearBits mask raised) ∧
    t.rdI PG.EVT_RAW page = s.rdI PG.EVT_RAW page &&& (2 ^ 32 - 1 - clearBits mask raised)) ∧
  (∀ mask raised, WriteReaches s page 0x010 → mask < 2 ^ eventsOf page → Completes (.evtRawWrite page ⟨mask, raised⟩) s fun t =>
    t.rdI PG.EVT_RAW page = s.rdI PG.EVT_RAW page &&& (2 ^ 32 - 1 - clearBits mask raised) ∧
    t.rdI PG.EVT_PEND page = s.rdI PG.EVT_PEND page) ∧
  (∀ n, WriteReaches s page 0x01C → n < eventsOf page → Completes (.evtForce page (2 ^ n)) s fun t =>
    Raised page n t ∧ (s.bitI PG.EVT_EN page n = true → t.line page = true))

/-- The lock, the soft reset and the freeze of a page (R642, R643, R644, Table 15-1): the keys set and clear LOCKED; unlocking SAF in service forces SAFE;
a soft reset holds the page until it is done, 1 µs later, and is refused on a locked page; FREEZE follows what is written.
It says that these commands complete, each with the result its clause gives, under hypotheses on state and operands alone: pageLock, pageUnlock, softReset,
softResetDone, freeze. -/
def Obligations.PageHeaderLocksResetsAndFreezes : Prop :=
  ∀ (s : State) (page : Nat),
  (WriteReaches s page 0x020 → Completes (.pageLock page) s fun t => t.rdI PG.LOCKED page = 1) ∧
  (WriteReaches s page 0x020 → page ≠ 0x98 → page ≠ 0x99 → Completes (.pageUnlock page) s fun t => t.rdI PG.LOCKED page = 0) ∧
  (WriteReaches s page 0x008 → s.onI PG.LOCKED page = false → Completes (.softReset page) s fun t => t.pwr.resetting.contains page = true) ∧
  (WriteReaches s page 0x008 → s.onI PG.LOCKED page = true → Completes (.softReset page) s fun t =>
    t.pwr.resetting = s.pwr.resetting ∧ t.rdI PG.ERR_CODE page = 3) ∧
  (s.awake = true → s.pwr.resetting.contains page = true → Completes (.softResetDone page) s fun t =>
    t.pwr.resetting.contains page = false ∧ t.mer.uptime = s.mer.uptime + us) ∧
  (∀ on, WriteReaches s page 0x008 → Completes (.freeze page on) s fun t => t.onI PG.FREEZE page = on)

/-- Accesses to registers (R11, R619, R630), where no SPI access of its cycle has carried the access out already: a word written to EVT_EN reads back; an access of
another size is refused with code 5; a write to BAR4 stores a word of the MSI-X table; a read of PG_ERR returns it and clears it.
It says that these commands complete, each with the result its clause gives, under hypotheses on state and operands alone: registerWrite, rcFieldRead. -/
def Obligations.RegisterAccessesReadAndWrite : Prop :=
  ∀ (s : State) (page : Nat), s.served = [] →
  (∀ v, WriteReaches s page 0x014 → v < 2 ^ eventsOf page → Completes (.registerWrite 0 page 0x014 v 4) s fun t => t.rdI PG.EVT_EN page = v) ∧
  (∀ ofs v size, s.awake = true → size ≠ 4 → Completes (.registerWrite 0 page ofs v size) s fun t =>
    t.rdI PG.ERR_CODE 0xB0 = 5 ∧ t.rdI PG.ERR_OFFSET 0xB0 = ofs % 4096 ∧ Raised 0xB0 3 t) ∧
  (∀ a v, s.awake = true → s.isHub = true → a < 1024 → a % 4 = 0 → Completes (.registerWrite 4 0 a v 4) s fun t =>
    t.msix.getD (a / 4) 0 = v % 2 ^ 32) ∧
  (s.awake = true → s.busVerdict page 0x024 false = .perform → Completes (.rcFieldRead ⟨0, page, 0x024⟩ 4) s fun t =>
    t.out.head? = some (.readData page 0x024 (s.rdI PG.ERR_OFFSET page + 4096 * s.rdI PG.ERR_CODE page + 65536 * s.rdI PG.ERR_COUNT page)) ∧
    t.rdI PG.ERR_OFFSET page = 0 ∧ t.rdI PG.ERR_CODE page = 0 ∧ t.rdI PG.ERR_COUNT page = 0)

/-- The SPI target and the flash (R633, R634, R648): a whole frame writes and reads registers as the host does, after the write over PCI Express that reaches
the same register in its cycle; the status opcode reports the last access, and a flash command runs until its end, which raises QSPI_DONE.
It says that these commands complete, each with the result its clause gives, under hypotheses on state and operands alone: spiWrite, spiRead, spiStatus,
qspiStart, qspiDone. -/
def Obligations.SerialPortsAccessRegistersAndFlash : Prop :=
  ∀ s : State, s.awake = true → s.isHub = true →
  (∀ page v, page < 256 → WriteReaches s page 0x014 → v < 2 ^ eventsOf page →
    Completes (.spiWrite (page * 4096 + 0x014) v ⟨true, false⟩) s fun t => t.rdI PG.EVT_EN page = v ∧ t.hif.spiDone = true ∧ t.hif.spiErr = false) ∧
  (∀ page v w rest, page < 256 → WriteReaches s page 0x014 → v < 2 ^ eventsOf page →
    s.pending = .registerWrite 0 page 0x014 w 4 :: rest →
    Completes (.spiWrite (page * 4096 + 0x014) v ⟨true, true⟩) s fun t =>
      t.rdI PG.EVT_EN page = v ∧ .registerWrite 0 page 0x014 w 4 ∈ t.served) ∧
  (∀ page, page < 256 → s.busVerdict page 0x014 false = .perform →
    Completes (.spiRead (page * 4096 + 0x014) ⟨true, false⟩) s fun t =>
      t.out.head? = some (.spi (1 :: leBytes 4 (s.rdI PG.EVT_EN page)))) ∧
  (∀ addr v tie, addr % 4 ≠ 0 → Completes (.spiWrite addr v ⟨true, tie⟩) s fun t => t.rdI PG.ERR_CODE 0xB0 = 5 ∧ t.hif.spiErr = true) ∧
  Completes .spiStatus s (fun t => t.out = .spi [BitVec.ofNat 8 (ofBool s.hif.spiDone + 2 * ofBool s.hif.spiErr)] :: s.out) ∧
  (∀ v, WriteReaches s 0xB0 0x050 → s.rd SYS.BOOT_STATE = 4 → s.hif.flash = false → Completes (.qspiStart v) s fun t =>
    t.hif.flash = true ∧ ∃ addr n dummy data, t.out.head? = some (.flash (v % 256) addr n dummy data)) ∧
  (∀ data, s.hif.flash = true → Completes (.qspiDone data) s fun t => t.hif.flash = false ∧ Raised 0xB0 6 t)

/-- Pins, temperature, scrubbing and self-tests of a hub (R23, R25, R347, R647, Table 14-5): GPIO_IN shows the levels, TEMP the temperature with TEMP_HIGH at
its rise through HIGH; a scrub counts single errors and marks the words of double ones; failed Plotters are marked; a parity error is counted.
It says that these commands complete, each with the result its clause gives, under hypotheses on state and operands alone: gpioEdge, tempHigh, scrubPass,
plotBist, regParity. -/
def Obligations.PinsSensorsAndSelfTestsReport : Prop :=
  ∀ s : State, s.awake = true → s.isHub = true →
  (∀ inputs, Completes (.gpioEdge inputs) s fun t =>
    t.rd AUX.GPIO_IN = ((s.rd AUX.GPIO_OUT &&& s.rd AUX.GPIO_DIR) ||| (inputs % 256 &&& (255 - s.rd AUX.GPIO_DIR))) % 256) ∧
  (∀ x : Int, -2048 ≤ x → x < 2048 → s.rdS AUX.TEMP_T 0 < 4 * s.rdS AUX.TEMP_HIGH 0 → 4 * s.rdS AUX.TEMP_HIGH 0 ≤ x →
    Completes (.tempHigh x) s fun t => t.rdS AUX.TEMP_T 0 = x ∧ Raised 0xB2 1 t) ∧
  (∀ n, 0 < n → Completes (.scrubPass n []) s fun t =>
    t.rd SYS.CNT_SRAM_SEC = min (s.rd SYS.CNT_SRAM_SEC + n) 0xFFFF ∧ Raised 0x00 0 t) ∧
  (∀ w, s.sramWord w = true → Completes (.scrubPass 0 [w]) s fun t => t.sramBad.contains w = true ∧ Raised 0x00 1 t) ∧
  (∀ m, 0 < m → m < 2 ^ 16 → Completes (.plotBist m) s fun t =>
    t.rd SYS.DIAG_PLOT_BIST = (s.rd SYS.DIAG_PLOT_BIST ||| m) % 2 ^ 16 ∧ Raised 0x00 3 t ∧ bitOf t.diagNow 4 = true) ∧
  Completes .regParity s fun t =>
    t.rd SYS.CNT_REG_PARITY = min (s.rd SYS.CNT_REG_PARITY + 1) 0xFF ∧ Raised 0x00 2 t ∧ bitOf t.diagNow 3 = true

/-- Host writes into SRAM (R20, R22, R628): bytes written above the windows of Chart store, signals and Cell table read back and no other byte
changes, but for bytes that a DMA write reaches in the same cycle, which keep what that gave them; a piece in
the active Chart's half is discarded with code 7 and leaves the memory as it was; an access beyond the 16 MB is the one that stops.
It says that these commands complete, each with the result its clause gives, under hypotheses on state and operands alone: bar2Write. -/
def Obligations.HostWritesReachTheSram : Prop :=
  ∀ (s : State) (a : Nat) (data : Bytes),
  (∀ slots b, s.awake = true → s.isHub = true → 0x500000 ≤ a → a + data.length ≤ 0x1000000 →
    Completes (.bar2Write a data ⟨slots, (b, 0)⟩) s fun t =>
    t.bytesAt a data.length = data ∧ MemoryBut a data.length s t ∧ SameRegs [] s t) ∧
  (s.awake = true → s.isHub = true → s.activePart a = true → data.length = 1 →
    Completes (.bar2Write a data ⟨[], (0, 0)⟩) s fun t =>
    (∀ b, t.byte b = s.byte b) ∧ t.rdI PG.ERR_CODE 0xB0 = 7 ∧ t.rdI PG.ERR_OFFSET 0xB0 = a % 4096) ∧
  (∀ o n, s.awake = true → s.isHub = true → 0x500000 ≤ a → a + data.length ≤ 0x1000000 → 0 < n →
    Completes (.bar2Write a data ⟨[], (o, n)⟩) s fun t =>
      ∀ b, a ≤ b → b < a + data.length → t.byte b = if o ≤ b ∧ b < o + n then s.byte b else data.getD (b - a) 0) ∧
  (∀ ties, 0x1000000 < a + data.length → exec (.bar2Write a data ties) s = .fault (.outsideSram (a + data.length)))

/-- The host rings (R28, R624, R625): the host advances PI of a ring that it fills, a device ring's PI is read-only to it; a producer that waits goes on when
an entry is free.
It says that these commands complete, each with the result its clause gives, under hypotheses on state and operands alone: hostRingPiWrite, ringWriteResume. -/
def Obligations.HostRingsAdvanceAndResume : Prop :=
  ∀ (s : State) (r : Nat), r < 16 →
  (∀ v, WriteReaches s 0xB0 (0x104 + 16 * r) → s.rdA HIF.HST_USE 0 r < 4 → s.hif.piWaits = [] → v < 65536 →
    (v + 65536 - s.rdA HIF.HST_PI 0 r) % 65536 ≤ 512 → (v + 65536 - s.rdA HIF.HST_CI 0 r) % 65536 ≤ 512 →
    Completes (.hostRingPiWrite r v) s fun t => t.rdA HIF.HST_PI 0 r = v) ∧
  (∀ v, WriteReaches s 0xB0 (0x104 + 16 * r) → (s.rdA HIF.HST_USE 0 r = 4 ∨ s.rdA HIF.HST_USE 0 r = 5) →
    Completes (.hostRingPiWrite r v) s fun t => t.rdA HIF.HST_PI 0 r = s.rdA HIF.HST_PI 0 r ∧ t.rdI PG.ERR_CODE 0xB0 = 2) ∧
  (∀ e rest, s.awake = true → s.hif.waits[r]? = some (e :: rest) → s.hstCount r < 512 → Completes (.ringWriteResume (80 + r)) s fun t =>
    t.hif.waits[r]? = some rest ∧ t.rdA HIF.HST_PI 0 r = (s.rdA HIF.HST_PI 0 r + 1) % 65536 ∧
    t.bytesAt (hstSlot r (s.rdA HIF.HST_PI 0 r)) 64 = sliceBytes e 0 64)

/-- The DMA engines (R625 to R628, Table 18-3): an engine takes the oldest entry of its ring, advances CI, moves the bytes of the operation and keeps the
run until its completion, which frees the engine and counts a run that failed.
It says that these commands complete, each with the result its clause gives, under hypotheses on state and operands alone: dmaHostToSram, dmaSramToHost,
dmaNoTransfer, dmaComplete. -/
def Obligations.DmaEnginesTakeCommandsAndComplete : Prop :=
  ∀ (s : State) (d r : Nat) (e : Bytes), s.awake = true → d < 2 → r < 16 →
  s.hif.dma.length = 2 →
  (∀ data, s.dmaNext d = some (r, e) → leAt e 0 1 = 1 → s.dmaCheck e data = 0 → 0x500000 ≤ leAt e 16 4 →
    data.length = leAt e 4 4 → Completes (.dmaHostToSram d data []) s fun t =>
      t.bytesAt (leAt e 16 4) (leAt e 4 4) = data ∧ MemoryBut (leAt e 16 4) (leAt e 4 4) s t ∧
      t.rdA HIF.HST_CI 0 r = (s.rdA HIF.HST_CI 0 r + 1) % 65536 ∧ t.hif.dma[d]? = some (some ⟨e, 0, leAt e 4 4⟩)) ∧
  (s.dmaNext d = some (r, e) → leAt e 0 1 = 2 → s.dmaCheck e [] = 0 → Completes (.dmaSramToHost d (leAt e 4 4)) s fun t =>
    t.out.head? = some (.hostWrite (leAt e 8 8) (s.bytesRead (leAt e 16 4) (leAt e 4 4))) ∧ t.sram = s.sram ∧
    t.hif.dma[d]? = some (some ⟨e, 0, leAt e 4 4⟩)) ∧
  (s.dmaNext d = some (r, e) → leAt e 0 1 = 3 → Completes (.dmaNoTransfer d) s fun t =>
    t.sram = s.sram ∧ t.rdA HIF.HST_CI 0 r = (s.rdA HIF.HST_CI 0 r + 1) % 65536 ∧ t.hif.dma[d]? = some (some ⟨e, 0, 0⟩)) ∧
  (∀ st n, s.hif.dma[d]? = some (some ⟨e, st, n⟩) → Completes (.dmaComplete d) s fun t =>
    t.hif.dma[d]? = some none ∧ t.rdA HIF.DMA_BUSY 0 d = 0 ∧ (st ≠ 0 → Raised 0xB0 4 t) ∧
    t.rdA HIF.DMA_ERRORS 0 d = if st = 0 then s.rdA HIF.DMA_ERRORS 0 d else min (s.rdA HIF.DMA_ERRORS 0 d + 1) 0xFFFF)

/-- The PCIe endpoint (R623, R648): a link that comes up shows its speed and width, one that goes down resets the endpoint, and a reset clears the
link state, the rings' indices and the MSI-X table.
It says that these commands complete, each with the result its clause gives, under hypotheses on state and operands alone: pcieLinkChange, pcieReset. -/
def Obligations.PcieEndpointFollowsItsLink : Prop :=
  ∀ s : State, s.awake = true → s.isHub = true →
  (∀ speed width msix, speed < 4 → width < 8 → Completes (.pcieLinkChange true speed width msix) s fun t =>
    t.rd HIF.PCIE_LINK_UP = 1 ∧ t.rd HIF.PCIE_SPEED = speed ∧ t.rd HIF.PCIE_WIDTH = width ∧ Raised 0xB0 0 t) ∧
  (∀ speed width msix, Completes (.pcieLinkChange false speed width msix) s fun t =>
    t.rd HIF.PCIE_LINK_UP = 0 ∧ t.msix = [] ∧ Raised 0xB0 1 t ∧ Raised 0xB0 2 t) ∧
  Completes .pcieReset s fun t =>
    t.rd HIF.PCIE_LINK_UP = 0 ∧ t.msix = [] ∧ t.msixPending = 0 ∧ t.hif.piWaits = [] ∧ Raised 0xB0 2 t ∧
    ∀ r < 16, t.rdA HIF.HST_PI 0 r = 0 ∧ t.rdA HIF.HST_CI 0 r = 0

/-- The boot of a hub whose main PLL has locked (R591, R638, R639): BOOTSRC 1 waits for the host; a source that fails leaves its result and the boot goes on to the next; a source that is
applied leads to RUNNING with BOOT_DONE, and the end of the sources to FAILED with BOOT_FAIL; GO starts the host's envelope while the ROM waits for it and
is refused at other times.
It says that these commands complete, each with the result its clause gives, under hypotheses on state and operands alone: hubBoot, bootDone, bootGo. -/
def Obligations.HubBootTriesItsSources : Prop :=
  ∀ s : State, s.awake = true → s.isHub = true → s.arbiterRuns = true →
  (∀ a b, s.rd SYS.BOOT_STATE = 0 → s.rd SYS.STRAP_BOOTSRC = 1 → Completes (.hubBoot a b) s fun t => t.rd SYS.BOOT_STATE = 6) ∧
  (∀ a b, s.rd SYS.BOOT_STATE = 0 → s.rd SYS.STRAP_BOOTSRC = 0 → s.on SEC.STAT_ID_OK = false → Completes (.hubBoot a b) s fun t =>
    t.rd SYS.BOOT_RES_A = 0x22 ∧ t.rd SYS.BOOT_RES_B = 0x22 ∧ t.rd SYS.BOOT_STATE = 2 ∧ t.rd SYS.BOOT_SRC = 1) ∧
  (∀ a b, s.rd SYS.BOOT_STATE = 0 → s.rd SYS.STRAP_BOOTSRC = 0 → Completes (.hubBoot a b) s fun t =>
    ((s.bootSlot 0 a).rd SYS.BOOT_STATE = 3 → t.rd SYS.BOOT_STATE = 3 ∧ t.regs = (s.bootSlot 0 a).regs ∧ t.sram = (s.bootSlot 0 a).sram) ∧
    ((s.bootSlot 0 a).rd SYS.BOOT_STATE ≠ 3 → t.regs = ((s.bootSlot 0 a).bootSlot 1 b).regs ∧ t.sram = ((s.bootSlot 0 a).bootSlot 1 b).sram)) ∧
  (∀ a b, s.rd SYS.BOOT_STATE = 2 → s.rd SYS.BOOT_SRC = 2 → s.rd SYS.BOOT_RES_HOST = 0 → s.rd HIF.BOOT_LEN < 256 →
    Completes (.hubBoot a b) s fun t => t.rd SYS.BOOT_RES_HOST = 3 ∧ t.rd SYS.BOOT_STATE = 2) ∧
  (s.rd SYS.BOOT_STATE = 3 → Completes .bootDone s fun t => t.rd SYS.BOOT_STATE = 4 ∧ Raised 0x00 5 t) ∧
  (s.rd SYS.BOOT_STATE ≠ 3 → s.bootOver = true → Completes .bootDone s fun t => t.rd SYS.BOOT_STATE = 5 ∧ Raised 0x00 6 t) ∧
  (WriteReaches s 0xB0 0x044 → s.rd SYS.BOOT_STATE = 6 → Completes .bootGo s fun t => t.rd SYS.BOOT_STATE = 2 ∧ t.rd SYS.BOOT_SRC = 2) ∧
  (WriteReaches s 0xB0 0x044 → s.rd SYS.BOOT_STATE ≠ 6 → Completes .bootGo s fun t =>
    t.rd SYS.BOOT_STATE = s.rd SYS.BOOT_STATE ∧ t.rdI PG.ERR_CODE 0xB0 = 4 ∧ t.rdI PG.ERR_OFFSET 0xB0 = 0x044)

/-- The life of a cell (Table 5-1, R143, R187 to R192): the self-test leads to ROM_WAIT with the half bridge running and the link bypass closed, or to FAILED;
an image chunk is kept and begins LOADING, BOOT_END names the image, an image that passes its checks is applied and raises its event, one that fails them is rejected, RETRY begins again; the boot window and the
orphan timer end in a bypass order at their instants, which stops the half bridge.
It says that these commands complete, each with the result its clause gives, under hypotheses on state and operands alone: selftestDone, bootData, bootEnd,
imageVerifyDone, bootRetry, bootWindowExpiry, orphanTimeout, bptPulse. -/
def Obligations.CellLifeFollowsBootAndTimers : Prop :=
  ∀ s : State, s.awake = true → s.isCell = true →
  (∀ taps, s.life = 0 → Completes (.selftestDone ⟨true, taps⟩) s fun t =>
    t.life = 1 ∧ t.rd CEL.STAT_HB_RUN = 1 ∧ t.cell.lbp = true) ∧
  (∀ taps, s.life = 0 → Completes (.selftestDone ⟨false, taps⟩) s fun t => t.life = 7) ∧
  (∀ pass taps, s.life = 0 → 24 ≤ taps → taps ≤ 64 → Completes (.selftestDone ⟨pass, taps⟩) s fun t =>
    t.rd EDG.CAL_TAPS = taps ∧ t.rd EDG.CAL_CAL_OK = 1) ∧
  (∀ p, s.pens.find? (fun p => leAt p.data 0 1 == 0x10) = some p → p.tcrcOk = true → s.life = 1 ∨ s.life = 2 → Completes .bootData s fun t =>
    Sparse.get t.cell.chunks (leAt p.data 1 3) = some (sliceBytes p.data 4 (chunkSize (decide (p.data.length = 32)))) ∧
    (t.life = 2 ∨ t.life = 3) ∧ t.pens = s.pens.erase p) ∧
  (∀ p, s.pens.find? (fun p => leAt p.data 0 1 == 0x11) = some p → s.life = 1 ∨ s.life = 2 → Completes .bootEnd s fun t =>
    t.cell.bootEnd = some (leAt p.data 4 4, leAt p.data 8 4) ∧ t.pens = s.pens.erase p) ∧
  (s.life = 3 → s.cellImage.length < 256 → Completes .imageVerifyDone s fun t =>
    t.life = 5 ∧ t.cell.chunks = [] ∧ t.rd SEC.STAT_LAST_RES = 3 ∧ Raised 0x5A 1 t) ∧
  (s.life = 3 → 256 ≤ s.cellImage.length → Completes .imageVerifyDone s fun t => ∃ u st,
    (s.setLife 4).bootImage 2 0 0x200000 s.cell.verifyAt false (sliceBytes s.cellImage 0 256) (s.cellImage.drop 256)
      (some (s.cellImage.length - 256)) = (u, st) ∧
    (st = 0 → t.regs = (u.raise 0x5A 0).regs ∧ t.sram = u.sram ∧ Raised 0x5A 0 t) ∧
    (st ≠ 0 → t.life = 5 ∧ t.cell.chunks = [] ∧ Raised 0x5A 1 t)) ∧
  (s.life = 5 → s.cellKeyed = true → WriteReaches s 0x5A 0x06C → Completes .bootRetry s fun t => t.life = 1 ∧ t.cell.chunks = []) ∧
  (s.life ∈ [0, 1, 2, 3, 5] → Completes .bootWindowExpiry s fun t =>
    t.life = 6 ∧ t.rd CEL.STAT_BYPASS_ORDERED = 1 ∧ t.rd CEL.STAT_HB_RUN = 0 ∧ s.rd CEL.BOOT_WAIT_S * sec ≤ t.mer.uptime) ∧
  (∀ t0, s.cell.orphanAt = some t0 → s.life = 4 → (∀ side at_ data, .hoistPass side at_ data ∉ s.pending) → Completes .orphanTimeout s fun t =>
    t.life = 6 ∧ t.rd CEL.STAT_BYPASS_ORDERED = 1 ∧ t0 + s.rd CEL.ORPHAN_TMO_MS * ms ≤ t.mer.uptime ∧ Raised 0x5A 4 t) ∧
  (∀ t0, s.cell.bypassAt = some t0 → s.on CEL.HB_BPT_EN = true → s.cell.pulses * (50 * us) < s.rd CEL.HB_BPT_HOLD * ms → Completes .bptPulse s fun t =>
    t.out = .bptPulse (s.rd CEL.HB_BPT_W) :: s.out ∧ t.cell.pulses = s.cell.pulses + 1 ∧ t0 + s.cell.pulses * (50 * us) ≤ t.mer.uptime)

/-- The protection of a cell (R204, R205, R435): a sub-window mean above OV1's threshold shows and raises OV1, one below its hysteresis clears it; a run of
means above OV2's threshold orders the bypass; the temperature reported shows OT_WARN, and at OT_TRIP trips the channels until it has fallen by 10 °C.
It says that these commands complete, each with the result its clause gives, under hypotheses on state and operands alone: cniMonitorMean, ov2, otWarn,
otTrip. -/
def Obligations.CellProtectionReacts : Prop :=
  ∀ s : State, s.awake = true → s.isCell = true →
  (∀ mean m, s.rd CEL.OV1_THR < m → s.on CEL.STAT_OV1 = false → Completes (.cniMonitorMean mean (some m)) s fun t => t.rd CEL.STAT_OV1 = 1 ∧ Raised 0x5A 6 t) ∧
  (∀ mean m, m + s.rd CEL.OV1_HYST * 4096 < s.rd CEL.OV1_THR → Completes (.cniMonitorMean mean (some m)) s fun t => t.rd CEL.STAT_OV1 = 0) ∧
  (∀ mean sub, s.rd CEL.OV2_THR < mean → Completes (.cniMonitorMean mean sub) s fun t => t.cell.ov2Run = s.cell.ov2Run + 1) ∧
  (∀ mean sub, mean ≤ s.rd CEL.OV2_THR → Completes (.cniMonitorMean mean sub) s fun t => t.cell.ov2Run = 0) ∧
  (s.on CEL.STAT_OV2 = false → s.rd CEL.OV2_N ≤ s.cell.ov2Run → s.life < 6 → Completes .ov2 s fun t =>
    t.rd CEL.STAT_OV2 = 1 ∧ Raised 0x5A 7 t ∧ t.life = 6 ∧ t.rd CEL.STAT_HB_RUN = 0) ∧
  (∀ x : Int, -128 ≤ x → x < 128 → s.rdS CEL.TEMP_OT_WARN 0 ≤ x → s.on CEL.STAT_OT_WARN = false → Completes (.otWarn x) s fun t =>
    t.cell.temp = x ∧ t.rd CEL.STAT_OT_WARN = 1 ∧ Raised 0x5A 8 t) ∧
  (∀ x : Int, -128 ≤ x → x < 128 → s.rdS CEL.TEMP_OT_TRIP 0 ≤ x → s.on CEL.STAT_OT_TRIP = false → Completes (.otTrip x) s fun t =>
    t.cell.temp = x ∧ t.rd CEL.STAT_OT_TRIP = 1 ∧ Raised 0x5A 9 t ∧ t.edge.otTrip = true) ∧
  (∀ x : Int, -128 ≤ x → x < 128 → x ≤ s.rdS CEL.TEMP_OT_TRIP 0 - 10 → Completes (.otTrip x) s fun t =>
    t.cell.temp = x ∧ t.rd CEL.STAT_OT_TRIP = 0 ∧ t.edge.otTrip = false)

/-- Hoists, flags and boundaries of a cell (R41, R91, R106, R121 to R123): a hoist whose header fails is counted and sent on t_hop after it began to
arrive, one whose header passes restarts the orphan timer; the flag of the next stride is chosen at its deadline, and the boundary begins the next stride.
It says that these commands complete, each with the result its clause gives, under hypotheses on state and operands alone: hoistPass, flagDeadline,
cellBoundary. -/
def Obligations.CellFollowsHoistsAndBoundaries : Prop :=
  ∀ s : State, s.awake = true → s.isCell = true →
  (∀ side at_ data, side < 2 → s.life ≠ 0 → s.life ≠ 7 →
    headOk (s.legacySide side) (keyNamed s.cell.key s.cell.keyIdx s.cell.nextKey s.cell.nextIdx) s.mer.seq data = none →
    s.onI BNT.PORT_STAT_UNRELEASED side = false →
    Completes (.hoistPass side at_ data) s fun t => Raised (0x10 + side) 6 t ∧
      ∃ d, .hoist (1 - side) ((s.advanceTo at_).mer.mer + passTime (s.legacySide side)) d ∈ t.out) ∧
  (∀ side at_ data h, side < 2 → s.life ≠ 0 → s.life ≠ 7 →
    headOk (s.legacySide side) (keyNamed s.cell.key s.cell.keyIdx s.cell.nextKey s.cell.nextIdx) s.mer.seq data = some h →
    h.dir = side → s.onI BNT.PORT_STAT_UNRELEASED side = false → h.enum = false →
    Completes (.hoistPass side at_ data) s fun t =>
      t.cell.orphanAt = some t.mer.uptime ∧ t.cell.ring = h.ring ∧ t.rd CEL.STAT_ORPH_CNT = 0) ∧
  (∀ f alt, s.cell.dual = false → s.takeSplit.chooseSingle s.flagSeq = some (f, alt) → Completes .flagDeadline s fun t =>
    (∃ m, t.cell.sel.head? = some ⟨s.mer.lastS + s.strideT, if s.life = 4 then some f.cmd else none, m⟩) ∧
    (s.life = 4 → t.cell.obeyDir = f.dir ∧ t.rd BNC.CELL_DIR_ALT = ofBool alt)) ∧
  (∀ cni ovr below side junction cnf, Completes (.cellBoundary cni ovr below side junction cnf) s fun t =>
    t.mer.lastS = s.mer.lastS + s.strideT ∧ t.mer.seq = (s.mer.seq + 1) % 2 ^ 32 ∧ t.cell.hdrSeen = false ∧ t.cell.ul.length = 16)

/-- The stages of a hub's stride (R31 to R36, R39, R59, R61, R158, R170, R174): the boundary begins the next stride, a decided step moves the
Meridian, at the boundary where rings run, and its epoch; the sort stage runs the enabled groups and reports when it is done, the edge stage follows it
once, at the Chart deadline where a point is still missing, both within their bounds; the built hoist is marked, and a build
that fails its check is counted.
It says that these commands complete, each with the result its clause gives, under hypotheses on state and operands alone: strideBoundary, stepApply,
sortStageStart, sortStageDone, edgeStageStart, edgeStageDone, hoistBuildDone. -/
def Obligations.HubStrideRunsItsStages : Prop :=
  ∀ s : State, s.awake = true → s.isHub = true →
  (∀ cnf, Completes (.strideBoundary cnf) s fun t =>
    t.mer.lastS = s.mer.lastS + s.strideT ∧ t.mer.seq = (s.mer.seq + 1) % 2 ^ 32) ∧
  (∀ d, s.mer.stepDelta = some d → Completes .stepApply s fun t =>
    t.mer.mer = shiftTime d (if s.anyRing then s.advanceTo (s.mer.lastS + s.strideT) else s).mer.mer ∧ t.mer.stepDelta = none ∧ t.mer.stepFlag = true ∧ t.rd MER.STAT_STEP_PENDING = 0 ∧
    t.rd MER.STAT_EPOCH = (s.rd MER.STAT_EPOCH + 1) % 256) ∧
  (∀ g < 12, s.groups.length = 12 → s.on CTR.STAT_ACTIVE = true → s.ctr.sortStarted = false → Completes .sortStageStart s fun t =>
    t.ctr.sortStarted = true ∧ (t.group g).running = s.onI PG.ENABLE (0x49 + g) ∧ t.mer.mer = (s.advanceTo (s.mer.lastS + 100 * ns)).mer.mer) ∧
  (s.on CTR.STAT_ACTIVE = true → s.ctr.sortStarted = true → s.ctr.sorted = false → Completes .sortStageDone s fun t =>
    t.ctr.sorted = true ∧ t.rd CTR.STAGE_SORT_DONE = min s.sinceBoundary10 (10 + tSort s.nTotal)) ∧
  (s.on CTR.STAT_ACTIVE = true → s.ctr.sorted = true → s.ctr.edgeStarted = false → Completes .edgeStageStart s fun t =>
    t.ctr.edgeStarted = true ∧ t.mer.mer = (if s.refsWritten then s else s.advanceTo s.deadlineAt).mer.mer) ∧
  (s.ctr.edgeStarted = true → s.ctr.edgeDone = false → Completes .edgeStageDone s fun t =>
    t.ctr.edgeDone = true ∧
    t.rd CTR.STAGE_FLAGS_DONE = min s.sinceBoundary10 (satNat 16 ((s.ctr.edgeAt - s.mer.lastS) / (10 * ns) + 100)) ∧
    ∀ g < 12, (s.group g).running = true → (t.group g).strides = (s.group g).strides + 1) ∧
  (s.ctr.built = false → s.ctr.edgeDone = true ∨ s.ctr.sortStarted = false → Completes (.hoistBuildDone true) s fun t =>
    t.ctr.built = true ∧ Raised 0x00 4 t ∧ t.rd SYS.DIAG_BUILD_ERR = min (s.rd SYS.DIAG_BUILD_ERR + 1) 0xFF ∧ bitOf t.diagNow 5 = true) ∧
  (s.ctr.built = false → s.ctr.edgeDone = true ∨ s.ctr.sortStarted = false → Completes (.hoistBuildDone false) s fun t =>
    t.ctr.built = true ∧ t.regs = s.regs)

/-- Enabling the Contour engine and its groups, and a change of its timing (R38, R147, R185): both are refused with the event and BUDGET_REFUSED when the
budget does not fit, a group also, with events of their own, when its cells overlap another's or their count is out of range; disabling takes effect; APPLY marks the change pending.
It says that these commands complete, each with the result its clause gives, under hypotheses on state and operands alone: ctrEnable, ctgEnable, timingApply. -/
def Obligations.ContourIsEnabledWithinItsBudget : Prop :=
  ∀ s : State,
  (WriteReaches s 0x48 0x008 → s.onI PG.ENABLE 0x48 = false → budgetOk s.nTotal s.stride10 s.ctr.dl = false → Completes (.ctrEnable true) s fun t =>
    t.onI PG.ENABLE 0x48 = false ∧ t.rd CTR.STAT_BUDGET_REFUSED = 1 ∧ Raised 0x48 0 t) ∧
  (WriteReaches s 0x48 0x008 → s.onI PG.ENABLE 0x48 = false → budgetOk s.nTotal s.stride10 s.ctr.dl = true →
    (s.wrI PG.ENABLE 0x48 1).granted ≤ s.rd PWR.BUDGET → Completes (.ctrEnable true) s fun t =>
    t.onI PG.ENABLE 0x48 = true ∧ t.rd CTR.STAT_ACTIVE = 1 ∧ t.rd CTR.STAT_BUDGET_REFUSED = 0) ∧
  (WriteReaches s 0x48 0x008 → Completes (.ctrEnable false) s fun t => t.rdI PG.ENABLE 0x48 = 0 ∧ t.rd CTR.STAT_ACTIVE = 0) ∧
  (∀ g < 12, WriteReaches s (0x49 + g) 0x008 → s.onI PG.ENABLE (0x49 + g) = false → s.groupOverlap g = false →
    1 ≤ s.rdI CTG.CELLS_COUNT g → s.rdI CTG.CELLS_COUNT g ≤ 1024 →
    budgetOk (s.nTotal + s.rdI CTG.CELLS_COUNT g) s.stride10 s.ctr.dl = true → Completes (.ctgEnable g true) s fun t =>
    t.rdI PG.ENABLE (0x49 + g) = 1 ∧ t.bit CTR.GROUPS_ENABLED g = true) ∧
  (∀ g < 12, WriteReaches s (0x49 + g) 0x008 → s.onI PG.ENABLE (0x49 + g) = false → s.groupOverlap g = true → Completes (.ctgEnable g true) s fun t =>
    t.onI PG.ENABLE (0x49 + g) = false ∧ Raised 0x48 1 t) ∧
  (∀ g < 12, WriteReaches s (0x49 + g) 0x008 → s.onI PG.ENABLE (0x49 + g) = false → s.groupInvalid g = true → Completes (.ctgEnable g true) s fun t =>
    t.onI PG.ENABLE (0x49 + g) = false ∧ Raised 0x48 4 t) ∧
  (∀ g < 12, WriteReaches s (0x49 + g) 0x008 → s.onI PG.ENABLE (0x49 + g) = false → s.groupOverlap g = false → s.groupInvalid g = false →
    budgetOk (s.nTotal + s.rdI CTG.CELLS_COUNT g) s.stride10 s.ctr.dl = false → Completes (.ctgEnable g true) s fun t =>
      t.onI PG.ENABLE (0x49 + g) = false ∧ t.rd CTR.STAT_BUDGET_REFUSED = 1 ∧ Raised 0x48 0 t) ∧
  (∀ g < 12, WriteReaches s (0x49 + g) 0x008 → Completes (.ctgEnable g false) s fun t => t.rdI PG.ENABLE (0x49 + g) = 0) ∧
  (WriteReaches s 0x48 0x040 → Completes .timingApply s fun t => t.rd CTR.STAT_TIMING_PENDING = 1)

/-- What hubs do with the hoists of their rings (R35, R106, R121, R130, R136, R493, R503, R504): a hoist that returns is no longer outstanding, one whose header
fails is counted, the lease of the holder is seen in its headers, hoists whose time has passed are closed, and at the cutoff, which comes once a stride, a cell from which nothing
has landed goes silent and the twin's late rings are told.
It says that these commands complete, each with the result its clause gives, under hypotheses on state and operands alone: hoistTrailerReceived,
hubHeaderCheck, hoistExpire, cellTableCutoff. -/
def Obligations.HoistsReturnOrExpire : Prop :=
  ∀ s : State, s.awake = true → s.isHub = true →
  (∀ port at_ data r leave, s.portRing port = some (r, leave) → s.ringSt r ≠ 0 → s.ringSt r ≠ 7 →
    headOk (s.legacyRing r) (s.ring r).keyOf s.mer.seq data = none → Completes (.hoistTrailerReceived port at_ data) s fun t => Raised (0x10 + port) 6 t) ∧
  (∀ port at_ data r leave h, s.portRing port = some (r, leave) → s.ringSt r ≠ 0 → s.ringSt r ≠ 7 →
    headOk (s.legacyRing r) (s.ring r).keyOf s.mer.seq data = some h → h.enum = false → Completes (.hoistTrailerReceived port at_ data) s fun t =>
      ∀ o ∈ (t.ring r).outs, ¬ (o.seq = h.seq ∧ o.dir = h.dir)) ∧
  (∀ port at_ head r leave, s.portRing port = some (r, leave) → s.paired = true → s.topo r = 2 → s.clr = 3 →
    sameCycle cyc400 at_ s.mer.lastS = false → Completes (.hubHeaderCheck port at_ head) s fun t =>
      ∀ h, headOk (s.legacyRing r) (s.ring r).keyOf s.mer.seq head = some h → h.unit ≠ s.unit → h.term ≠ 0 → h.term = s.rd CLR.STAT_TERM →
        h.unit = s.rd CLR.STAT_HOLDER → t.pair.leaseSeen = true) ∧
  (∀ r, Completes (.hoistExpire r) s fun t =>
    (t.ring r).outs = (s.ring r).outs.filter fun o => decide (s.mer.mer < o.launch + (s.ctr.la + 1) * s.strideT)) ∧
  (∀ mask, s.ctr.cut = false → Completes (.cellTableCutoff mask) s fun t =>
    t.ctr.cut = true ∧ t.mer.mer = (s.advanceTo (cycleEnd cyc400 s.cutoffAt)).mer.mer) ∧
  (∀ mask, s.ctr.cut = false → s.paired = true → Completes (.cellTableCutoff mask) s fun t => t.pair.lateSent = true ∧ t.pair.late = 0) ∧
  (∀ mask r, r < 48 → s.ctr.cut = false → (∀ q < 48, s.launches q = true → q = r) → s.launches r = true → s.inService r = true → s.ringN r = 1 → bitOf mask r = false →
    s.ringRetrains r = false → (s.cellAux (s.entryOf r 1)).fresh = false → (s.cellAux (s.entryOf r 1)).silent = false →
    max 1 (s.rd BNC.CTL_SILENT_N) ≤ (s.cellAux (s.entryOf r 1)).silentCnt + 1 → Completes (.cellTableCutoff mask) s fun t =>
      (t.cellAux (s.entryOf r 1)).silent = true ∧ Raised 0x40 3 t)

/-- The link layer of a port (R93, R126, R128, R129, R132): a loss of block lock starts a retrain and leaves the hop unreleased, lock regained ends
it and shows the neighbour, a spent budget takes the hop down; the twin lane's lock is shown in TWN_STAT.
It says that these commands complete, each with the result its clause gives, under hypotheses on state and operands alone: blockLockLoss, retrainOk, hopDown. -/
def Obligations.PortsRetrainAndRecover : Prop :=
  ∀ s : State, s.awake = true → s.trains = true →
  (∀ port < 48, Completes (.blockLockLoss port) s fun t => t.rdI BNT.PORT_STAT_BLOCK_LOCK port = 0 ∧ t.rdI BNT.PORT_STAT_RETRAINING port = 1 ∧
    t.rdI BNT.PORT_STAT_UNRELEASED port = 1 ∧ Raised (0x10 + port) 0 t) ∧
  (∀ l < 2, Completes (.blockLockLoss (48 + l)) s fun t => t.bit TWN.STAT_LANE_LOCK l = false ∧ Raised 0x41 3 t) ∧
  (∀ port < 48, ∀ n, s.onI BNT.PORT_STAT_RETRAINING port = true → Completes (.retrainOk port n) s fun t =>
    t.rdI BNT.PORT_STAT_BLOCK_LOCK port = 1 ∧ t.rdI BNT.PORT_STAT_RETRAINING port = 0 ∧ t.rdI BNT.PORT_STAT_NEIGHBOUR_ID port = n % 2 ^ 16 ∧
    t.rdI BNT.PORT_STAT_UNRELEASED port = s.rdI BNT.PORT_STAT_UNRELEASED port ∧ Raised (0x10 + port) 1 t) ∧
  (∀ l < 2, ∀ n, Completes (.retrainOk (48 + l) n) s fun t => t.bit TWN.STAT_LANE_LOCK l = true) ∧
  (∀ port < 48, s.onI BNT.PORT_STAT_RETRAINING port = true → s.onI BNT.PORT_STAT_HOP_DOWN port = false →
    s.rdI BNT.RETRAIN_BUDGET port ≤ s.rdI BNT.PORT_STAT_RETRAIN_CNT port → Completes (.hopDown port) s fun t =>
      t.rdI BNT.PORT_STAT_HOP_DOWN port = 1 ∧ Raised (0x10 + port) 2 t)

/-- Rings and trunks are brought up and taken down (R79, R118, R136 to R138, R143, R675): a ring whose ports disagree with its topology is refused, one with
every hop trained sends its ENUM hoist and takes the count found, unless it is more than the ring may have; DOWN ends it, a split due is requested as a
broadcast; the boot stream starts at once and stops after the current chunk; a branch whose trunk is too long stays out of service, a trunk hoist is sent
on downstream and its records land. That two rings' shared port and a count beyond the Cell table refuse a ring is the model's choice (assumption 159).
It says that these commands complete, each with the result its clause gives, under hypotheses on state and operands alone: ringBringup, ringTakeDown,
splitBroadcast, bootStreamStart, bootStreamStop, trunkBringup, trunkHoistReceived. -/
def Obligations.RingsComeUpAndGoDown : Prop :=
  ∀ s : State,
  (∀ r n marks fwd rev e, r < 48 → WriteReaches s 0x40 (0x100 + 16 * r) → s.topo r ≠ 0 → (s.ends r).find? (fun e => !s.useAgrees r e.2) = some e →
    Completes (.ringBringup r true n marks fwd rev) s fun t => t.ringSt r = 7 ∧ t.rdI PG.ERR_CODE (0x10 + e.2) = 4) ∧
  (∀ r n marks fwd rev, r < 48 → WriteReaches s 0x40 (0x100 + 16 * r) → s.topo r ≠ 0 → (s.ends r).all (fun e => s.useAgrees r e.2) = true →
    (s.ends r).all (fun e => s.onI BNT.PORT_CTL_EN e.2) = true → s.sharesPort r = false → s.westHere r = true →
    Completes (.ringBringup r true n marks fwd rev) s fun t =>
      (∃ at_ d, .hoist (s.homePort r) at_ d ∈ t.out) ∧ if n ≤ s.ringRoom r then t.rdA BNC.RING_TBL_N 0 r = n else t.ringSt r = 7) ∧
  (∀ r, r < 48 → WriteReaches s 0x40 (0x100 + 16 * r) → Completes (.ringTakeDown r) s fun t =>
    t.ringSt r = 0 ∧ t.ring r = emptyRing ∧ (s.inService r = true → Raised 0x40 1 t)) ∧
  (∀ r x, s.awake = true → (s.ring r).splitDue = true → s.portRing (s.homePort r) = some x → (s.port (s.homePort r)).entries.length < 128 →
    (s.port (s.homePort r)).held = [] → Completes (.splitBroadcast r) s fun t =>
      (t.ring r).splitDue = false ∧ ∃ c, (t.port (s.homePort r)).entries = (s.port (s.homePort r)).entries ++
        [.request ⟨2, 0, leBytes 1 0x40 ++ leBytes 2 0x084 ++ leBytes 1 1 ++ leBytes 4 (s.rdA BNC.RING_TBL_PRIMARY_SPLIT 0 r)⟩ c]) ∧
  (WriteReaches s 0x40 0x078 → Completes .bootStreamStart s fun t => t.rd BNC.BOOT_CTL_ACTIVE = 1 ∧ t.bootStop = false) ∧
  (WriteReaches s 0x40 0x078 → s.on BNC.BOOT_CTL_ACTIVE = true → Completes .bootStreamStop s fun t => t.bootStop = true) ∧
  (s.awake = true → s.isBranch = true → ∀ hops n b path, path = sumNat (hopDelays (hops.map hopTwice) 0) + (hops.length - 1) * 28 * ns →
    Completes (.trunkBringup hops n b) s fun t => t.trunk.delay = path ∧
      if 5 * path + 128 * ns + n * 64 * ns ≤ 250 * ns + 5 * s.ctr.dl * s.strideT / 100 then t.trunk.service = true
      else t.trunk.service = false ∧ Raised 0x40 8 t) ∧
  (s.awake = true → s.isHub = true → s.isBranch = false → ∀ hops n b, Completes (.trunkBringup hops n b) s fun t =>
    t.trunk.branches = b ∧ t.trunk.service = true) ∧
  (s.awake = true → s.isHub = true → ∀ port at_ data, (s.isBranch = false ∨ s.upPort ≠ some port) → port ∈ s.downPorts →
    s.trunk.service = true → Completes (.trunkHoistReceived port at_ data) s fun t => ∀ h, ((s.advanceTo at_).trunkChecked port data).2 = some (h, true) →
      t.trunk.landed = s.trunk.landed ++ (trunkRecs h.count data).map fun x => ((s.advanceTo at_).mer.mer, x)) ∧
  (s.awake = true → s.isHub = true → s.isBranch = true → ∀ port at_ data, s.upPort = some port → Completes (.trunkHoistReceived port at_ data) s fun t =>
      ∀ p ∈ s.downPorts, .hoist p ((s.advanceTo at_).mer.mer + tHop false * ns) data ∈ t.out)

/-- Requests and transactions of a hub (R28, R114 to R116): a request that its ring can carry enters its port's ring, counted where it waits for a
transaction number; in a full ring it waits; a response, or the timeout where none has landed, ends the transaction with an entry in the port ring.
It says that these commands complete, each with the result its clause gives, under hypotheses on state and operands alone: penRequestLaunch, regRsp, penTmo. -/
def Obligations.PennantRequestsEndWithTheirTransactions : Prop :=
  ∀ s : State, s.awake = true → s.isHub = true →
  (∀ port typ target payload r d, s.portRing port = some (r, d) → s.penTooLong r ⟨typ, target, payload⟩ = false →
    (s.port port).entries.length < 128 → (s.port port).held = [] → Completes (.penRequestLaunch port typ target payload) s fun t =>
      (t.port port).entries = (s.port port).entries ++ [.request ⟨typ, target, payload⟩ (s.penBlocked r ⟨typ, target, payload⟩)] ∧
      (s.penBlocked r ⟨typ, target, payload⟩ = false → t.regs = s.regs)) ∧
  (∀ port typ target payload r d, s.portRing port = some (r, d) → s.penTooLong r ⟨typ, target, payload⟩ = false →
    128 ≤ (s.port port).entries.length → Completes (.penRequestLaunch port typ target payload) s fun t =>
      (t.port port).entries = (s.port port).entries ∧ (t.port port).full = (s.port port).full + 1 ∧
      (t.port port).held = (s.port port).held ++ [.request ⟨typ, target, payload⟩ (s.penBlocked r ⟨typ, target, payload⟩)]) ∧
  (∀ p r d x, s.pens.find? (fun p => p.isType 3) = some p → s.portRing p.port = some (r, d) → s.topo r ≠ 2 →
    s.txns.find? (fun x => x.ring == r && x.target == leAt p.data 2 2 && x.txn == leAt p.data 1 1 % 8) = some x →
    (s.port x.port).entries.length < 128 → (s.port x.port).held = [] → Completes .regRsp s fun t =>
      (t.port x.port).entries = (s.port x.port).entries ++ [.done (leAt p.data 1 1 % 8) (leAt p.data 2 2) (leAt p.data 4 1) (sliceBytes p.data 8 (4 * min 12 (leAt p.data 7 1)))] ∧
      t.pens = s.pens.erase p) ∧
  (∀ ring target n x, s.txns.find? (fun x => x.ring == ring && x.target == target && x.txn == n) = some x → s.rspHeld x = false →
    s.rd BNC.CTL_PEN_TMO ≤ (s.mer.seq + 2 ^ 32 - x.seq) % 2 ^ 32 → (s.port x.port).entries.length < 128 → (s.port x.port).held = [] →
    Completes (.penTmo ring target n) s fun t =>
      (t.port x.port).entries = (s.port x.port).entries ++ [.timeout n target] ∧ Raised 0x40 6 t ∧ x ∉ t.txns)

/-- The pennants that act on a cell or between the hubs of a pair (R112, R113, R118, R131, R132, R513, R674): each takes the held pennant of its type and has
its effect; a hub without one sends HOP_RELEASE on every end of the ring, LINK_BYPASS on its home port.
It says that these commands complete, each with the result its clause gives, under hypotheses on state and operands alone: empty, latAdj, hopRelease,
linkBypass, enum, digest. -/
def Obligations.PennantsHaveTheirEffect : Prop :=
  ∀ (s : State) (p : HeldPen), s.awake = true →
  (s.pens.find? (fun p => p.isType 0) = some p → Completes .empty s fun t => t.pens = s.pens.erase p ∧ t.regs = s.regs) ∧
  (s.pens.find? (fun p => p.isType 0x30) = some p → leAt p.data 6 1 = 0 → leAt p.data 4 2 ≤ s.rd BNC.CELL_INDEX → ∀ ring cell marks, Completes (.latAdj ring cell marks) s fun t =>
    t.rd MER.LAT_W_LAT = ((s.rd MER.LAT_W_LAT : Int) + sext 32 (leAt p.data 8 4)).toNat % 2 ^ 32 ∧ t.rd MER.LAT_E_LAT = s.rd MER.LAT_E_LAT) ∧
  (s.pens.find? (fun p => p.isType 0x31) = some p → s.rd BNC.CELL_INDEX + 1 = leAt p.data 4 2 → ∀ a b, Completes (.hopRelease a b) s fun t =>
    t.rdI BNT.PORT_STAT_UNRELEASED 1 = 0 ∧ t.rdI BNT.PORT_STAT_WRAPPED 1 = 0) ∧
  (s.pens.find? (fun p => p.isType 0x31) = some p → s.rd BNC.CELL_INDEX = leAt p.data 4 2 → ∀ a b, Completes (.hopRelease a b) s fun t =>
    t.rdI BNT.PORT_STAT_UNRELEASED 0 = 0 ∧ t.rdI BNT.PORT_STAT_WRAPPED 0 = 0) ∧
  (∀ r hop, s.pens.find? (fun p => p.isType 0x31) = none → s.isHub = true → ((s.ends r).map (·.2)).Nodup → Completes (.hopRelease r hop) s fun t =>
    ∀ e ∈ s.ends r, r < 48 → (s.port e.2).entries.length < 128 → (s.port e.2).held = [] →
      (t.port e.2).entries = (s.port e.2).entries ++ [.request (hopReleaseReq hop) false]) ∧
  (s.pens.find? (fun p => p.isType 0x32) = some p → ∀ a b, Completes (.linkBypass a b) s fun t => t.cell.lbp = false) ∧
  (∀ r cell x, s.pens.find? (fun p => p.isType 0x32) = none → s.isHub = true → s.portRing (s.homePort r) = some x →
    (s.port (s.homePort r)).entries.length < 128 → (s.port (s.homePort r)).held = [] → Completes (.linkBypass r cell) s fun t =>
      (t.port (s.homePort r)).entries = (s.port (s.homePort r)).entries ++ [.request ⟨0x32, cell, []⟩ false]) ∧
  (s.pens.find? (fun p => p.isType 0x38) = some p → leAt p.data 4 2 < 256 → Completes .enum s fun t => t.rd BNC.CELL_INDEX = leAt p.data 4 2 + 1) ∧
  (∀ o, s.pens.find? (fun p => p.isType 0x40) = some p → s.pair.owns.find? (fun o => o.seq == leAt p.data 4 4) = some o → o.inDig ≠ leAt p.data 12 4 →
    Completes .digest s fun t => t.rd CLR.CNT3_DIGEST_DIFF = min (s.rd CLR.CNT3_DIGEST_DIFF + 1) (2 ^ CLR.CNT3_DIGEST_DIFF.width - 1) ∧
      Raised 0x90 10 t)

/-- The messages of key agreement (R567, R571, R572): the hub sends its credentials in nine fragments and a cell keeps each; the cell answers with five and
the hub keeps each; the wrapped key is sent until it is acknowledged and opens to the next ring key or is refused; the cell acknowledges it; the hub notes
the right acknowledgement and refuses one of index 0.
It says that these commands complete, each with the result its clause gives, under hypotheses on state and operands alone: hubCred, cellCred, keyWrap, keyAck. -/
def Obligations.KeyMessagesCarryTheRingKey : Prop :=
  ∀ s : State, s.awake = true →
  (∀ p r, s.pens.find? (fun p => p.isKey 1) = some p → s.keyCell = true → Completes (.hubCred r) s fun t =>
    Sparse.get t.cell.hubCred (leAt p.data 6 2) = some (sliceBytes p.data 8 48) ∧ t.cell.keyUnit = p.unit) ∧
  (∀ r x, s.pens.find? (fun p => p.isKey 1) = none → s.isHub = true → (s.ring r).eph ≠ [] → s.ringSt r = 3 → r < 48 → s.portRing (s.homePort r) = some x →
    (s.port (s.homePort r)).held = [] → (s.port (s.homePort r)).entries.length ≤ 119 → Completes (.hubCred r) s fun t =>
      (t.port (s.homePort r)).entries = (s.port (s.homePort r)).entries
        ++ (List.range 9).map fun i => .request ⟨0x20, 0, keyPayload 1 (s.ring r).nextIdx i (s.hubCred r)⟩ false) ∧
  (∀ p r, s.pens.find? (fun p => p.isKey 2) = some p → Completes (.cellCred r) s fun t =>
    ∃ l, Sparse.get (t.ring r).creds (leAt p.data 2 2) = some l ∧ Sparse.get l (leAt p.data 6 2) = some (sliceBytes p.data 8 48)) ∧
  (∀ i r, s.pens.find? (fun p => p.isKey 2) = none → s.isCell = true → s.cell.credDue = some i → Completes (.cellCred r) s fun t =>
    t.cell.resp.length = s.cell.resp.length + 5 ∧ t.cell.credDue = none) ∧
  (∀ p r c, s.pens.find? (fun p => p.isKey 3) = some p → s.keyCell = true → s.on SEC.STAT_DBG_OPEN = false → leAt p.data 5 1 ≠ s.cell.keyIdx →
    Completes (.keyWrap r c) s fun t =>
      (∀ k, Config.gcmOpen s.cell.pair (wrapIv (leAt p.data 5 1)) [] (sliceBytes p.data 8 48) = some k →
        t.cell.nextKey = k ∧ t.cell.nextIdx = leAt p.data 5 1 ∧ t.cell.ackDue = some (leAt p.data 5 1)) ∧
      (Config.gcmOpen s.cell.pair (wrapIv (leAt p.data 5 1)) [] (sliceBytes p.data 8 48) = none → Raised 0xA0 2 t)) ∧
  (∀ r c k x, s.pens.find? (fun p => p.isKey 3) = none → s.isHub = true → s.on SEC.STAT_DBG_OPEN = false → r < 48 → Sparse.get (s.ring r).pairs c = some k →
    c ∈ (s.ring r).wrapDue → s.portRing (s.homePort r) = some x → (s.port (s.homePort r)).held = [] →
    (s.port (s.homePort r)).entries.length < 128 → Completes (.keyWrap r c) s fun t => t.rings = s.rings ∧
      ((s.ring r).nextIdx ≠ 0 → (t.port (s.homePort r)).entries = (s.port (s.homePort r)).entries
        ++ [.request ⟨0x20, c, keyPayload 3 (s.ring r).nextIdx 0 (Config.gcmSeal k (wrapIv (s.ring r).nextIdx) [] (s.ring r).nextKey)⟩ false]) ∧
      ((s.ring r).nextIdx = 0 → (t.port (s.homePort r)).entries = (s.port (s.homePort r)).entries
        ++ [.request ⟨0x20, c, keyPayload 3 (s.ring r).keyIdx 0 (Config.gcmSeal k (wrapIv (s.ring r).keyIdx) [] (s.ring r).key)⟩ false])) ∧
  (∀ p r, s.pens.find? (fun p => p.isKey 4) = some p → leAt p.data 5 1 = 0 → Completes (.keyAck r) s fun t => Raised 0xA0 2 t ∧ t.pens = s.pens.erase p) ∧
  (∀ p r, s.pens.find? (fun p => p.isKey 4) = some p → leAt p.data 5 1 = (s.ring r).nextIdx → (s.ring r).nextIdx ≠ 0 →
    Completes (.keyAck r) s fun t => t.pens = s.pens.erase p ∧ (sliceBytes p.data 8 4 = ackOf (s.ring r).nextKey →
      leAt p.data 2 2 ∈ (t.ring r).acked ∧ (t.ring r).wrapDue = (s.ring r).wrapDue.erase (leAt p.data 2 2))) ∧
  (∀ i r, s.pens.find? (fun p => p.isKey 4) = none → s.isCell = true → s.cell.ackDue = some i → Completes (.keyAck r) s fun t =>
    t.cell.ackDue = none ∧ t.cell.resp.length = s.cell.resp.length + 1)

/-- Rekeying, suspects and the island's operations (R553, R571, R572, R574): REKEY_NOW and a key that has served long enough start a rekey with the next index,
a key at 2³¹ strides is switched anyway (a dual-ended ring's by the hub at its west end), CLR takes a cell's mark off, and the operation at the head of the queue completes.
It says that these commands complete, each with the result its clause gives, under hypotheses on state and operands alone: rekeyNow, rekeyStart, keyExpired,
suspectClr, keyAgreeOperationDone. -/
def Obligations.RingKeysAreRenewed : Prop :=
  ∀ s : State,
  (∀ r < 48, WriteReaches s 0xA0 0x048 → s.keyedByPeer r = false → (s.ring r).rekeying = false → (s.ring r).keyIdx ≠ 0 → s.security.entropyBad = false →
    Completes (.rekeyNow r) s fun t => (t.ring r).nextIdx = nextKeyIdx (s.ring r).keyIdx ∧ (t.ring r).keyIdx = (s.ring r).keyIdx) ∧
  (∀ r < 48, WriteReaches s 0xA0 0x048 → s.keyedByPeer r = false → (s.ring r).rekeying = true → Completes (.rekeyNow r) s fun t => t.rdI PG.ERR_CODE 0xA0 = 4 ∧ t.rings = s.rings) ∧
  (∀ r, s.awake = true → s.keyedByPeer r = false → (s.ring r).keyIdx ≠ 0 → (s.ring r).rekeying = false → 2 ^ s.rd SEC.RING_REKEY_LOG ≤ (s.ring r).served →
    s.security.entropyBad = false → Completes (.rekeyStart r) s fun t => (t.ring r).nextIdx = nextKeyIdx (s.ring r).keyIdx) ∧
  (∀ r, s.awake = true → (s.ring r).keyIdx ≠ 0 → 2 ^ 31 ≤ (s.ring r).served → (s.ring r).rekeying = true ∨ s.keyedByPeer r = false → Completes (.keyExpired r) s fun t => Raised 0xA0 3 t ∧ Raised 0xA0 5 t) ∧
  (∀ e < 8192, WriteReaches s 0xA0 0x04C → s.atCutoff = false ∨ (s.cellAux e).utagLast = false → Completes (.suspectClr e) s fun t =>
    (t.cellAux e).suspect = false ∧ (t.cellAux e).utagFails = 0 ∧ t.rd SEC.SUSPECT_MARK = 0) ∧
  (∀ op asked rest, s.awake = true → s.security.ops = (op, asked) :: rest → Completes .keyAgreeOperationDone s fun t => t.security.ops = rest) ∧
  (∀ r asked rest, s.awake = true → s.security.ops = (.hubStart r, asked) :: rest → s.on SEC.STAT_DBG_OPEN = false → s.security.entropyBad = false →
    Completes .keyAgreeOperationDone s fun t => (t.ring r).nextIdx = nextKeyIdx (s.ring r).keyIdx)

/-- The Ethernet ports of a hub (R669 to R671): frames with a bad FCS, too long, claimed and unclaimed are counted as such, the next frame of the queue leaves
with its transmit timestamp, which a Pdelay_Resp carries, and the link's state is shown with its events.
It says that these commands complete, each with the result its clause gives, under hypotheses on state and operands alone: ethFrameRx, ethTx, ethLinkChange. -/
def Obligations.EthernetPortsReceiveAndSend : Prop :=
  ∀ (s : State) (port : Nat), s.awake = true → s.isHub = true → port < 4 →
  (s.onI PG.ENABLE (0xA8 + port) = true → s.pageActive (0xA8 + port) = true → ∀ at_,
    Completes (.ethFrameRx port at_ .badFcs) s (fun t =>
      t.rdI ETH.CNT2_CRC_ERR port = min (s.rdI ETH.CNT2_CRC_ERR port + 1) 0xFF ∧ Raised (0xA8 + port) 2 t) ∧
    Completes (.ethFrameRx port at_ .tooLong) s (fun t => t.rdI ETH.CNT2_OVERSIZE port = min (s.rdI ETH.CNT2_OVERSIZE port + 1) 0xFF) ∧
    (∀ data, data.length ≤ 1518 → (s.advanceTo at_).etherTake port (s.rxStamp port at_) (.raw data) = none → Completes (.ethFrameRx port at_ (.raw data)) s fun t =>
      t.rdI ETH.CNT2_UNCLAIMED port = min (s.rdI ETH.CNT2_UNCLAIMED port + 1) 0xFF) ∧
    (∀ f u, f ≠ .badFcs → frameLong f = false → (s.advanceTo at_).etherTake port (s.rxStamp port at_) f = some u → Completes (.ethFrameRx port at_ f) s fun t =>
      t.rdI ETH.CNT_RX_FRAMES port = min (u.rdI ETH.CNT_RX_FRAMES port + 1) 0xFFFF)) ∧
  (∀ f, nextFrame s.txq port = some f → f.resp = none → Completes (.ethTx port) s fun t =>
    t.out = .frame port f.engine ((s.advanceUp (s.txBusy.getD port 0)).txStamp port) f.data :: s.out ∧ t.txq = s.txq.erase f) ∧
  (∀ f r, nextFrame s.txq port = some f → f.resp = some r → r.twoStep = false → ∀ tx, (s.advanceUp (s.txBusy.getD port 0)).txStamp port = tx →
    Completes (.ethTx port) s fun t => t.out = .frame port f.engine tx (s.ptpTagged r.engine (Config.pdelayResp false f.port r.engine r.seq
      (r.rx - s.rxCorr r.engine) (tx + s.txCorr r.engine))) :: s.out ∧ t.txq = s.txq.erase f) ∧
  (∀ up an rf a b, Completes (.ethLinkChange port up an rf a b) s fun t =>
    t.rdI ETH.STAT_LINK port = ofBool up ∧ t.rdI ETH.STAT_AN_DONE port = ofBool an ∧
    (up = true → s.onI ETH.STAT_LINK port = false → Raised (0xA8 + port) 0 t) ∧ (up = false → s.onI ETH.STAT_LINK port = true → Raised (0xA8 + port) 1 t))

/-- The edge scheduler of a cell (R222, R224, R225, R235, R239, R244 to R251): the delay line's calibration is taken or counted as failed, a trip input at its selected level is shown and
turns off the channels of its mask, a clear acts on channels whose trip has ended, EDG_MAP and EDG_OVR change while both legs are idle, the carrier goes on period by period and takes the
period and the duty that wait, an event channel fires and re-arms, and a channel's action due is performed: off, or on where nothing bars it.
It says that these commands complete, each with the result its clause gives, under hypotheses on state and operands alone: delayLineCal, tripActive,
tripClear, edgMapWrite, lcPeriodBoundary, commit, tevFire, edgeAction. -/
def Obligations.EdgeSchedulerActs : Prop :=
  ∀ s : State, s.isCell = true →
  (∀ taps, s.awake = true → 24 ≤ taps → taps ≤ 64 → Completes (.delayLineCal taps) s fun t =>
    t.rd EDG.CAL_TAPS = taps ∧ t.rd EDG.CAL_CAL_OK = 1 ∧ t.rd EDG.CAL_CAL_FAULT = 0 ∧ t.rd EDG.CAL_FAIL_CNT = 0) ∧
  (∀ taps, s.awake = true → taps < 24 ∨ 64 < taps → Completes (.delayLineCal taps) s fun t =>
    t.rd EDG.CAL_TAPS = s.rd EDG.CAL_TAPS ∧ t.rd EDG.CAL_CAL_FAULT = 1 ∧ Raised 0x58 6 t) ∧
  (∀ n < 4, ∀ level since, s.awake = true → s.tripLevel n level = true → s.bit EDG.TRIP_STAT_IN n = false → Completes (.tripActive n ⟨level, since⟩) s fun t =>
    t.bit EDG.TRIP_STAT_IN n = true ∧ Raised 0x58 0 t ∧
    (∀ c < 4, s.edge.chans.length = 4 → bitOf (s.tripMaskOf n) c = true → (s.chan c).on = true → (t.chan c).on = false)) ∧
  (∀ n < 4, ∀ level since, s.awake = true → s.tripLevel n level = false → Completes (.tripActive n ⟨level, since⟩) s fun t => t.bit EDG.TRIP_STAT_IN n = false) ∧
  (∀ c < 4, WriteReaches s 0x58 0x064 → s.tripOn c = false → s.tripSoon c s.mer.mer = false → Completes (.tripClear (2 ^ c)) s fun t =>
    t.tripCnt c = 0 ∧ t.bit EDG.TRIP_STAT_SUPP_PEND c = false) ∧
  (∀ c < 4, WriteReaches s 0x58 0x064 → s.tripOn c = true ∨ s.tripSoon c s.mer.mer = true → Completes (.tripClear (2 ^ c)) s fun t => t.tripCnt c = s.tripCnt c ∧ Raised 0x58 2 t) ∧
  (∀ v, WriteReaches s 0x58 0x054 → s.legIdle 0 = true → s.legIdle 1 = true → Completes (.edgMapWrite false v) s fun t =>
    t.rd EDG.MAP_SWAP0 = v % 2 ∧ t.rd EDG.MAP_SWAP1 = v / 2 % 2) ∧
  (∀ v, WriteReaches s 0x58 0x058 → s.legIdle 0 = false → s.legIdle 1 = false → Completes (.edgMapWrite true v) s fun t =>
    t.rd EDG.OVR = s.rd EDG.OVR ∧ t.rdI PG.ERR_CODE 0x58 = 4) ∧
  (∀ e, s.awake = true → s.edge.lcAt = some e → (∀ b, s.lcCut = some b → e < b) → Completes .lcPeriodBoundary s fun t =>
    t.edge.lcPer = s.edge.lcPerNext.getD s.edge.lcPer ∧ t.edge.lcDuty = s.edge.lcDutyNext.getD s.edge.lcDuty ∧ t.edge.lcPerNext = none ∧
    t.edge.lcDutyNext = none ∧ t.rd EDG.STAT_COMMIT_PEND = 0 ∧ t.edge.lcAt = some (e + t.edge.lcPer * (10 * ns))) ∧
  (WriteReaches s 0x58 0x07C → s.on EDG.LC_CTL_PAIRED = true → (∀ e, s.edge.lcLast = some e → sameCycle cyc500 e s.mer.mer = false) →
    Completes .commit s fun t => t.rd EDG.STAT_COMMIT_PEND = 1 ∧ t.edge.lcPerNext = some (s.rd EDG.LC_PER) ∧
      t.edge.lcDutyNext = some (s.rd EDG.LC_DUTY)) ∧
  (∀ e, WriteReaches s 0x58 0x07C → s.on EDG.LC_CTL_PAIRED = true → s.edge.lcLast = some e → sameCycle cyc500 e s.mer.mer = true →
    Completes .commit s fun t => t.rd EDG.STAT_COMMIT_PEND = 0 ∧ t.edge.lcPer = s.rd EDG.LC_PER ∧ t.edge.lcDuty = s.rd EDG.LC_DUTY) ∧
  (∀ e < 4, s.awake = true → s.onA EDG.TEV_ARM 0 e = true → s.rdA EDG.TEV_PERIOD 0 e = 0 → Completes (.tevFire e) s fun t =>
    t.rdA EDG.TEV_ARM 0 e = 0 ∧ Raised 0x58 (8 + e) t) ∧
  (∀ e < 4, s.awake = true → s.onA EDG.TEV_ARM 0 e = true → s.rdA EDG.TEV_PERIOD 0 e ≠ 0 → Completes (.tevFire e) s fun t =>
    t.tevTime e / ns = (s.tevTime e / ns + 10 * s.rdA EDG.TEV_PERIOD 0 e) % 2 ^ 64 ∧ t.onA EDG.TEV_ARM 0 e = true ∧ Raised 0x58 (8 + e) t) ∧
  (∀ c d rest at_, s.awake = true → earliest s.edgeEvents = some (at_, .act c) → (s.chan c).due = d :: rest → d.on = false → Completes .edgeAction s fun t =>
    (t.chan c).on = false ∧ (t.chan c).offAt = some d.t ∧ (t.chan c).due = rest ∧ t.bit EDG.STAT_CH_ON c = false) ∧
  (∀ d rest at_, s.awake = true → earliest s.edgeEvents = some (at_, .act 1) → (s.chan 1).due = d :: rest → d.on = true → (s.chan 0).on = false →
    (s.chan 0).von = false → (s.chan 0).offAt = none → s.bit EDG.TRIP_STAT_SUPP_PEND 1 = false → s.tripOn 1 = false → s.tripSoon 1 d.t = false →
    s.gateFault = false → s.bit EDG.TRIP_STAT_LATCH 1 = false → s.bit GDR.CTL_CH_EN 1 = true → s.on GDR.STAT_ENABLED = true →
    Completes .edgeAction s fun t =>
      (t.chan 1).on = true ∧ (t.chan 1).onAt = d.t ∧ (t.chan 1).due = rest ∧ t.bit EDG.STAT_CH_ON 1 = true)

/-- The gate drives of a cell (R257 to R259, R264, R266, R267, R271 to R273, Table 7-4): the phases of a shaped action end at their levels or times, a float's
burst repeats, its deck's frames make it READY or count as bad and its start may time out, the accounts are updated every 40 ns, and a forced refill starts for
the channel that goes first.
It says that these commands complete, each with the result its clause gives, under hypotheses on state and operands alone: gatePhaseEnd, millerTmo,
refreshBurst, deckFrame, deckStartTimeout, accountUpdate, forcedRefill. -/
def Obligations.GateDrivesRunTheirPhases : Prop :=
  ∀ s : State, s.awake = true → s.isCell = true →
  (∀ c mv, c < 4 → c % 2 = 1 → (s.chan c).phase = 2 → pastExit (s.chan c) mv = true → Completes (.gatePhaseEnd c mv) s fun t =>
    (t.chan c).phase = 3 ∧ (t.chan c).phaseAt = s.mer.mer) ∧
  (∀ c, c < 4 → c % 2 = 1 → (s.chan c).phase = 2 → Completes (.millerTmo c) s fun t => (t.chan c).phase = 3 ∧ Raised 0x59 8 t) ∧
  (∀ m < 2, Completes (.refreshBurst m) s fun t => ∃ cuts, t.out = .burst m (s.gate.burstAt.getD m 0 + s.rd GDR.FLT_REFRESH * us)
    (burstUnits (s.outLevel (2 * m) (s.chan (2 * m)).on)) cuts :: s.out) ∧
  (∀ m < 2, m < s.gate.badFrames.length → Completes (.deckFrame m []) s fun t => t.gate.badFrames.getD m 0 = s.gate.badFrames.getD m 0 + 1) ∧
  (∀ m < 2, m < s.gate.badFrames.length → s.deckSt m = 0 → s.deckLive m = true → s.trickle m = false →
    Completes (.deckFrame m [true, false, false, true, true, false]) s fun t => t.gate.badFrames.getD m 0 = 0 ∧ t.deckSt m = 1 ∧ Raised 0x59 5 t) ∧
  (∀ m < 2, ∀ t0, s.gate.pumpAt.getD m none = some t0 → s.startRuns m = true → s.deckLive m = true → Completes (.deckStartTimeout m) s fun t =>
    t.deckSt m = 3 ∧ t.gateFault = true ∧ t0 + s.rd GDR.FLT_T_START * ms ≤ t.mer.uptime ∧ Raised 0x59 4 t) ∧
  (Completes .accountUpdate s fun t => t.gate.accountAt = s.accountNext ∧ t.rd GDR.STAT_REFILL_REQ = ofBool t.refillReq) ∧
  (∀ m, s.refillNext = some m → s.refillFree = true → s.edge.legs.length = 2 → Completes .forcedRefill s fun t =>
    (t.leg m).refill = 2 ∧ t.deckSt m = 2 ∧ t.cell.refilled = true ∧ t.cell.refillCh = m ∧ Raised 0x59 7 t)

/-- Supplies, enables and faults of the field die (R279 to R286): a supply beyond its threshold for 1 µs is shown low, refuses GATE_EN and, with the gates enabled, latches its fault; a level above the threshold
turns its channel off; GEN low holds every channel off and its rise after 4 µs clears the latches.
It says that these commands complete, each with the result its clause gives, under hypotheses on state and operands alone: gateSupplyLow, gateSupplyOk,
gateEnWrite, desaturation, genLow, genClear. -/
def Obligations.GateFaultsHoldTheChannelsOff : Prop :=
  ∀ s : State, s.isCell = true →
  (∀ k < 3, ∀ mv since, s.awake = true → s.supplyBeyond k mv = true → s.supplyIsLow k = false → Completes (.gateSupplyLow ⟨k, mv, since⟩) s fun t =>
    t.supplyIsLow k = true ∧ t.supplyLow = true ∧ since + us ≤ t.mer.uptime ∧
    (s.on GDR.CTL_GATE_EN = true → t.gateFault = true ∧ Raised 0x59 (1 + k) t)) ∧
  (∀ k < 3, ∀ mv since, s.awake = true → s.supplyPast k mv = true → s.supplyIsLow k = true → Completes (.gateSupplyOk ⟨k, mv, since⟩) s fun t =>
    t.supplyIsLow k = false ∧ since + us ≤ t.mer.uptime) ∧
  (∀ v, WriteReaches s 0x59 0x040 → bitOf v 0 = false ∨ s.supplyLow = false → Completes (.gateEnWrite v) s fun t =>
    t.on GDR.CTL_GATE_EN = bitOf v 0) ∧
  (∀ v, WriteReaches s 0x59 0x040 → bitOf v 0 = true → s.supplyLow = true → Completes (.gateEnWrite v) s fun t =>
    t.rd GDR.CTL_GATE_EN = s.rd GDR.CTL_GATE_EN ∧ t.rdI PG.ERR_CODE 0x59 = 4) ∧
  (∀ n < 2, ∀ mv since, s.awake = true → (s.chan (2 * n + 1)).on = true → s.desatThr < mv →
    Completes (.desaturation n ⟨mv, since⟩) s fun t => (t.chan (2 * n + 1)).on = false ∧ (t.chan (2 * n + 1)).phase = 4 ∧ t.gateFault = true ∧ Raised 0x59 0 t) ∧
  (s.awake = true → Completes .genLow s fun t => t.rd GDR.STAT_GEN_LVL = 0 ∧ t.gateFault = true ∧ t.edge.block = true ∧ Raised 0x59 9 t) ∧
  (∀ since, s.awake = true → s.gate.genLow = some since → since + 4 * us ≤ s.mer.uptime → Completes .genClear s fun t =>
    t.gate.genLow = none ∧ t.rd GDR.STAT_GEN_LVL = 1 ∧ Raised 0x59 10 t) ∧
  (∀ since, s.awake = true → s.gate.genLow = some since → s.mer.uptime < since + 4 * us → Completes .genClear s fun t =>
    t.gate.genLow = none ∧ t.rd GDR.STAT_GEN_LVL = 1 ∧ t.latches = s.latches ∧ Raised 0x59 11 t)

/-- The safety island of a hub and its connections (R520, R521, R523, R534, R541, R545, R546): each cycle is counted at its end; a supply fault and the end of
the degraded time lead to SAFE with every permit gone; a connection or a network that has gone silent is shown lost, unless a copy comes in the cycle; a fault
is acknowledged to NORMAL unless its cause stands, and a reset is noted where software is its source.
It says that these commands complete, each with the result its clause gives, under hypotheses on state and operands alone: safetyCycle, supFault, degrTimeout,
connLost, netLost, faultAck, safReset. -/
def Obligations.SafetyIslandReachesSafe : Prop :=
  ∀ s : State,
  (∀ len o b ch mv hi lo dk, s.awake = true → s.rd SYS.STRAP_ROLE ≠ 3 → Completes (.safetyCycle len o b ch mv hi lo dk) s fun t =>
    t.saf.count = s.saf.count + 1 ∧ t.saf.lastAt = t.mer.uptime ∧ s.saf.lastAt + len * ns ≤ t.mer.uptime) ∧
  (s.awake = true → s.isHub = true → s.saf.supBad = false → s.rd SAF.STAT_STATE ≠ 3 → Completes (.supFault true) s fun t =>
    t.saf.supBad = true ∧ t.rd SAF.STAT_STATE = 3 ∧ t.on SAF.STAT_SPB = true ∧ t.rd SAF.STAT_PERMIT = 0 ∧ Raised 0x98 12 t ∧ Raised 0x98 2 t) ∧
  (s.awake = true → s.isCell = true → s.saf.supBad = false → s.life < 6 → Completes (.supFault true) s fun t => t.saf.supBad = true ∧ t.life = 6) ∧
  (s.awake = true → Completes (.supFault false) s fun t => t.saf.supBad = false ∧ t.regs = s.regs) ∧
  (∀ u, s.advanceUp (s.saf.degrAt + s.rd SAF.DEGR_T_DEGR * sec) = u → s.awake = true → s.isHub = true → s.rd SAF.STAT_STATE = 2 → s.classD = true →
    (s.pending.find? fun i => u.degrClears i || i matches .safetyCycle ..).any u.degrClears = false → Completes .degrTimeout s fun t =>
    t.rd SAF.STAT_STATE = 3 ∧ t.rd SAF.STAT_FAULT = 10 ∧ t.rd SAF.STAT_PERMIT = 0 ∧ s.saf.degrAt + s.rd SAF.DEGR_T_DEGR * sec ≤ t.mer.uptime) ∧
  (∀ c < 8, ∀ u, s.advanceUp ((s.semConn c).okAt + s.rdA SEM.CONN_WDOG 0 c * ms) = u → s.awake = true → s.consumes c = true →
    s.bit SEM.STAT_CONN_UP c = true → (∀ i ∈ s.pending, ∀ v, u.safAhead i = some v → (v.semConn c).okAt = (u.semConn c).okAt) → Completes (.connLost c) s fun t =>
    t.bit SEM.STAT_CONN_UP c = false ∧ Raised 0x99 0 t) ∧
  (∀ c < 8, ∀ n < 2, s.awake = true → s.consumes c = true → s.bit SEM.STAT_CONN_UP c = true →
    s.bit (if n = 0 then SEM.STAT_NET0_LOST else SEM.STAT_NET2_LOST) c = false → (s.semConn c).netAt.getD n 0 ≤ (s.semConn c).netAt.getD (1 - n) 0 →
    s.mer.uptime ≤ (s.semConn c).netAt.getD (1 - n) 0 + s.rdA SEM.CONN_WDOG 0 c * ms → Completes (.netLost c n) s fun t =>
      t.bit (if n = 0 then SEM.STAT_NET0_LOST else SEM.STAT_NET2_LOST) c = true ∧ t.bit SEM.STAT_CONN_UP c = true ∧ Raised 0x99 2 t) ∧
  (WriteReaches s 0x98 0x040 → s.isHub = true → s.rd SAF.STAT_STATE = 3 → ((s.used 0x98).storeWord 0x98 0x040 (s.rawWord 0x98 0x040 ||| 2)).classSStands = false →
    Completes .faultAck s fun t => t.rd SAF.STAT_STATE = 1 ∧ t.rd SAF.STAT_FAULT = 0) ∧
  (WriteReaches s 0x98 0x040 → s.isHub = true → s.rd SAF.STAT_STATE = 3 → ((s.used 0x98).storeWord 0x98 0x040 (s.rawWord 0x98 0x040 ||| 2)).classSStands = true →
    Completes .faultAck s fun t => t.rd SAF.STAT_STATE = 3 ∧ Raised 0x98 13 t) ∧
  (WriteReaches s 0x98 0x040 → s.isHub = true → s.rd SAF.SPB_RST_SRC = 16 → Completes .safReset s fun t => t.saf.reset = true)

/-- The move commands of an axis (R373, R378, R379, R386, R387, R390, R394): PUSH enters the staged move in the queue, REPLACE puts it alone there and ends the running move (before a coordinated move, which starts from rest, an axis in motion stops: the model's choice, assumption 183), STOP and FLUSH
empty the queue, a held PUSH enters when an entry has freed; a move on an axis that can take none is refused; gearing begins and ends, and a feedback-loss
state is cleared once the feedback is good.
It says that these commands complete, each with the result its clause gives, under hypotheses on state and operands alone: push, replace, stop, flush, gearIn,
gearOut, fblClr, pushResume. -/
def Obligations.AxisCommandsDriveTheQueue : Prop :=
  ∀ (s : State) (a : Nat), a < 16 → s.axes.length = 16 →
  (WriteReaches s (axisPage a) 0x048 →
    (s.noMoves a = false → s.rdI AXS.STAT_GEAR a = 0 → (s.staged a).mode ≠ 3 → (s.axis a).queue.length < 16 → (s.axis a).held = [] →
      Completes (.push a) s fun t => (t.axis a).queue = (s.axis a).queue ++ [s.staged a] ∧ t.rdI AXS.STAT_QDEPTH a = (s.axis a).queue.length + 1) ∧
    (s.noMoves a = true → Completes (.push a) s fun t => t.axes = s.axes ∧ Raised (axisPage a) 2 t) ∧
    (s.noMoves a = false → s.rdI AXS.STAT_GEAR a = 0 → (s.staged a).mode ≠ 3 → Completes (.replace a) s fun t =>
      (t.axis a).queue = [s.staged a] ∧ t.rdI AXS.STAT_QDEPTH a = 1 ∧
      (t.axis a).goal = (if (s.staged a).tag ≠ 0 ∧ (s.staged a).mode ≠ 2 ∧ ¬((s.axis a).pt.v.isZero = true ∧ (s.axis a).pt.a.isZero = true) then .stop else .hold)) ∧
    Completes (.stop a) s (fun t => (t.axis a).queue = [] ∧ (t.axis a).goal = .stop ∧ t.rdI AXS.STAT_QDEPTH a = 0) ∧
    Completes (.flush a) s (fun t => (t.axis a).queue = [] ∧ (t.axis a).goal = (s.axis a).goal ∧ t.rdI AXS.STAT_QDEPTH a = 0) ∧
    (s.noMoves a = false → s.kind (s.rdI AXS.GEAR_MASTER a) ≠ 0 → s.rdI AXS.GEAR_MASTER a ≠ a → s.onI AXS.GEAR_SRC a = true →
      goodLim ((s.num AXS.VMAX a).sub (s.gearSpeed a (s.master a false fun b => (s.axis b).unw).2).abs) = true →
      Completes (.gearIn a) s fun t => t.rdI AXS.STAT_GEAR a = 1 ∧ (t.axis a).queue = []) ∧
    (s.noMoves a = true → Completes (.gearIn a) s fun t => t.rdI AXS.STAT_GEAR a = s.rdI AXS.STAT_GEAR a ∧ Raised (axisPage a) 2 t) ∧
    (s.rdI AXS.STAT_GEAR a ≠ 0 → Completes (.gearOut a) s fun t => t.rdI AXS.STAT_GEAR a = 0 ∧ (t.axis a).goal = .stop) ∧
    (2 ≤ s.rdI AXS.STAT_FBL a → s.fbOk a = true → Completes (.fblClr a) s fun t => t.rdI AXS.STAT_FBL a = 0 ∧ (t.axis a).goal = .stop) ∧
    (2 ≤ s.rdI AXS.STAT_FBL a → s.fbOk a = false → Completes (.fblClr a) s fun t =>
      t.rdI AXS.STAT_FBL a = s.rdI AXS.STAT_FBL a ∧ t.rdI PG.ERR_CODE (axisPage a) = 4)) ∧
  (∀ m rest, s.awake = true → (s.axis a).held = m :: rest → (s.axis a).queue.length < 16 → Completes (.pushResume a) s fun t =>
    (t.axis a).queue = (s.axis a).queue ++ [m] ∧ (t.axis a).held = rest)

/-- The feedback interfaces (R398 to R408, R422): edges that pass the filter count and a double change is QUAD_ERR, the Hall code is shown, an invalid one and a line fault are
raised, LOST ends after 1 ms, and an SSI read starts at its lead, is taken when good and in time, and counted when it fails by its start response, its end or its bits.
It says that these commands complete, each with the result its clause gives, under hypotheses on state and operands alone: encoderEdge, hallChange,
hallInvalid, lineFault, fbkValid, ssiReadStart, ssiReadDone. -/
def Obligations.FeedbackInterfacesDecode : Prop :=
  ∀ (s : State) (f : Nat), s.awake = true → f < 8 → s.fbk.length = 8 →
  (∀ a b at_ held, s.fbkOn f 1 = true → (s.fb f).levA ≠ a → (s.fb f).levB ≠ b → s.accepted f 0 held = true → s.accepted f 1 held = true →
    .encoderEdge f a b ⟨at_, held⟩ ∉ s.served → s.tiedEvents 16384 at_ = [] → Completes (.encoderEdge f a b ⟨at_, held⟩) s fun t =>
    (t.fb f).levA = a ∧ (t.fb f).levB = b ∧ Raised (0x78 + f) 2 t ∧ t.rdI FBK.RAW f = s.rdI FBK.RAW f) ∧
  (∀ a at_ held d, s.fbkOn f 1 = true → s.accepted f 0 held = true → .encoderEdge f a (s.fb f).levB ⟨at_, held⟩ ∉ s.served →
    s.tiedEvents 16384 at_ = [] →
    quadCount (s.rdI FBK.CFG_QMODE f) (s.invert f 0 (s.fb f).levA) (s.invert f 1 (s.fb f).levB) (s.invert f 0 a) (s.invert f 1 (s.fb f).levB) = some d →
    Completes (.encoderEdge f a (s.fb f).levB ⟨at_, held⟩) s fun t => t.rdI FBK.RAW f = wrapTo 32 (s.rdI FBK.RAW f + d)) ∧
  (∀ u v w at_ held, s.fbkOn f 2 = true → s.accepted f 0 held = true → s.accepted f 1 held = true → s.accepted f 2 held = true →
    .hallChange f u v w ⟨at_, held⟩ ∉ s.served → s.tiedEvents 16384 at_ = [] → Completes (.hallChange f u v w ⟨at_, held⟩) s fun t =>
    (t.fb f).levA = u ∧ (t.fb f).levB = v ∧ (t.fb f).levZ = w ∧ t.rdI FBK.STAT_HALL f = t.hallCode f) ∧
  (s.fbkOn f 2 = true → hallSeq.contains (s.hallCode f) = false → Completes (.hallInvalid f) s fun t =>
    (t.fb f).hallBad = true ∧ t.rdI FBK.STAT_HALL f = s.hallCode f ∧ Raised (0x78 + f) 3 t) ∧
  (∀ i, s.fbkOn f 1 = true → s.onI FBK.CFG_LF_EN f = true → i < 3 → bitOf (s.fb f).lows i = false → Completes (.lineFault f i true) s fun t =>
    bitOf (t.fb f).lows i = true ∧ t.rdI FBK.STAT_LINE_FAULT f = 1 ∧ Raised (0x78 + f) 6 t) ∧
  (s.rdI FBK.STAT_STATE f = 2 → s.rdI FBK.CFG_TYPE f ≠ 3 → s.onI FBK.STAT_LINE_FAULT f = false → (s.fb f).hallBad = false → Completes (.fbkValid f) s fun t =>
    t.rdI FBK.STAT_STATE f = 0 ∧ (s.fb f).badAt + ms ≤ t.mer.uptime ∧ Raised (0x78 + f) 1 t) ∧
  (s.fbkOn f 3 = true → Completes (.ssiReadStart f) s fun t => (t.fb f).reading = some (s.ssiStart f)) ∧
  (∀ resp ack back at_ r, s.fbkOn f 3 = true → (s.fb f).reading = some r →
    s.rdI FBK.SSI_T_ACK_TMO f < ack ∨ 20000 < back ∨ s.ssiBad f resp = true → Completes (.ssiReadDone f resp ack back at_) s fun t =>
      (t.fb f).reading = none ∧ t.rdI FBK.RAW f = s.rdI FBK.RAW f ∧ Raised (0x78 + f) 4 t) ∧
  (∀ resp ack back at_ r, s.fbkOn f 3 = true → (s.fb f).reading = some r → ack ≤ s.rdI FBK.SSI_T_ACK_TMO f → back ≤ 20000 → s.ssiBad f resp = false →
    at_ + 100 * ns ≤ r + s.ssiLead f → Completes (.ssiReadDone f resp ack back at_) s fun t =>
      (t.fb f).reading = none ∧ t.rdI FBK.RAW f = s.ssiPos f resp % 2 ^ 32 ∧ t.rdI FBK.STAT_SSI_FAILS f = 0)

/-- Index pulses, latches, Datum and compares of the axes (R403, R410, R411, R413 to R417): an index is raised, a latch stores an entry that a pop takes, a Datum is
armed and set, and a compare is armed; an electrical axis is brought to the instant of its compares.
It says that these commands complete, each with the result its clause gives, under hypotheses on state and operands alone: index, latch, swLatch, latchPop,
datumArm, datumSet, cmpArm, electricalCompareFire. -/
def Obligations.AxesLatchAndCompare : Prop :=
  ∀ (s : State) (a : Nat), a < 16 → s.axes.length = 16 →
  (∀ f at_ held, f < 8 → s.awake = true → s.fbkOn f 1 = true → s.rdI FBK.CFG_Z_GATE f = 0 → s.accepted f 2 held = true → .index f ⟨at_, held⟩ ∉ s.served →
    s.tiedEvents 16384 at_ = [] → Completes (.index f ⟨at_, held⟩) s fun t => Raised (0x78 + f) 7 t) ∧
  (∀ n at_ held, n < 8 → 20 * ns ≤ held → .latch n true ⟨at_, held⟩ ∉ s.served → s.tiedEvents 16384 at_ = [] → s.awake = true → s.hasBearing a = true → s.kind a = 1 → s.rdI FBK.CFG_TYPE (s.rdI AXS.CFG_FBK a) ≠ 3 → s.bitI AXS.LT_CFG_LT_EN a n = true →
    edgeFits (s.rdI AXS.LT_CFG_LT_EDGE a) true = true → (s.axis a).fifo.length < 16 → Completes (.latch n true ⟨at_, held⟩) s fun t =>
      (s.axis a).fifo.length < (t.axis a).fifo.length ∧ Raised (axisPage a) 15 t) ∧
  (WriteReaches s (axisPage a) 0x0C8 → s.hasBearing a = true → s.kind a = 1 → (s.axis a).fifo.length < 16 → Completes (.swLatch a) s fun t =>
    (t.axis a).fifo.length = (s.axis a).fifo.length + 1 ∧ Raised (axisPage a) 15 t) ∧
  (s.awake = true → s.busVerdict (axisPage a) 0x0DC false = .perform → Completes (.latchPop a) s fun t =>
    (t.axis a).fifo = (s.axis a).fifo.drop 1 ∧ t.out = .readData (axisPage a) 0x0DC (s.rawWord (axisPage a) 0x0DC) :: s.out) ∧
  (∀ v, WriteReaches s (axisPage a) 0x0C4 → bitOf v 6 = true → Completes (.datumArm a v) s fun t => t.rdI AXS.DATUM_CTL_PENDING a = 1) ∧
  (s.awake = true → s.hasBearing a = true → s.onI AXS.DATUM_CTL_PENDING a = true → s.rdI AXS.DATUM_CTL_SRC a = 1 → Completes (.datumSet a) s fun t =>
    t.rdI AXS.DATUM_CTL_PENDING a = 0 ∧ t.rdI AXS.DATUM_CTL_VALID a = 1 ∧ Raised (axisPage a) 20 t) ∧
  (∀ c v, c < 2 → WriteReaches s (axisPage a) (0x0E8 + 16 * c) → s.hasBearing a = true → s.kind a = 1 → bitOf v 0 = true → bitOf v 3 = false →
    Completes (.cmpArm a c v) s fun t => t.rdA AXS.CMP_ARMED a c = 1) ∧
  (∀ at_, s.awake = true → s.hasBearing a = true → s.kind a = 2 → s.onI AXS.CFG_ESRC a = false → (s.axis a).evalAt ≤ at_ / (5 * ns) * (5 * ns) →
    (s.axis a).drive.isSome = true →
    Completes (.electricalCompareFire a at_) s fun t => (t.axis a).evalAt = at_ / (5 * ns) * (5 * ns))

/-- The measurement converters (R426 to R442): a start event that has occurred is queued after its delay at its selection, the earliest pending one acts, a window's code is stored, a scan starts and ends,
calibration swaps a slice or reports its fault, and frozen channels and slices are marked.
It says that these commands complete, each with the result its clause gives, under hypotheses on state and operands alone: startEvent, converterStart,
cniWindowClose, scanStart, scanDone, calStep, frozen, frozenEnd, sliceFrozen. -/
def Obligations.ConvertersStartCloseAndCalibrate : Prop :=
  ∀ s : State, s.awake = true →
  (∀ k at_ ks rest, k < 16 → s.meas.events = (at_, ks) :: rest → k ∈ ks → s.meas.starts.length = 17 → (s.meas.starts.getD k []).length < 4 →
    Completes (.startEvent k at_) s fun t => t.meas.starts.getD k [] = s.meas.starts.getD k [] ++ [ceilDiv (at_ + s.rdA CNI.CH_DLY 0 k * 10 * ns) (5 * ns) * (5 * ns)]) ∧
  (∀ k at_ ks rest, k < 16 → s.meas.events = (at_, ks) :: rest → k ∈ ks → 4 ≤ (s.meas.starts.getD k []).length → Completes (.startEvent k at_) s fun t =>
    t.meas.starts.getD k [] = s.meas.starts.getD k [] ∧ Raised 0x80 2 t) ∧
  (∀ k e, k < 16 → s.meas.starts.getD k [] = [e] → s.meas.starts.length = 17 → s.meas.due.length = 17 → Completes (.converterStart k) s fun t =>
    t.meas.due.getD k none = some e ∧ t.meas.starts.getD k [] = []) ∧
  (∀ ch code at_ c e h, ch < 16 → s.pageOn 0x80 = true → s.bit CNI.CTL_EN ch = true → s.cniClose ch at_ = some (e, h) →
    s.meas.closed.getD ch none = none → s.meas.closed.length = 16 → .cniWindowClose ch code 0 at_ c ∉ s.served →
    Completes (.cniWindowClose ch code 0 at_ c) s fun t =>
      t.meas.closed.getD ch none = some e ∧ t.rdA CNI.CH_RAW 0 ch = code % 2 ^ 24) ∧
  (∀ t0, s.meas.due.getD 16 none = some t0 → s.on CNF.STAT_SCAN_BUSY = false → s.cnfScan = true → s.pageOn 0x81 = true → s.meas.due.length = 17 →
    Completes .scanStart s fun t => t.rd CNF.STAT_SCAN_BUSY = 1 ∧ t.meas.due.getD 16 none = none ∧ t.meas.scanAt.isSome = true) ∧
  (∀ res t0, s.meas.scanAt = some t0 → Completes (.scanDone res) s fun t =>
    t.rd CNF.STAT_SCAN_BUSY = 0 ∧ t.meas.scanAt = none ∧ Raised 0x81 5 t) ∧
  (∀ o g k c x old, s.on CNF.CTL_CAL_HOLD = false → s.pageOn 0x81 = true → s.calNext = some c → s.spare c = some x → (s.meas.slices.getD c []).head? = some old →
    Completes (.calStep true o g k) s (fun t =>
      t.rd CNF.STAT_CAL_CH = c ∧ t.rdA CNF.SL_OFS 0 (5 * c + x) = o % 2 ^ CNF.SL_OFS.width ∧ t.bit CNF.STAT_CAL_FAULT c = false ∧ Raised 0x81 4 t) ∧
    Completes (.calStep false o g k) s fun t => t.rd CNF.STAT_CAL_CH = c ∧ t.bit CNF.STAT_CAL_FAULT c = true ∧ Raised 0x81 3 t) ∧
  (∀ ch, s.cnfStream ch = true → s.bit CNF.STAT_FROZEN ch = false → Completes (.frozen ch) s fun t => t.bit CNF.STAT_FROZEN ch = true ∧ Raised 0x81 1 t) ∧
  (∀ ch < 8, Completes (.frozenEnd ch) s fun t => t.bit CNF.STAT_FROZEN ch = false) ∧
  (∀ ch k, k < 5 → s.cnfStream ch = true → s.bit CNF.STAT_FROZEN ch = false → bitOf (s.rdA CNF.CH_ACTIVE 0 ch) k = true →
    bitOf (s.rdA CNF.CH_FAILED 0 ch) k = false → Completes (.sliceFrozen ch k) s fun t => bitOf (t.rdA CNF.CH_FAILED 0 ch) k = true ∧ Raised 0x81 2 t)

/-- Sampled values and the phasor unit (R449, R453, R457, R458): a silent stream is LOST (with no frame waiting, R450), a report is counted and sent on its port, one that left late is
raised, and an internal record writes the estimates to the channel's signals.
It says that these commands complete, each with the result its clause gives, under hypotheses on state and operands alone: svLost, pmuReport, pmuIntRecord. -/
def Obligations.StreamsAndPhasorsReport : Prop :=
  ∀ s : State, s.awake = true →
  (∀ i < 16, s.pageOn 0x82 = true → s.bit SVS.CTL_EN i = true → s.bit SVS.STAT_LOST i = false →
    (∀ p at_ f, .ethFrameRx p at_ f ∉ s.pending) → Completes (.svLost i) s fun t =>
    t.bit SVS.STAT_LOST i = true ∧ t.rdA SVS.S_STATE 0 i = 1 ∧ Raised 0x82 0 t) ∧
  (∀ est ago, s.pageOn 0x83 = true → s.on PMU.CTL_RUN = true → s.rd MER.STAT_STATE ≠ 0 → s.onI PG.ENABLE (0xA8 + s.rd PMU.CFG_PORT) = true →
    Completes (.pmuReport est ago false) s (fun t =>
      t.txq.length = s.txq.length + 1 ∧ t.rd PMU.CNT_FRAMES = min (s.rd PMU.CNT_FRAMES + 1) 0xFFFF ∧ t.rd PMU.STAT_SYNC = ofBool (s.rd MER.STAT_STATE == 1)) ∧
    Completes (.pmuReport est ago true) s fun t => t.txq.length = s.txq.length + 1 ∧ Raised 0x83 2 t) ∧
  (∀ est c, s.pageOn 0x83 = true → s.rd PMU.CFG_INT_RATE ≠ 0 → c < 16 → s.rdA PMU.CH_SIG_BASE 0 c < 4093 →
    (∀ d < 16, d ≠ c → s.rdA PMU.CH_SIG_BASE 0 d = 0xFFFF) → s.sramBad = [] → Completes (.pmuIntRecord est) s fun t =>
      t.memLe (sigAddr (s.rdA PMU.CH_SIG_BASE 0 c + 2)) 4 = (est.getD c noPhasor).freq % 2 ^ 32)

/-- Survey capture (R464 to R471, R475, R476): ARM takes a free segment or is refused, a forced fire and the level, slope and pattern triggers fire an armed capture,
groups are written in their slots, segments are freed, the log rate falls, the capture area is read through its window, and DISARM ends the capture.
It says that these commands complete, each with the result its clause gives, under hypotheses on state and operands alone: svyArm, force, segmentFree,
levelTrigger, slopeTrigger, patternTrigger, groupWritten, logRateDown, svyRdData, disarm. -/
def Obligations.SurveyCapturesItsRecord : Prop :=
  ∀ s : State,
  (∀ k, WriteReaches s 0x88 0x040 → s.rd SVY.STAT_STATE = 0 → s.svyLog = false → s.rd SVY.LEN_PRE + s.rd SVY.LEN_POST + 1 ≤ s.svyGmax →
    (List.range s.svySegs).find? (fun k => !bitOf (s.rd SVY.REC_FULL) k) = some k → Completes .svyArm s fun t =>
      t.rd SVY.STAT_STATE = 1 ∧ t.rd SVY.STAT_SEG = k % 8 ∧ t.svy.gseq = 0) ∧
  (WriteReaches s 0x88 0x040 → s.rd SVY.STAT_STATE = 0 → s.svyLog = false → s.rd SVY.LEN_PRE + s.rd SVY.LEN_POST + 1 ≤ s.svyGmax →
    (List.range s.svySegs).find? (fun k => !bitOf (s.rd SVY.REC_FULL) k) = none → Completes .svyArm s fun t => t.rd SVY.STAT_STATE = 0 ∧ Raised 0x88 4 t) ∧
  (WriteReaches s 0x88 0x040 → s.rd SVY.STAT_STATE = 1 → s.svyLog = false → Completes .force s fun t =>
    t.rd SVY.STAT_STATE = 2 ∧ t.svy.src = 4 ∧ Raised 0x88 0 t) ∧
  (WriteReaches s 0x88 0x040 → s.rd SVY.STAT_STATE = 2 → s.svyLog = false → sameCycle cyc250 s.mer.mer s.svy.time = false → Completes .force s fun t => t.rd SVY.STAT_STATE = 2 ∧ t.svy = s.svy ∧ Raised 0x88 6 t) ∧
  (∀ m k, WriteReaches s 0x88 0x05C → k < 8 → bitOf m k = true → Completes (.segmentFree m) s fun t => t.bit SVY.REC_FULL k = false) ∧
  (∀ ch ws at_ p, ch < 8 → s.awake = true → s.svyStream ch = true → s.levelTrue ch ws = true → s.levelTrue ch ws.tail = false → s.onA SVY.LVL_FIRE 0 ch = true →
    s.rd SVY.STAT_STATE = 1 → s.svyLog = false → Completes (.levelTrigger ch ws at_ p) s fun t =>
      t.rd SVY.STAT_STATE = 2 ∧ t.svy.src = 1 ∧ bitOf (t.rdA SVY.PAT_IN 0 0) ch = true) ∧
  (∀ ch ws at_ p, ch < 8 → s.awake = true → s.svyStream ch = true → s.slopeTrue ch ws = true → s.slopeTrue ch ws.tail = false → s.onA SVY.SLP_FIRE 0 ch = true →
    s.rd SVY.STAT_STATE = 1 → s.svyLog = false → Completes (.slopeTrigger ch ws at_ p) s fun t =>
      t.rd SVY.STAT_STATE = 2 ∧ t.svy.src = 2 ∧ bitOf (t.rdA SVY.PAT_IN 0 0) (8 + ch) = true) ∧
  (∀ x at_ p, s.awake = true → s.patInputs x &&& (s.rd SVY.PAT_MASK_LO + 2 ^ 32 * s.rd SVY.PAT_MASK_HI) =
      (s.rd SVY.PAT_VALUE_LO + 2 ^ 32 * s.rd SVY.PAT_VALUE_HI) &&& (s.rd SVY.PAT_MASK_LO + 2 ^ 32 * s.rd SVY.PAT_MASK_HI) →
    s.on SVY.PAT_EN = true → s.svy.patReady = true → s.svyStream 0 = true → s.rd SVY.STAT_STATE = 1 → s.svyLog = false →
    Completes (.patternTrigger x at_ p) s fun t => t.rd SVY.STAT_STATE = 2 ∧ t.svy.src = 3 ∧ t.rdA SVY.PAT_IN 0 0 = s.patInputs x % 2 ^ 32) ∧
  (∀ at_ raw fr fifo, s.awake = true → s.cnfScan = false → s.rd SVY.STAT_STATE = 1 → s.svyLog = false → fifo < 0x10000 → s.sramBad = [] →
    Completes (.groupWritten at_ raw fr fifo) s fun t => t.svy.gseq = s.svy.gseq + 1 ∧
      t.memLe (s.svyBase (s.rd SVY.STAT_SEG) + 256 + s.svy.gseq % max 1 s.svyGmax * s.svyGroup) 8 = nsOf at_ % 2 ^ 64) ∧
  (s.awake = true → s.svyLog = true → 4 * ((s.rd SVY.LOG_WR + max 1 s.svyGmax - s.rd SVY.LOG_RD % max 1 s.svyGmax) % max 1 s.svyGmax) < max 1 s.svyGmax →
    s.rd SVY.CTL_DEC_MIN < s.rd SVY.STAT_DEC → Completes .logRateDown s fun t => t.rd SVY.STAT_DEC = (s.rd SVY.STAT_DEC - 1) % 8) ∧
  (∀ n, s.awake = true → s.busVerdict 0x88 0x140 false = .perform → s.on SVY.RD_ADDR_AUTOINC = true → Completes (.svyRdData n) s fun t =>
    t.out.length = s.out.length + min 12 n ∧ t.rd SVY.RD_ADDR = (s.rd SVY.RD_ADDR + 4 * min 12 n) % s.svySize % 2 ^ SVY.RD_ADDR.width) ∧
  (WriteReaches s 0x88 0x040 → Completes .disarm s fun t => t.rd SVY.STAT_STATE = 0)

/-- Triangulation (R477 to R483): a front past the threshold of a quiet detector is raised and kept, a pop takes it, a datagram due is sent again, and the
oldest wait ends without a peer's front.
It says that these commands complete, each with the result its clause gives, under hypotheses on state and operands alone: front, frontPop, peerResend,
noMatch. -/
def Obligations.TriangulationKeepsItsFronts : Prop :=
  ∀ s : State, s.awake = true →
  (∀ det a b at_ quiet, det < 8 → s.pageOn 0x89 = true → s.on TRI.CTL_EN = true → s.cnfScan = false → s.rdA TRI.DET_MODE 0 det = 0 → s.bit CNF.STAT_FROZEN (s.rdA TRI.DET_CH_A 0 det) = false → s.tri.fifo.length < 64 →
    (a.take (s.rdA TRI.DET_SPAN 0 det + 2)).any (fun w => bitOf w 14) = false → s.onA TRI.DET_POL_NEG 0 det = true → s.onA TRI.DET_POL_POS 0 det = true →
    s.rdA TRI.DET_QUIET 0 det ≤ quiet →
    s.rdA TRI.DET_THR 0 det < ((s.detInput det a b).getD (1 + s.rdA TRI.DET_SPAN 0 det) 0 - (s.detInput det a b).getD 1 0).natAbs →
    ((s.detInput det a b).getD (0 + s.rdA TRI.DET_SPAN 0 det) 0 - (s.detInput det a b).getD 0 0).natAbs ≤ s.rdA TRI.DET_THR 0 det →
    Completes (.front det a b at_ quiet) s fun t => t.tri.fifo.length = s.tri.fifo.length + 1 ∧ Raised 0x89 0 t) ∧
  (s.busVerdict 0x89 0x10C false = .perform → Completes .frontPop s fun t =>
    t.tri.fifo = s.tri.fifo.drop 1 ∧ t.out = .readData 0x89 0x10C (s.rdA TRI.FRONT_POP_ENTRY 0 3) :: s.out) ∧
  (∀ due left port f rest, s.tri.again = (due, left, port, f) :: rest → s.onI PG.ENABLE (0xA8 + port) = true → Completes .peerResend s fun t =>
    t.txq = s.txq ++ [{ port := port, engine := 2, data := f, resp := none }] ∧ due ≤ t.mer.uptime) ∧
  (∀ x rest, s.tri.waits = x :: rest → (∀ p at_ f, .ethFrameRx p at_ f ∉ s.pending) → Completes .noMatch s fun t =>
    t.tri.waits = rest ∧ t.rd TRI.CNT_NO_MATCH = min (s.rd TRI.CNT_NO_MATCH + 1) 0xFF ∧ Raised 0x89 3 t)

/-- The frames of the twin link (R487 to R493, R515): an accepted STRIDE frame gives the peer's state and term, RING_DIG, LATE, MIRROR and STATE frames are kept for
their use; a frame that fails its check is counted and has no other effect.
It says that these commands complete, each with the result its clause gives, under hypotheses on state and operands alone: strideFrame, ringDig, lateFrame,
mirrorFrame, stateFrame. -/
def Obligations.TwinFramesAreTakenOrCounted : Prop :=
  ∀ s : State, s.awake = true →
  (∀ lane at_ d, Completes (.strideFrame lane at_ d) s fun t => ((s.advanceTo at_).twinTake lane 1 d).2 = true →
    t.rd CLR.PEER_PEER_STATE = (parseStride d).state % 8 ∧ t.rd CLR.PEER_PEER_TERM = (parseStride d).term % 2 ^ 16) ∧
  (∀ lane d, Completes (.ringDig lane d) s fun t =>
    ((s.twinTake lane 2 d).2 = true → t.pair.peerDigs.head? = some (leAt d 16 1, leAt d 20 4, leAt d 24 4)) ∧
    ((s.twinTake lane 2 d).2 = false → t.pair = s.pair)) ∧
  (∀ lane d, Completes (.lateFrame lane d) s fun t =>
    ((s.twinTake lane 3 d).2 = true → t.pair.peerLate = some (leAt d 16 6, (leAt d 8 4 + 1) % 2 ^ 32)) ∧
    ((s.twinTake lane 3 d).2 = false → t.pair = s.pair)) ∧
  (∀ lane d, Completes (.mirrorFrame lane d) s fun t =>
    ((s.twinTake lane 4 d).2 = true → t.pair.mirrors =
      s.pair.mirrors ++ (List.range (leAt d 2 2 / 32)).map fun i => parseMirror s.peerUnit (sliceBytes d (16 + 32 * i) 32)) ∧
    ((s.twinTake lane 4 d).2 = false → t.pair = s.pair)) ∧
  (∀ lane d, s.clr = 2 → s.pair.transfer = true → leAt d 16 2 ≠ 0x7F00 → Completes (.stateFrame lane d) s fun t =>
    ((s.twinTake lane 5 d).2 = true → leAt d 16 2 = 0 → t.sram = sramPutAll s.sram (leAt d 20 4) (sliceBytes d 24 (leAt d 2 2 - 8))) ∧
    ((s.twinTake lane 5 d).2 = true → 2 ≤ leAt d 16 2 →
      t.pair.items = s.pair.items ++ [(leAt d 16 2, leAt d 18 2, leAt d 20 4, sliceBytes d 24 (leAt d 2 2 - 8))]) ∧
    ((s.twinTake lane 5 d).2 = false → t.pair = s.pair)) ∧
  (∀ d, s.paired = true → s.pageOn41 = true → bitOf (s.rd TWN.CTL_LANE_EN) 0 = true → tcrcOk d = false → Completes (.ringDig 0 d) s fun t =>
    t.pair = s.pair ∧ t.rd TWN.CNT_FRAME_ERR_A = min (s.rd TWN.CNT_FRAME_ERR_A + 1) (2 ^ TWN.CNT_FRAME_ERR_A.width - 1))

/-- The pair of hubs (R487, R498, R502, R506, R507, R515 to R517, Table 14-4): enabling joins and disabling leaves it, a hub left alone claims, the holder proposes
a handover on request, for a drill or to the preferred peer, FAULT_CLR rejoins, a resynchronising hub whose carried part is complete is ready to adopt it and becomes standby after 16 equal reports, and a mirrored
write that waits goes when a place has freed.
It says that these commands complete, each with the result its clause gives, under hypotheses on state and operands alone: clrEnable, aloneTimeout, handover,
drill, prefReturn, faultClr, resyncTransfer, resyncDone, mirrorWriteResume. -/
def Obligations.PairChangesItsHolder : Prop :=
  ∀ s : State,
  (WriteReaches s 0x90 0x008 → s.isHub = true → s.isBranch = false → s.onI PG.ENABLE 0x90 = false → Completes (.clrEnable true) s fun t =>
    t.rdI PG.ENABLE 0x90 = 1 ∧ t.clr = 1) ∧
  (WriteReaches s 0x90 0x008 → s.isHub = true → s.isBranch = false → s.onI PG.ENABLE 0x90 = true → Completes (.clrEnable false) s fun t =>
    t.rdI PG.ENABLE 0x90 = 0 ∧ t.clr = 0 ∧ t.pair.hoB = none) ∧
  (s.awake = true → s.paired = true → s.clr = 1 → s.on TWN.STAT_BUDGET_FAIL = false → (List.range 48).any s.inService = true → Completes .aloneTimeout s fun t =>
    t.clr = 4 ∧ t.rd CLR.STAT_PEER_LOST = 1 ∧ s.pair.heard + s.rd CLR.CFG_T_ALONE * sec ≤ t.mer.uptime ∧ Raised 0x90 0 t ∧ Raised 0x90 3 t) ∧
  (WriteReaches s 0x90 0x044 → s.paired = true → s.clr = 4 → s.pair.hoB = none → Completes .handover s fun t =>
    t.pair.hoB = some ((s.mer.seq + 3) % 2 ^ 32) ∧ t.pair.hoDrill = false ∧ t.rd CLR.STAT_HANDOVER_PEND = 1) ∧
  (s.awake = true → s.paired = true → s.clr = 4 → s.rd CLR.CFG_DRILL_H ≠ 0 → s.pair.hoB = none → Completes .drill s fun t =>
    t.pair.hoB = some ((s.mer.seq + 3) % 2 ^ 32) ∧ t.pair.hoDrill = true ∧ Raised 0x90 8 t) ∧
  (∀ t0, s.awake = true → s.pair.standby = some t0 → s.paired = true → s.clr = 4 → s.rd CLR.CFG_PREF = s.peerUnit + 1 → s.pair.hoB = none →
    Completes .prefReturn s fun t => t.pair.hoB = some ((s.mer.seq + 3) % 2 ^ 32) ∧ t0 + s.rd CLR.CFG_HOLDOFF * 100 * ms ≤ t.mer.uptime) ∧
  (WriteReaches s 0x90 0x044 → s.paired = true → s.clr = 5 → Completes .faultClr s fun t => t.clr = 1 ∧ t.pair.fseq = 0) ∧
  (s.awake = true → s.paired = true → s.clr = 2 → s.pair.transfer = true → s.pair.items.any (fun x => x.1 == 4) = true → Completes .resyncTransfer s fun t =>
    t.pair.ready = true ∧ t.pair.items = s.pair.items ∧ t.clr = 2) ∧
  (s.awake = true → s.paired = true → s.clr = 4 → s.rd CLR.PEER_PEER_STATE = 2 → s.showRsync.rd TWN.RSYNC_CAPACITY < s.showRsync.rd TWN.RSYNC_CARRIED →
    Completes .resyncTransfer s fun t => t.pair = s.pair ∧ Raised 0x41 6 t) ∧
  (s.awake = true → s.paired = true → s.clr = 2 → s.pair.adopted = true → 16 ≤ s.pair.goodRun → Completes .resyncDone s fun t => t.clr = 3 ∧ Raised 0x90 9 t) ∧
  (∀ m rest, s.awake = true → s.pair.waiting = m :: rest → s.pair.sent < 32 → Completes .mirrorWriteResume s fun t =>
    t.pair.waiting = rest ∧ t.pair.sent = s.pair.sent + 1 ∧ t.pair.mirrors = s.pair.mirrors ++ [{ m with b := (s.mer.seq + 2) % 2 ^ 32 }])

/-- Register requests by pennant and mirrored writes (R192, R212 to R215, R487): a request for an absent page is answered with status 1, a read that nothing holds
is answered, one that its page holds stays; a write of one word to EVT_EN takes effect and is answered; the mirrored write that is due reaches its register.
It says that these commands complete, each with the result its clause gives, under hypotheses on state and operands alone: regRd, regWr, mirrorApply. -/
def Obligations.PennantAndMirrorAccessesReachRegisters : Prop :=
  ∀ (s : State) (p : HeldPen), s.awake = true →
  (s.isCell = true → s.regPens = [p] → p.isType 1 = true → leAt p.data 2 2 ≠ 0 → s.pagePresent (leAt p.data 4 1) = false → Completes .regRd s fun t =>
    t.pens = s.pens.erase p ∧ t.cell.resp = s.cell.resp ++
      [(p.unit, penBody 3 (leAt p.data 1 1 % 16) (s.rd BNC.CELL_INDEX) ([1, 0, 0] ++ sliceBytes p.data 7 1))]) ∧
  (s.isCell = true → s.regPens = [p] → p.isType 1 = true → leAt p.data 2 2 ≠ 0 → s.pagePresent (leAt p.data 4 1) = true → penBad p = false →
    s.penWaits p false = false → Completes .regRd s fun t => t.pens = s.pens.erase p ∧ t.cell.resp.length = s.cell.resp.length + 1) ∧
  (s.isCell = true → s.regPens = [p] → p.isType 1 = true → leAt p.data 2 2 ≠ 0 → s.pagePresent (leAt p.data 4 1) = true → penBad p = false →
    s.penWaits p false = true → Completes .regRd s fun t => t.pens = s.pens ∧ t.cell.resp = s.cell.resp) ∧
  (s.isCell = true → s.regPens = [p] → p.isType 2 = true → leAt p.data 2 2 ≠ 0 → s.pagePresent (leAt p.data 4 1) = true → leAt p.data 7 1 = 1 →
    leAt p.data 5 2 = 0x014 → s.penWaits p true = false → leAt p.data 8 4 < 2 ^ eventsOf (leAt p.data 4 1) → s.penLocked p = none → Completes .regWr s fun t =>
      t.rdI PG.EVT_EN (leAt p.data 4 1) = leAt p.data 8 4 ∧ t.pens = s.pens.erase p ∧ t.cell.resp.length = s.cell.resp.length + 1) ∧
  (∀ m, s.mirrorsDue = [m] → m.bar2 = false → m.ofs = 0x014 → s.busVerdict m.page 0x014 true = .perform → ofLe m.data < 2 ^ eventsOf m.page →
    Completes .mirrorApply s fun t => t.rdI PG.EVT_EN m.page = ofLe m.data ∧ ∀ x ∈ t.pair.mirrors, x ≠ m)

/-- The laws of the selecting, limiting and copying operations (R329, R331, R334 to R339, R343, R352 to R354, R361): with its inputs usable each has computed, at the
start of its first leg, the value the Legend gives; with an unusable one those of class F keep their outputs' VALUE with VALID 0.
It says that these commands complete, each with the result its clause gives, under hypotheses on state and operands alone: xcopy, wsum, mul, min, max, med,
lim, rlim, lut, gear, cmp, stopreq, coefWr, lpf1. -/
def Obligations.SelectingOperationsFollowTheirLaws : Prop :=
  ∀ (s : State) (d : Nat) (o : OpIn), o = s.inputs d →
  (s.starts d 0x01 → Completes (.xcopy d) s fun t => ∃ r, (t.op d).res = some r ∧
    (∀ i, i < 4 → (o.p 0 = true → i ≠ 3) → r.outs.getD i none = (o.at i).map copyOut) ∧
    (o.p 0 = true → r.outs.getD 3 none = some (.val o.now true true))) ∧
  (s.starts d 0x08 → o.usedIn ≠ [] → o.fit o.usedIn [] = true → Completes (.wsum d) s fun t =>
    (t.op d).res = some (o.give [o.usedIn.foldl (fun a i => add64 a (mul64 (o.k i) (o.val i))) (o.k 8)] [])) ∧
  (s.starts d 0x08 → o.fit o.usedIn [] = false → Completes (.wsum d) s fun t => (t.op d).res = some (o.classF 1)) ∧
  (s.starts d 0x09 → o.fit [0, 1] [] = true → Completes (.mul d) s fun t =>
    (o.p 0 = false → (t.op d).res = some (o.give [mul32 (mul32 (o.k 0) (o.val 0)) (o.val 1)] [])) ∧
    (o.p 0 = true → (t.op d).res = some (o.give [div32 (mul32 (o.k 0) (o.val 0)) (o.val 1)] []))) ∧
  (s.starts d 0x09 → o.fit [0, 1] [] = false → Completes (.mul d) s fun t => (t.op d).res = some (o.classF 1)) ∧
  (s.starts d 0x58 → o.usableIn ≠ [] → Completes (.min d) s fun t => ∃ r, (t.op d).res = some r ∧
    r.outs = [some (outNum (!o.bad) ((sortNums (o.usableIn.map o.val)).headD .zero)), some (outNum true (numNat o.usableIn.length))]) ∧
  (s.starts d 0x59 → o.usableIn ≠ [] → Completes (.max d) s fun t => ∃ r, (t.op d).res = some r ∧
    r.outs = [some (outNum (!o.bad) ((sortNums (o.usableIn.map o.val)).getLastD .zero)), some (outNum true (numNat o.usableIn.length))]) ∧
  (s.starts d 0x5A → o.bad = false → o.usableIn.length % 2 = 1 → o.kInt 0 ≤ o.usableIn.length → Completes (.med d) s fun t => ∃ r, (t.op d).res = some r ∧
    r.outs = [some (outNum true ((sortNums (o.usableIn.map o.val)).getD (o.usableIn.length / 2) .zero)), some (outNum true (numNat o.usableIn.length))]) ∧
  (s.starts d 0x5A → o.usableIn = [] → Completes (.med d) s fun t => ∃ r, (t.op d).res = some r ∧
    r.outs = [some (.keep false), some (outNum true (numNat 0))]) ∧
  (s.starts d 0x40 → o.fit [0] [1, 2] = true → Completes (.lim d) s fun t => ∃ r st, (t.op d).res = some r ∧
    r.outs = [some (outNum true (clampN (o.val 0) (if o.used 1 then o.val 1 else o.k 0) (if o.used 2 then o.val 2 else o.k 1))), some (outNum true st)]) ∧
  (s.starts d 0x41 → o.fit [0] [] = true → bitOf (o.w 0) 32 = false → Completes (.rlim d) s fun t => ∃ r, (t.op d).res = some r ∧
    r.outs = [some (outNum true (add32 (o.w32 0) (clampN (sub32 (o.val 0) (o.w32 0)) (mul32 (o.k 1).abs o.h32).neg (mul32 (o.k 0).abs o.h32))))]) ∧
  (s.starts d 0x41 → o.fit [0] [] = false → Completes (.rlim d) s fun t => ∃ r, (t.op d).res = some r ∧ r.outs = [some (.keep false)] ∧ r.st = [o.w 0]) ∧
  (s.starts d 0x48 → o.fit [0] [] = true → (o.kInt 0 < 2 ∨ 1024 < o.kInt 0) → Completes (.lut d) s fun t => ∃ r, (t.op d).res = some r ∧
    r.outs = [some (.keep false)] ∧ r.faults = 1) ∧
  (s.starts d 0x48 → o.fit [0] [] = true → 2 ≤ o.kInt 0 → o.kInt 0 ≤ 1024 → 1 + 2 * (o.kInt 0).toNat ≤ o.room → o.p 0 = false →
    (∀ i, i < (o.kInt 0).toNat → (o.k (1 + i)).le (o.val 0) = false) → Completes (.lut d) s fun t =>
      (t.op d).res = some (o.give [o.k (1 + (o.kInt 0).toNat)] [])) ∧
  (s.starts d 0x60 → o.fit [0] [] = true → o.kInt 1 ≠ 0 → o.p 0 = false → Completes (.gear d) s fun t =>
    (t.op d).res = some (o.give [div64 (mul64 (o.val 0) (numInt (o.kInt 0))) (numInt (o.kInt 1))] [])) ∧
  (s.starts d 0x60 → o.fit [0] [] = true → o.kInt 1 = 0 → Completes (.gear d) s fun t => ∃ r, (t.op d).res = some r ∧ r.outs = [some (.keep false)] ∧ r.faults = 1) ∧
  (s.starts d 0x68 → o.fit [0] [1] = true → o.p 0 = false → ∀ thr, thr = (if o.used 1 then o.val 1 else o.k 0) → Completes (.cmp d) s fun t =>
    ∃ r, (t.op d).res = some r ∧
      ((add32 thr (o.k 1)).lt (o.val 0) = true → r.outs = [some (outNum true (numNat 1))] ∧ r.event = !bitOf (o.w 0) 0) ∧
      ((add32 thr (o.k 1)).lt (o.val 0) = false → (o.val 0).lt (sub32 thr (o.k 1)) = true →
        r.outs = [some (outNum true (numNat 0))] ∧ r.event = (bitOf (o.w 0) 0 && o.p 1)) ∧
      ((add32 thr (o.k 1)).lt (o.val 0) = false → (o.val 0).lt (sub32 thr (o.k 1)) = false →
        r.outs = [some (outNum true (numNat (ofBool (bitOf (o.w 0) 0))))] ∧ r.event = false)) ∧
  (s.starts d 0x69 → Completes (.stopreq d) s fun t => ∃ r, (t.op d).res = some r ∧ r.outs = [] ∧
    (o.bad = false → r.stop = some !(o.usable 0 && (o.val 0).isZero))) ∧
  (s.starts d 0x78 → Completes (.coefWr d) s fun t => ∃ r, (t.op d).res = some r ∧ r.outs = [] ∧
    (o.usable 0 = true → o.bad = false → r.coef = (o.at 0).map Sig.bits) ∧ (o.usable 0 = false → r.coef = none)) ∧
  (s.starts d 0x20 → o.fit [0] [] = true → bitOf (o.w 0) 32 = false → Completes (.lpf1 d) s fun t =>
    ∀ y, y = add32 (o.w32 0) (mul32 (clampN (o.k 0) .zero .one) (sub32 (o.val 0) (o.w32 0))) →
      (t.op d).res = some (o.give [if o.p 0 then sub32 (o.val 0) y else y] [put32 fresh y])) ∧
  (s.starts d 0x20 → o.fit [0] [] = false → Completes (.lpf1 d) s fun t => (t.op d).res = some { o.classF 1 with st := [o.w 0] })

/-- The laws of the control loops and transforms (R329, R340 to R342, R344 to R348, R350, R355): with their inputs usable they have computed the values and the state
that the Legend gives; class H operations hold while an input is unusable.
It says that these commands complete, each with the result its clause gives, under hypotheses on state and operands alone: pi, piRs, ramp, biq2, clarke,
iclarke, park, ipark, seq, pll, ccsc. -/
def Obligations.LoopsAndTransformsFollowTheirLaws : Prop :=
  ∀ (s : State) (d : Nat) (o : OpIn), o = s.inputs d →
  (s.starts d 0x10 → o.fit [0, 1] [2, 3] = true → o.isSet 3 = false → Completes (.pi d) s fun t =>
    ∀ e p raw i0 u0 i, e = sub32 (o.val 0) (o.val 1) → p = mul32 (o.k 0) e → raw = add64 (o.w64 0) (mul64 (mul64 (o.k 1) o.h) e) →
      i0 = clampN raw (o.k 2) (o.k 3) → u0 = add32 (add32 p (to32 i0)) (o.val 2) →
      i = (if ((o.k 5).lt u0 && Machine.Num.zero.lt (mul32 (o.k 1) e)) || (u0.lt (o.k 4) && (mul32 (o.k 1) e).lt .zero) then o.w64 0 else i0) →
      ∃ r, (t.op d).res = some r ∧ r.st = [put64 0 i, 0] ∧
        r.outs.head? = some (some (outNum true (clampN (add32 (add32 p (to32 i)) (o.val 2)) (o.k 4) (o.k 5))))) ∧
  (s.starts d 0x10 → o.fit [0, 1] [2, 3] = false → o.hold < min 256 (bitsOf (o.w 1) 0 9 + 1) → Completes (.pi d) s fun t => ∃ r, (t.op d).res = some r ∧
    r.outs = [some (.keep false), some (.mark 9 false)] ∧ r.cfl = !o.p 31) ∧
  (s.starts d 0x10 → o.fit [0, 1] [2, 3] = false → min 256 (bitsOf (o.w 1) 0 9 + 1) ≤ o.hold → Completes (.pi d) s fun t => ∃ r, (t.op d).res = some r ∧
    r.outs = [some (.keep true), some (.mark 1 true)] ∧ r.cfl = false) ∧
  (s.starts d 0x11 → o.fit [0, 1, 3] [2, 4] = true → o.isClear 3 = true → Completes (.piRs d) s fun t => ∃ r, (t.op d).res = some r ∧
    ∀ i, i = clampN (sub64 (o.val 4) (o.val 2)) (o.k 2) (o.k 3) → r.st = [put64 0 i, put32 fresh (o.val 1), 0] ∧
      r.outs.head? = some (some (outNum true (clampN (add32 (to32 i) (o.val 2)) (o.k 4) (o.k 5))))) ∧
  (s.starts d 0x18 → o.bad = false → o.isClear 2 = true → o.usable 1 = true → Completes (.ramp d) s fun t => ∃ r, (t.op d).res = some r ∧
    r.outs.head? = some (some (outNum true (num32 (((o.at 1).map Sig.bits).getD 0)))) ∧ r.st.getD 1 0 = 0) ∧
  (s.starts d 0x18 → o.bad = false → o.isSet 2 = true → bitOf (o.w 1) 0 = false → o.usable 1 = true → Completes (.ramp d) s fun t =>
    ∃ r, (t.op d).res = some r ∧ r.outs.head? = some (some (outNum true (o.val 1))) ∧ r.st = [put32 0 (o.val 1), 1]) ∧
  (s.starts d 0x18 → o.bad = false → o.isSet 2 = true → bitOf (o.w 1) 0 = false → o.usable 1 = false → Completes (.ramp d) s fun t =>
    ∃ r, (t.op d).res = some r ∧ r.outs = [some (.keep false), some (outNum true (numNat 2))] ∧ r.st = o.st) ∧
  (s.starts d 0x18 → o.bad = false → o.isSet 2 = true → bitOf (o.w 1) 0 = true → o.usable 0 = true → Completes (.ramp d) s fun t =>
    ∃ r, (t.op d).res = some r ∧ r.outs.head? = some (some (outNum true
      (add32 (o.w32 0) (clampN (sub32 (o.val 0) (o.w32 0)) (mul32 (o.k 1).abs o.h32).neg (mul32 (o.k 0).abs o.h32)))))) ∧
  (s.starts d 0x21 → o.fit [0] [] = true → bitOf (o.w 2) 0 = false → bitOf (o.w 2) 1 = false → Completes (.biq2 d) s fun t =>
    ∀ y n1 n2, y = add32 (mul32 (o.k 0) (o.val 0)) (to32 (o.w64 0)) → n1 = add64 (sub64 (mul64 (o.k 1) (o.val 0)) (mul64 (o.k 3) y)) (o.w64 1) →
      n2 = sub64 (mul64 (o.k 2) (o.val 0)) (mul64 (o.k 4) y) →
      (t.op d).res = some (o.give [y] [put64 0 n1, put64 0 n2, if o.p 0 then ofBool (!n1.isFinite) + 2 * ofBool (!n2.isFinite) else 0])) ∧
  (s.starts d 0x21 → o.fit [0] [] = false → Completes (.biq2 d) s fun t => (t.op d).res = some { o.classF 1 with st := o.st }) ∧
  (s.starts d 0x30 → o.fit [0, 1] [2] = true → Completes (.clarke d) s fun t => ∀ c, c = (if o.used 2 then o.val 2 else sub32 (o.val 0).neg (o.val 1)) →
    (t.op d).res = some (o.give [div32 (sub32 (sub32 (mul32 (numNat 2) (o.val 0)) (o.val 1)) c) (numNat 3), div32 (sub32 (o.val 1) c) sqrt3,
      div32 (add32 (add32 (o.val 0) (o.val 1)) c) (numNat 3)] [])) ∧
  (s.starts d 0x31 → o.fit [0, 1] [2] = true → Completes (.iclarke d) s fun t => ∃ b c, (t.op d).res = some (o.give [add32 (o.val 0) (o.val 2), b, c] []) ∧
    b = add32 (add32 (div32 (o.val 0).neg (numNat 2)) (mul32 (div32 sqrt3 (numNat 2)) (o.val 1))) (o.val 2) ∧
    c = add32 (sub32 (div32 (o.val 0).neg (numNat 2)) (mul32 (div32 sqrt3 (numNat 2)) (o.val 1))) (o.val 2)) ∧
  (s.starts d 0x32 → o.fit [0, 1, 2] [3] = true → Completes (.park d) s fun t => ∀ phi, phi = parkAngle o.parkK (o.val 2) (o.val 3) →
    (t.op d).res = some (o.give [add32 (mul32 (o.val 0) (cos32 phi)) (mul32 (o.val 1) (sin32 phi)),
      add32 (mul32 (o.val 0).neg (sin32 phi)) (mul32 (o.val 1) (cos32 phi))] [])) ∧
  (s.starts d 0x33 → o.fit [0, 1, 2] [3] = true → Completes (.ipark d) s fun t => ∀ phi, phi = parkAngle o.parkK (o.val 2) (o.val 3) →
    (t.op d).res = some (o.give [sub32 (mul32 (o.val 0) (cos32 phi)) (mul32 (o.val 1) (sin32 phi)),
      add32 (mul32 (o.val 0) (sin32 phi)) (mul32 (o.val 1) (cos32 phi))] [])) ∧
  (s.starts d 0x33 → o.fit [0, 1, 2] [3] = false → Completes (.ipark d) s fun t => (t.op d).res = some (o.classF 2)) ∧
  (s.starts d 0x34 → o.fit [0, 1, 2] [] = false → Completes (.seq d) s fun t => (t.op d).res = some { o.classF 4 with st := o.st }) ∧
  (s.starts d 0x34 → o.fit [0, 1, 2] [] = true → bitOf (o.w 2) 0 = false → Completes (.seq d) s fun t => ∃ r, (t.op d).res = some r ∧ r.outs.length = 4 ∧
    ∀ dp c2 s2, dp = (park (o.val 0) (o.val 1) (parkAngle 1 (o.val 2) .zero)).1 → c2 = cos32 (parkAngle 2 (o.val 2) .zero) → s2 = sin32 (parkAngle 2 (o.val 2) .zero) →
      r.outs.head? = some (some (outNum true (lpStep (o.whalf 0 false)
        (sub32 (sub32 dp (mul32 (o.whalf 1 false) c2)) (mul32 (o.whalf 1 true) s2)) (o.k 0))))) ∧
  (s.starts d 0x38 → o.fit [0, 1] [2] = true →
    (sqrt32 (add32 (mul32 (o.val 0) (o.val 0)) (mul32 (o.val 1) (o.val 1)))).lt (o.k 5) = false → Completes (.pll d) s fun t => ∃ r om x, (t.op d).res = some r ∧
      r.outs.take 3 = [some (outNum true (o.w64 0)), some (outNum true om),
        some (outNum true (sqrt32 (add32 (mul32 (o.val 0) (o.val 0)) (mul32 (o.val 1) (o.val 1)))))] ∧
      r.st.head? = some (put64 0 (modTwoPi (add64 (o.w64 0) (mul64 om o.h)))) ∧ om = clampN x (o.k 3) (o.k 4)) ∧
  (s.starts d 0x38 → o.fit [0, 1] [2] = false → o.hold < min 256 (bitsOf (o.w 2) 32 9 + 1) → Completes (.pll d) s fun t => ∃ r, (t.op d).res = some r ∧
    r.cfl = !o.p 31) ∧
  (s.starts d 0x50 → o.isClear 7 = true → Completes (.ccsc d) s fun t => ∃ r, (t.op d).res = some r ∧
    r.outs = List.replicate 4 (some (outNum true .zero)) ∧ r.st = [0, 0, o.w 2]) ∧
  (s.starts d 0x50 → o.isClear 7 = false → o.fit [0, 1, 2, 3, 4, 5, 6] [7] = true → Completes (.ccsc d) s fun t => ∃ r, (t.op d).res = some r ∧
    ∀ ic abz dq vd vq, ic = (fun x => div32 (add32 (o.val x) (o.val (x + 3))) (numNat 2)) → abz = clarke (ic 0) (ic 1) (ic 2) →
      dq = park abz.1 abz.2.1 (parkAngle (-2) (o.val 6) .zero) → vd = add32 (mul32 (o.k 0) (sub32 .zero dq.1)) (to32 (o.w64 0)) →
      vq = add32 (mul32 (o.k 0) (sub32 .zero dq.2)) (to32 (o.w64 1)) →
      ((o.k 2).lt (sqrt32 (add32 (mul32 vd vd) (mul32 vq vq))) = true → r.st = [put64 0 (o.w64 0), put64 0 (o.w64 1), 0]) ∧
      ((o.k 2).lt (sqrt32 (add32 (mul32 vd vd) (mul32 vq vq))) = false →
        r.st = [put64 0 (sub64 (o.w64 0) (mul64 (mul64 (o.k 1) o.h) dq.1)), put64 0 (sub64 (o.w64 1) (mul64 (mul64 (o.k 1) o.h) dq.2)), 0]))

/-- The scheduler (R291, R299, R301 to R316, Tables 8-5 and 8-7). `u` is the state before standing chains that have ended run again (R300): an operation is dispatched
to a free Plotter or waits, goes on or is pre-empted at a leg end, becomes resumable when its wait ends, and writes its outputs and state when it
completes; a cancel acts by its target's state; the Chart starts and is judged against its deadline.
It says that these commands complete, each with the result its clause gives, under hypotheses on state and operands alone: opDispatch, legEnd, waitMet,
waitTmo, opComplete, cancel, chartStart, chartDeadline. -/
def Obligations.SchedulerRunsTheChart : Prop :=
  ∀ (s : State), s.awake = true →
  (∀ t0 u, u = s.advanceTo t0 →
    (u.freePlotter = none ∨ u.graph.dispAt.any (sameCycle u.schedCyc u.mer.mer) = true → Completes (.opDispatch t0) s fun t => t = s.keep u.graphDone) ∧
    (∀ d p, u.graph.dispAt.any (sameCycle u.schedCyc u.mer.mer) = false → u.freePlotter = some p → p < u.graph.plot.length → d < u.graph.ops.length →
      ((u.candidates u.mer.mer).head? = some (d, false) → (u.desc d).waitEn = false ∨ u.waitHolds d = true →
        Completes (.opDispatch t0) s fun t => ∃ v : State, t = s.keep v.graphDone ∧ (v.op d).st = 2 ∧ (v.op d).legAt = u.mer.mer + 2 * u.schedCyc ∧
          v.graph.ready = u.graph.ready.erase d ∧ v.graph.plot.getD p none = some d ∧ v.graph.dispAt = some u.mer.mer) ∧
      ((u.candidates u.mer.mer).head? = some (d, false) → (u.desc d).waitEn = true → u.waitHolds d = false → u.waiting < 128 →
        Completes (.opDispatch t0) s fun t => ∃ v : State, t = s.keep v.graphDone ∧ (v.op d).st = 3 ∧
          (v.op d).waitEnd = u.mer.mer + (u.desc d).wtmo * ns ∧ v.graph.plot = u.graph.plot) ∧
      ((u.candidates u.mer.mer).head? = some (d, true) → Completes (.opDispatch t0) s fun t => ∃ v : State, t = s.keep v.graphDone ∧ (v.op d).st = 2 ∧
          (v.op d).resume = false ∧ v.graph.resume = u.graph.resume.erase d ∧ v.graph.plot.getD p none = some d))) ∧
  (∀ d u, (s.op d).st = 2 → legCycles < (s.op d).left → u = s.advanceTo (s.after (s.op d) legCycles) →
    (u.higherReady d = true → u.freePlotter = none → u.lowestAt d = true →
      (u.waiting < 128 → Completes (.legEnd d) s fun t => ∃ v : State, t = s.keep v.graphDone ∧ (v.op d).st = 3 ∧ (v.op d).preempt = true ∧
        (v.op d).left = (s.op d).left - legCycles ∧ d ∈ v.graph.resume ∧ some d ∉ v.graph.plot ∧
        v.rd GRS.CNT3_PREEMPT = min (s.rd GRS.CNT3_PREEMPT + 1) (2 ^ GRS.CNT3_PREEMPT.width - 1) ∧ Raised 0x61 4 v) ∧
      (128 ≤ u.waiting → Completes (.legEnd d) s fun t => ∃ v : State, t = s.keep v.graphDone ∧ (v.op d).st = 2 ∧
        (v.op d).left = (s.op d).left - legCycles ∧ v.rd GRS.CNT_WAIT_FULL = min (s.rd GRS.CNT_WAIT_FULL + 1) (2 ^ GRS.CNT_WAIT_FULL.width - 1) ∧
        Raised 0x61 0 v)) ∧
    (u.higherReady d = false ∨ u.freePlotter ≠ none ∨ u.lowestAt d = false → Completes (.legEnd d) s fun t => ∃ v : State, t = s.keep v.graphDone ∧
      (v.op d).st = 2 ∧ (v.op d).left = (s.op d).left - legCycles ∧ v.graph.plot = s.graph.plot)) ∧
  (∀ d, (s.op d).inWait = true → s.waitHolds d = true → Completes (.waitMet d) s fun t => ∃ u : State, t = s.keep u.graphDone ∧
    (u.op d).resume = true ∧ (u.op d).tmo = false ∧ d ∈ u.graph.resume) ∧
  (∀ d met u, (s.op d).inWait = true → u = s.advanceTo (s.op d).waitEnd →
    (met = true ∨ u.waitHolds d = true → Completes (.waitTmo ⟨d, met⟩) s fun t => ∃ v : State, t = s.keep v.graphDone ∧
      (v.op d).resume = true ∧ (v.op d).tmo = false ∧ d ∈ v.graph.resume ∧ v.rd GRS.CNT_WAIT_TMO = s.rd GRS.CNT_WAIT_TMO) ∧
    (met = false → u.waitHolds d = false → bitOf (u.desc d).flags 4 = false → Completes (.waitTmo ⟨d, met⟩) s fun t => ∃ v : State,
      t = s.keep v.graphDone ∧ (v.op d).resume = true ∧ (v.op d).tmo = true ∧ d ∈ v.graph.resume ∧
      v.rd GRS.CNT_WAIT_TMO = min (s.rd GRS.CNT_WAIT_TMO + 1) (2 ^ GRS.CNT_WAIT_TMO.width - 1) ∧ Raised 0x61 1 v) ∧
    (met = false → u.waitHolds d = false → bitOf (u.desc d).flags 4 = true → Completes (.waitTmo ⟨d, met⟩) s fun t => ∃ v : State,
      t = s.keep (v.release d true).graphDone ∧ (v.op d).st = 5 ∧
      v.rd GRS.CNT2_SKIPPED = min (s.rd GRS.CNT2_SKIPPED + 1) (2 ^ GRS.CNT2_SKIPPED.width - 1) ∧ Raised 0x61 1 v ∧ Raised 0x61 2 v)) ∧
  (∀ d res, (s.op d).st = 2 → (s.op d).res = some res → (s.op d).left ≤ legCycles → Completes (.opComplete d) s fun t =>
    ∃ u : State, t = s.keep (((u.sideEffects d (s.desc d) res).release d false).graphDone) ∧ (u.op d).st = 4 ∧ some d ∉ u.graph.plot ∧
      (u.op d).lastDone = some (s.after (s.op d) (s.op d).left) ∧
      (∀ k, k < 8 * res.st.length → u.byte (scratchBase + 8 * (s.desc d).state + k) = (res.st.flatMap (leBytes 8)).getD k 0) ∧
      (∀ i b, res.outs = [some (.val b true false)] → (s.desc d).outs = [i] → i < 8192 → b < 2 ^ 32 → 8 * (s.desc d).state + 8 * res.st.length ≤ 0xF0000 → s.memBad (sigAddr i) 16 = false →
        (u.sig i).bits = b ∧ (u.sig i).valid = true ∧ (u.sig i).stale = (s.op d).tmo ∧ (u.sig i).writer = d % 2 ^ 16)) ∧
  (∀ d, WriteReaches s 0x61 0x040 → d < 4096 → d < s.graph.ops.length →
    ((s.op d).st = 0 → Completes (.cancel d) s fun t => ∃ u : State, t = s.keep u.graphDone ∧ (u.op d).st = 6) ∧
    ((s.op d).st = 1 ∨ (s.op d).st = 7 → Completes (.cancel d) s fun t => ∃ u : State, t = s.keep (u.release d true).graphDone ∧ (u.op d).st = 5 ∧
      u.graph.ready = s.graph.ready.erase d) ∧
    ((s.op d).inWait = true → Completes (.cancel d) s fun t => ∃ u : State, t = s.keep (u.release d true).graphDone ∧ (u.op d).st = 5 ∧
      u.rd GRS.CNT2_SKIPPED = min (s.rd GRS.CNT2_SKIPPED + 1) (2 ^ GRS.CNT2_SKIPPED.width - 1)) ∧
    ((s.op d).st = 3 → (s.op d).preempt = false → (s.op d).resume = true → (s.op d).tmo = false → (s.op d).since = s.schedCycle →
      Completes (.cancel d) s fun t => ∃ u : State, t = s.keep (u.release d true).graphDone ∧ (u.op d).st = 5 ∧
        u.graph.resume = s.graph.resume.erase d) ∧
    ((s.op d).st = 2 ∨ (s.op d).st = 4 ∨ (s.op d).st = 5 → Completes (.cancel d) s fun t => ∃ u : State, t = s.keep u.graphDone ∧ u.graph = s.graph ∧
      u.rd GRS.CNT2_CANCEL_LATE = min (s.rd GRS.CNT2_CANCEL_LATE + 1) (2 ^ GRS.CNT2_CANCEL_LATE.width - 1) ∧ Raised 0x61 3 u)) ∧
  (s.on GRF.STAT_RUNNING = true → s.graph.started = false → Completes .chartStart s fun t => ∃ u : State,
    t = s.keep ((u.admitRun ((s.descs.filter fun d => !(s.desc d).standing).filter fun d => (s.desc d).deps == 0)).graphDone) ∧ u.graph.started = true ∧
    ∀ d, d < s.graph.ops.length → (s.desc d).standing = false → (u.op d).st = 0 ∧ (u.op d).cnt = (s.desc d).deps) ∧
  (s.on GRF.STAT_RUNNING = false → Completes .chartStart s fun t => t.graph = s.graph) ∧
  ((s.graph.started = true ∧ ∃ d, d < s.graph.ops.length ∧ (s.desc d).standing = false ∧ (s.desc d).post = false ∧ (s.op d).over = false ∧
      (s.advanceTo s.deadlineAt).endsNow d = false) →
    Completes .chartDeadline s fun t => t.graph.lastEnd = 0xFFFF ∧ Raised 0x60 5 t ∧ bitOf t.diagNow 1 = true ∧
      t.rd GRF.CNT_DL_MISS = min (s.rd GRF.CNT_DL_MISS + 1) (2 ^ GRF.CNT_DL_MISS.width - 1)) ∧
  ((∀ d, d < s.graph.ops.length → (s.desc d).standing = true ∨ (s.desc d).post = true ∨ (s.op d).over = true ∨
      (s.advanceTo s.deadlineAt).endsNow d = true) →
    Completes .chartDeadline s fun t => t.graph = s.graph ∧ t.rd GRF.CNT_DL_MISS = s.rd GRF.CNT_DL_MISS)

/-- Charts are staged, swapped and run, and coefficients queued, by register writes (R319, R321 to R324, R357, R359, R360).
It says that these commands complete, each with the result its clause gives, under hypotheses on state and operands alone: run, stage, swap, swapCancel,
stageCheckDone, coefDataWrite, coefWriteResume, cflClear. -/
def Obligations.ChartControlStagesSwapsAndQueues : Prop :=
  ∀ (s : State),
  (WriteReaches s 0x60 0x040 →
    (s.on GRF.STAT_ACTIVE_VALID = true → Completes (.run true) s fun t => t.rd GRF.CTL_RUN = 1 ∧ t.rd GRF.STAT_RUNNING = s.rd GRF.STAT_RUNNING) ∧
    (s.on GRF.STAT_ACTIVE_VALID = false → Completes (.run true) s fun t => t.rd GRF.CTL_RUN = s.rd GRF.CTL_RUN ∧ t.rdI PG.ERR_CODE 0x60 = 4) ∧
    Completes (.run false) s (fun t => t.rd GRF.CTL_RUN = 0 ∧ t.rd GRF.STAT_RUNNING = s.rd GRF.STAT_RUNNING) ∧
    Completes .stage s (fun t => t.rd GRF.STAT_STAGED = 1) ∧
    (s.rd GRF.STAT_STAGED = 2 → s.on GRF.STAT_SWAP_PEND = false → s.on GRF.CTL_AT_SEQ = false →
      s.isHub = false ∨ s.mer.lastS = 0 ∨ sameCycle cyc400 s.mer.mer s.mer.lastS = false ∨ s.graph.started = true →
      Completes .swap s fun t => t.rd GRF.STAT_SWAP_PEND = 1) ∧
    (s.rd GRF.STAT_STAGED = 2 → s.on GRF.STAT_SWAP_PEND = false → s.on GRF.CTL_AT_SEQ = false → s.isHub = true → s.mer.lastS ≠ 0 →
      sameCycle cyc400 s.mer.mer s.mer.lastS = true → s.graph.started = false → Completes .swap s fun t =>
        t.rd GRF.STAT_SWAP_PEND = 0 ∧ t.rd GRF.STAT_ACTIVE_HALF = 1 - s.rd GRF.STAT_ACTIVE_HALF ∧ t.rd GRF.STAT_ACTIVE_VALID = 1 ∧
        t.rd GRF.STAT_STAGED = 0) ∧
    (s.rd GRF.STAT_STAGED ≠ 2 ∨ s.on GRF.STAT_SWAP_PEND = true → Completes .swap s fun t =>
      t.rd GRF.STAT_SWAP_PEND = s.rd GRF.STAT_SWAP_PEND ∧ Raised 0x60 4 t) ∧
    (∀ ahead, ahead = (s.rd GRF.SWAP_SEQ + 2 ^ 32 - s.mer.seq) % 2 ^ 32 → s.on GRF.CTL_AT_SEQ = true →
      (ahead = 0 ∨ 2 ^ 31 ≤ ahead → Completes .swap s fun t => t.rd GRF.STAT_SWAP_PEND = s.rd GRF.STAT_SWAP_PEND ∧ Raised 0x60 4 t) ∧
      (s.rd GRF.STAT_STAGED = 2 → s.on GRF.STAT_SWAP_PEND = false → 0 < ahead → ahead < 2 ^ 31 → Completes .swap s fun t => t.rd GRF.STAT_SWAP_PEND = 1)) ∧
    Completes .swapCancel s (fun t => t.rd GRF.STAT_SWAP_PEND = 0)) ∧
  (s.awake = true → s.rd GRF.STAT_STAGED = 1 → s.openStaged.2 ≠ 0 → Completes .stageCheckDone s fun t =>
    t.rd GRF.STAT_STAGED = 3 ∧ t.rd GRF.STAT_REJECT = 1 ∧ Raised 0x60 1 t) ∧
  (s.awake = true → s.rd GRF.STAT_STAGED = 1 → s.openStaged.2 = 0 → s.openStaged.1.loadChecks s.openStaged.1.stagedBase ≠ 0 →
    Completes .stageCheckDone s fun t => t.rd GRF.STAT_STAGED = 3 ∧ t.rd GRF.STAT_REJECT = s.openStaged.1.loadChecks s.openStaged.1.stagedBase ∧ Raised 0x60 1 t) ∧
  (s.awake = true → s.rd GRF.STAT_STAGED = 1 → s.openStaged.2 = 0 → s.openStaged.1.loadChecks s.openStaged.1.stagedBase = 0 →
    Completes .stageCheckDone s fun t => t.rd GRF.STAT_STAGED = 2 ∧ Raised 0x60 0 t) ∧
  (∀ v w, WriteReaches s 0x60 0x084 → w = s.rd GRF.COEF_ADDR_WORD →
    (s.graph.coefs.length < 256 → s.graph.coefHeld = [] →
      s.isHub = false ∨ s.mer.lastS = 0 ∨ sameCycle cyc400 s.mer.mer s.mer.lastS = false ∨ 16 ≤ s.rd GRF.COEF_STAT_APPLIED →
      Completes (.coefDataWrite v false) s fun t => t.graph.coefs = s.graph.coefs ++ [⟨w, v % 2 ^ 32, none, s.mer.mer⟩] ∧ t.rd GRF.COEF_STAT_DEPTH = s.graph.coefs.length + 1 ∧
      (s.on GRF.COEF_ADDR_AUTOINC = true → t.rd GRF.COEF_ADDR_WORD = (w + 1) % 2 ^ GRF.COEF_ADDR_WORD.width) ∧
      (s.on GRF.COEF_ADDR_AUTOINC = false → t.rd GRF.COEF_ADDR_WORD = w)) ∧
    (s.graph.coefs = [] → s.graph.coefHeld = [] → s.isHub = true → s.mer.lastS ≠ 0 → sameCycle cyc400 s.mer.mer s.mer.lastS = true →
      s.rd GRF.COEF_STAT_APPLIED < 16 → 4 * w + 4 ≤ 0x40000 → Completes (.coefDataWrite v false) s fun t =>
        t.graph.coefs = [] ∧ t.rd GRF.COEF_STAT_APPLIED = s.rd GRF.COEF_STAT_APPLIED + 1 ∧
        ∀ k, k < 4 → t.byte (s.coefBank + 4 * w + k) = (leBytes 4 v).getD k 0) ∧
    (256 ≤ s.graph.coefs.length → Completes (.coefDataWrite v false) s fun t => t.graph.coefs = s.graph.coefs ∧
      t.graph.coefHeld = s.graph.coefHeld ++ [⟨w, v % 2 ^ 32, none, s.mer.mer⟩] ∧
      t.rd GRF.LGD_CNT_COEF_WAIT = min (s.rd GRF.LGD_CNT_COEF_WAIT + 1) (2 ^ GRF.LGD_CNT_COEF_WAIT.width - 1)) ∧
    (∀ x d tm, s.graph.coefs.getLast? = some ⟨w, x, some d, tm⟩ → Completes (.coefDataWrite v true) s fun t => t.graph.coefs = s.graph.coefs ∧
      t.graph.coefHeld = s.graph.coefHeld ∧ t.rd GRF.CNT2_HOST_COLLIDE = min (s.rd GRF.CNT2_HOST_COLLIDE + 1) (2 ^ GRF.CNT2_HOST_COLLIDE.width - 1))) ∧
  (∀ c rest, s.awake = true → s.graph.coefHeld = c :: rest →
    (s.graph.coefs.length < 256 → Completes .coefWriteResume s fun t => t.graph.coefs = s.graph.coefs ++ [c] ∧ t.graph.coefHeld = rest) ∧
    (256 ≤ s.graph.coefs.length → Completes .coefWriteResume s fun t => t.graph = s.graph)) ∧
  (WriteReaches s 0x60 0x090 → s.on GRF.FBL_STAT_CFL = true → Completes .cflClear s fun t =>
    t.graph.cflClr = true ∧ t.rd GRF.FBL_STAT_CFL = s.rd GRF.FBL_STAT_CFL)

/-- The time sources (R55, R65 to R67, R71 to R74): a timeout counts and disqualifies its engine unless its message comes in the cycle (R54), an edge of PPS is kept and takes the armed second, a missing
one disqualifies PPS, TOD_HI arms the next second; REANCHOR and SWITCH_REQ act on qualified sources, as they are after the cycle's measurements and losses, and are refused with their event otherwise; PPS goes out on the
whole second.
Holdover and the time registers (R76, R77, R89): the holdover estimate is taken every millisecond and raises at its limit; a read of the low seconds latches
the Meridian for the other words.
It says that these commands complete, each with the result its clause gives, under hypotheses on state and operands alone: syncTimeout, announceTimeout,
ppsInEdge, ppsMissing, todArm, ppsOutPulse, reanchor, switchReq, holdoverUpdate, snapshotRead. -/
def Obligations.TimeSourcesAndTimeRegistersWork : Prop :=
  (∀ s : State,
  (∀ e < 2, ∀ due, s.awake = true → s.onI PG.ENABLE (9 + e) = true → s.inTime e due false = false → Completes (.syncTimeout ⟨e, due⟩) s fun t =>
    t.rdI PTP.CNT_SYNC_MISS e = min (s.rdI PTP.CNT_SYNC_MISS e + 3) 0xFF ∧ t.rdI PTP.STAT_QUALIFIED e = 0) ∧
  (∀ e < 2, ∀ due, s.awake = true → s.onI PG.ENABLE (9 + e) = true → s.inTime e due true = false → Completes (.announceTimeout ⟨e, due⟩) s fun t =>
    t.rdI PTP.CNT_ANN_TMO e = min (s.rdI PTP.CNT_ANN_TMO e + 1) 0xFF ∧ t.rdI PTP.STAT_QUALIFIED e = 0 ∧ t.rdI PTP.STAT_PORT_STATE e = 1) ∧
  (∀ e < 2, ∀ due, s.awake = true → s.inTime e due false = true → Completes (.syncTimeout ⟨e, due⟩) s fun t => t.regs = s.regs ∧ t.ptp = s.ptp) ∧
  (∀ e < 2, ∀ due, s.awake = true → s.inTime e due true = true → Completes (.announceTimeout ⟨e, due⟩) s fun t => t.regs = s.regs ∧ t.ptp = s.ptp) ∧
  (∀ at_, s.awake = true → s.on MER.PPS_CTL_IN_EN = true → Completes (.ppsInEdge at_) s fun t =>
    t.pps.last = some (at_ - s.rd MER.PPS_CTL_CABLE_DLY * (ns / 4)) ∧ t.pps.armed = false ∧
    t.pps.second = if s.pps.armed then s.rd MER.PPS_TOD_TOD_HI * 2 ^ 32 + s.rd MER.PPS_TOD_TOD_LO else s.pps.second + 1) ∧
  (∀ l, s.awake = true → s.pps.last = some l → (∀ at_, .ppsInEdge at_ ∉ s.pending) → Completes .ppsMissing s fun t => t.pps.last = none ∧ t.pps.qual = false ∧ Raised 0x08 7 t) ∧
  (∀ v, WriteReaches s 0x08 0x084 → Completes (.todArm v) s fun t => t.rd MER.PPS_TOD_TOD_HI = v % 2 ^ MER.PPS_TOD_TOD_HI.width ∧ t.pps.armed = true) ∧
  (s.awake = true → s.on MER.PPS_CTL_OUT_EN = true → Completes .ppsOutPulse s fun t => t.out = .ppsPulse (s.rd MER.PPS_CTL_OUT_W) :: s.out) ∧
  (∀ a, (s.used 0x08).afterDue = a → WriteReaches s 0x08 0x040 →
    (a.rd MER.STAT_STATE = 1 → a.qualified (a.rd MER.STAT_SRC) = true → s.follows = false → Completes .reanchor s fun t =>
      t.mer.stepDelta = some (a.srcOffset (a.rd MER.STAT_SRC)) ∧ t.rd MER.STAT_STEP_PENDING = 1) ∧
    (a.rd MER.STAT_STATE ≠ 1 → Completes .reanchor s fun t => t.mer.stepDelta = s.mer.stepDelta ∧ Raised 0x08 8 t) ∧
    (a.rd MER.STAT_STATE = 1 → a.rd MER.STAT_SRC < 2 → a.usable (1 - a.rd MER.STAT_SRC) = true → Completes .switchReq s fun t =>
      t.rd MER.STAT_SRC = 1 - a.rd MER.STAT_SRC ∧ Raised 0x08 3 t) ∧
    (a.rd MER.STAT_STATE ≠ 1 → Completes .switchReq s fun t => t.rd MER.STAT_SRC = s.rd MER.STAT_SRC ∧ Raised 0x08 9 t))) ∧
  (∀ s : State, s.awake = true →
  (s.rd MER.STAT_STATE = 2 → Completes .holdoverUpdate s fun t =>
    s.mer.hoLast + ms ≤ t.mer.uptime ∧ t.mer.hoLast = t.mer.uptime ∧
    t.rd MER.HO_EST_EST_NS = satNat 32 (s.holdoverScaled (t.mer.uptime - s.mer.hoStart) / (2000 * sec * ns)) ∧
    (s.rd MER.HO_LIMIT_LIMIT_NS * (2000 * sec * ns) < s.holdoverScaled (t.mer.uptime - s.mer.hoStart) → t.rd MER.STAT_HO_EXCEEDED ≠ 0)) ∧
  (s.busVerdict 0x08 0x048 false = .perform → Completes .snapshotRead s fun t =>
    t.out.head? = some (.readData 0x08 0x048 (s.mer.mer / sec % 2 ^ 32)) ∧ t.rd MER.TIME_NS = s.mer.mer % sec / ns ∧
    t.rd MER.TIME_S_HI = s.mer.mer / sec / 2 ^ 32 % 2 ^ MER.TIME_S_HI.width ∧ t.mer = { s.mer with snapMer := s.mer.mer, snapUp := s.mer.uptime }))

/-- The main PLL, the Meridian synthesizer, the reference monitor and the SerDes PLLs report what they find (R581, R589 to R593): each row sets or
clears its status, counts a loss and raises its event.
The supplies and the clock outputs (R583 to R586, R600): a sample is shown and a rail inside its limits is OK, and an output is changed only while
the islands it feeds are idle.
It says that these commands complete, each with the result its clause gives, under hypotheses on state and operands alone: pllLock, pllUnlock, msynLock,
msynUnlock, refMonitorWindow, serdesLock, serdesUnlock, supSample, clkOutWrite. -/
def Obligations.ClocksAndSuppliesAreReported : Prop :=
  (∀ s : State, s.awake = true →
  Completes .pllLock s (fun t => t.rd CLK.STAT_PLL_LOCK = 1 ∧ Raised 0x02 0 t) ∧
  (s.on CLK.STAT_PLL_LOCK = true → s.on CLK.CTL_LOCKSEL = false → Completes .pllUnlock s fun t =>
    t.rd CLK.STAT_PLL_LOCK = 0 ∧ t.rd CLK.CNT_UNLOCKS = min (s.rd CLK.CNT_UNLOCKS + 1) 0xFF ∧ Raised 0x02 1 t) ∧
  Completes .msynLock s (fun t => t.rd CLK.STAT_MSYN_LOCK = 1 ∧ t.pwr.synthRun = true) ∧
  (s.on CLK.STAT_MSYN_LOCK = true → Completes .msynUnlock s fun t => t.rd CLK.STAT_MSYN_LOCK = 0 ∧ Raised 0x02 4 t) ∧
  (∀ edges, Completes (.refMonitorWindow edges) s fun t =>
    t.mer.uptime = max s.mer.uptime (s.windowEnd refWindow) ∧
    t.pwr.refBad = (if edges < 248 ∨ 252 < edges then s.pwr.refBad + 1 else 0) ∧
    t.pwr.refGood = (if edges = 250 then s.pwr.refGood + 1 else 0)) ∧
  (∀ edges, (edges < 248 ∨ 252 < edges) → s.pwr.refBad = 1 → Completes (.refMonitorWindow edges) s fun t =>
    t.rd CLK.STAT_REF_OK = 0 ∧ Raised 0x02 2 t) ∧
  (s.pwr.refGood = 1 → s.on CLK.STAT_REF_OK = false → Completes (.refMonitorWindow 250) s fun t =>
    t.rd CLK.STAT_REF_OK = 1 ∧ Raised 0x02 3 t) ∧
  (∀ quad, quad ≤ 12 → s.serdesRuns quad = true → Completes (.serdesLock quad) s fun t => t.serdesLocked quad = true) ∧
  (∀ quad, quad ≤ 12 → s.serdesLocked quad = true → Completes (.serdesUnlock quad) s fun t =>
    t.serdesLocked quad = false ∧ t.rd CLK.CNT_SERDES_UNLOCKS = satNat 8 (s.rd CLK.CNT_SERDES_UNLOCKS + 1) ∧ Raised 0x02 5 t)) ∧
  (∀ s : State,
  (∀ mv gate, s.awake = true → Completes (.supSample mv gate) s fun t =>
    t.rd SUP.MEAS0_VDD = mv.getD 0 0 % 2 ^ 16 ∧ t.rd SUP.MEAS1_VDDAO = mv.getD 3 0 % 2 ^ 16 ∧ s.mer.uptime < t.mer.uptime ∧
    (s.railInside 0 (mv.getD 0 0) = true → t.rd SUP.STAT_VDD_OK = 1)) ∧
  (∀ n v, n < 8 → WriteReaches s 0x02 (0x060 + 4 * n) → s.outIdle n = true → Completes (.clkOutWrite n v) s fun t =>
    t.rdA CLK.OUT_EN 0 n = ofBool (bitOf v 16) ∧ t.rdA CLK.OUT_DELAY 0 n = bitsOf v 8 6) ∧
  (∀ n v, n < 8 → WriteReaches s 0x02 (0x060 + 4 * n) → s.outIdle n = false → bitOf v 16 = false → Completes (.clkOutWrite n v) s fun t =>
    t.rdA CLK.OUT_EN 0 n = s.rdA CLK.OUT_EN 0 n ∧ t.rdA CLK.OUT_DELAY 0 n = s.rdA CLK.OUT_DELAY 0 n ∧ t.rdI PG.ERR_CODE 0x02 = 4))

/-- The security mailbox and the entropy source (R550, R551, R554, R555): a command taken while none runs holds its code and as many bytes of the mailbox as LEN
gives, and BUSY; its end shows its status and code, clears BUSY and raises CMD_DONE; a failed entropy test is shown and raised, a passed one restores it.
Key slots and the version floor (R555, R557, R562, R575, Table 16-2), at the end of their commands on a hub with an identity: KEY_LOAD fills the slot,
KEY_ERASE empties it, ROLL_FWD raises the floor and never lowers it.
It says that these commands complete, each with the result its clause gives, under hypotheses on state and operands alone: claimCmd, attest, endorse,
dbgChallenge, dbgResponse, keyLoad, keyErase, rollFwd, cmdDone, entropyFail, entropyOk. -/
def Obligations.SecurityCommandsStartAndEnd : Prop :=
  (∀ s : State,
  (WriteReaches s 0xA0 0x040 → s.on SEC.STAT_BUSY = false → ∀ len < 2048,
    Completes (.claimCmd len) s (fun t => t.security.cmd = some (1, s.mbox (min 1024 len), s.mer.uptime) ∧ t.rd SEC.STAT_BUSY = 1) ∧
    Completes (.attest len) s (fun t => t.security.cmd = some (2, s.mbox (min 1024 len), s.mer.uptime) ∧ t.rd SEC.STAT_BUSY = 1) ∧
    Completes (.endorse len) s (fun t => t.security.cmd = some (3, s.mbox (min 1024 len), s.mer.uptime) ∧ t.rd SEC.STAT_BUSY = 1) ∧
    Completes (.dbgChallenge len) s (fun t => t.security.cmd = some (4, s.mbox (min 1024 len), s.mer.uptime) ∧ t.rd SEC.STAT_BUSY = 1) ∧
    Completes (.dbgResponse len) s (fun t => t.security.cmd = some (5, s.mbox (min 1024 len), s.mer.uptime) ∧ t.rd SEC.STAT_BUSY = 1) ∧
    Completes (.keyLoad len) s (fun t => t.security.cmd = some (6, s.mbox (min 1024 len), s.mer.uptime) ∧ t.rd SEC.STAT_BUSY = 1) ∧
    Completes (.keyErase len) s (fun t => t.security.cmd = some (7, s.mbox (min 1024 len), s.mer.uptime) ∧ t.rd SEC.STAT_BUSY = 1) ∧
    Completes (.rollFwd len) s (fun t => t.security.cmd = some (8, s.mbox (min 1024 len), s.mer.uptime) ∧ t.rd SEC.STAT_BUSY = 1)) ∧
  (WriteReaches s 0xA0 0x040 → s.on SEC.STAT_BUSY = true → ∀ len, Completes (.attest len) s fun t =>
    t.security.cmd = s.security.cmd ∧ t.rdI PG.ERR_CODE 0xA0 = 4) ∧
  (∀ cmd m asked, s.awake = true → s.security.cmd = some (cmd, m, asked) → cmd < 256 → (s.runCmd cmd m asked).1 < 256 → Completes .cmdDone s fun t =>
    t.security.cmd = none ∧ t.rd SEC.STAT_BUSY = 0 ∧ t.rd SEC.STAT_LAST_CMD = cmd ∧ t.rd SEC.STAT_LAST_RES = (s.runCmd cmd m asked).1 ∧ Raised 0xA0 0 t) ∧
  (s.awake = true → Completes .entropyFail s fun t => t.rd SEC.STAT_ENTROPY_OK = 0 ∧ t.security.entropyBad = true ∧ Raised 0xA0 1 t) ∧
  (s.awake = true → Completes .entropyOk s fun t => t.rd SEC.STAT_ENTROPY_OK = 1 ∧ t.security.entropyBad = false)) ∧
  (∀ (s : State) (m : Bytes) (asked : Nat), s.awake = true → s.isHub = true → s.on SEC.STAT_ID_OK = true →
  (s.security.cmd = some (6, m, asked) → leAt m 0 1 < 16 → leAt m 1 1 = 2 → leAt m 2 1 = 1 → Completes .cmdDone s fun t =>
    Sparse.get t.security.slots (leAt m 0 1) = some ⟨2, 1, leAt m 4 4, sliceBytes m 8 32⟩ ∧ t.bit SEC.KEYS_LOADED (leAt m 0 1) = true ∧ t.rd SEC.STAT_LAST_RES = 0) ∧
  (s.security.cmd = some (7, m, asked) → leAt m 0 1 < 16 → Completes .cmdDone s fun t =>
    Sparse.get t.security.slots (leAt m 0 1) = none ∧ t.bit SEC.KEYS_LOADED (leAt m 0 1) = false ∧ t.rd SEC.STAT_LAST_RES = 0) ∧
  (s.security.cmd = some (8, m, asked) → Completes .cmdDone s fun t => s.fuses.svnMin ≤ t.fuses.svnMin ∧ t.fuses.owner = s.fuses.owner ∧
    (s.fuses.svnMin < leAt m 0 1 → leAt m 0 1 ≤ min 64 s.security.bootSvn → t.fuses.svnMin = leAt m 0 1)))

/-- The frame of the operation commands (R291, R24): reading its inputs and computing, an operation changes no byte of memory, and a register only where it reports
a word in error that it has read; without such a word it changes the scheduler's state alone. Its outputs and state are written at OP_COMPLETE. -/
def Obligations.OperationsReadWithoutWriting : Prop := ∀ c : Instr, isOperation c = true →
  Touches c [0x00] [.record, .meridian, .msix, .graph, .diag] ∧
  ∀ s t, s.sramBad = [] → exec c s = .next t → Frame [] [.meridian, .graph] s t

/-- The frames of events that concern one block (R291, R629): each changes registers of its own page only, and of the rest of the state only the parts named;
raising an event adds what leaves the balls and the MSI-X messages. -/
def Obligations.EventsStayInTheirBlock : Prop :=
  Touches .bootDone [0x00] [.record, .msix] ∧
  Touches .digest [0x90] [.record, .msix, .link] ∧
  Touches .empty [] [.link] ∧
  Touches .entropyFail [0xA0] [.record, .msix, .security] ∧
  Touches .enum [0x40] [.link, .cell] ∧
  (∀ inputs, Touches (.gpioEdge inputs) [0xB2] [.record, .msix]) ∧
  (∀ bad, Touches (.hoistBuildDone bad) [0x00] [.record, .msix, .contour, .diag]) ∧
  Touches .holdoverUpdate [0x08] [.record, .meridian, .msix] ∧
  Touches .logRateDown [0x88] [] ∧
  Touches .msynLock [0x02] [.power] ∧
  Touches .msynUnlock [0x02] [.record, .msix] ∧
  Touches .pllLock [0x02] [.record, .meridian, .msix] ∧
  Touches .pllUnlock [0x02] [.record, .msix] ∧
  (∀ edges, Touches (.refMonitorWindow edges) [0x02] [.record, .meridian, .msix, .power]) ∧
  Touches .regParity [0x00] [.record, .msix, .diag] ∧
  (∀ mask, Touches (.plotBist mask) [0x00] [.record, .msix, .diag]) ∧
  Touches .resyncDone [0x90] [.record, .msix, .pair] ∧
  Touches .scanStart [0x81] [.meridian, .measure] ∧
  (∀ report, Touches (.selftestDone report) [0x5A, 0x58] [.record, .msix, .cell]) ∧
  (∀ quad, Touches (.serdesLock quad) [0x02] []) ∧
  (∀ quad, Touches (.serdesUnlock quad) [0x02] [.record, .msix]) ∧
  (∀ t, Touches (.tempHigh t) [0xB2] [.record, .msix]) ∧
  Touches .coefWriteResume [0x60] [.graph] ∧
  Touches .bootData [0x5A] [.link, .cell] ∧
  Touches .bootEnd [0x5A] [.link, .cell] ∧
  (∀ conn, Touches (.connLost conn) [0x99] [.record, .meridian, .msix, .safety]) ∧
  Touches .degrTimeout [0x98] [.record, .meridian, .msix, .safety] ∧
  (∀ temp, Touches (.otWarn temp) [0x5A] [.record, .msix, .cell]) ∧
  (∀ mean sub, Touches (.cniMonitorMean mean sub) [0x5A] [.record, .msix, .cell]) ∧
  Touches .noMatch [0x89] [.record, .meridian, .msix, .tri] ∧
  (∀ reading, Touches (.gateSupplyOk reading) [0x59] [.meridian]) ∧
  (∀ ch, Touches (.frozenEnd ch) [0x81] [.measure]) ∧
  Touches .lcPeriodBoundary [0x58] [.record, .meridian, .msix, .edge] ∧
  (∀ chan, Touches (.millerTmo chan) [0x59] [.record, .meridian, .msix, .edge]) ∧
  (∀ up speed width msix, Touches (.pcieLinkChange up speed width msix) [0xB0] [.record, .msix, .host]) ∧
  Touches .drill [0x90] [.record, .meridian, .msix, .pair] ∧
  Touches .prefReturn [0x90] [.meridian, .pair] ∧
  Touches .aloneTimeout [0x90] [.record, .meridian, .msix, .pair] ∧
  (∀ hops records branches, Touches (.trunkBringup hops records branches) [0x40] [.record, .msix, .link, .security]) ∧
  (∀ sel, Touches (.converterStart sel) [] [.meridian, .measure]) ∧
  (∀ chan mv, Touches (.gatePhaseEnd chan mv) [] [.meridian, .edge]) ∧
  (∀ f, Touches (.ssiReadStart f) [] [.record, .meridian, .feedback]) ∧
  (∀ page, Touches (.softResetDone page) [] [.meridian, .power]) ∧
  (∀ m, Touches (.refreshBurst m) [] [.record, .meridian, .gate]) ∧
  Touches .bptPulse [] [.record, .meridian, .cell] ∧
  Touches .ppsOutPulse [] [.record, .meridian] ∧
  (∀ ring, Touches (.rekeyStart ring) [] [.record, .link]) ∧
  Touches .regRsp [] [.memory, .link] ∧
  (∀ ring, Touches (.hoistExpire ring) [] [.link]) ∧
  Touches .mirrorWriteResume [] [.pair] ∧
  Touches .spiStatus [] [.record] ∧
  Touches .chartDeadline [0x60] [.record, .meridian, .msix, .graph, .diag] ∧
  (∀ ring, Touches (.splitBroadcast ring) [0x40] [.memory, .link]) ∧
  (∀ port typ target payload, Touches (.penRequestLaunch port typ target payload) [0x40] [.memory, .link])

/-- The frames of register writes that command one block (R487, R606, R619, R620, R640, R645): each changes registers of its own page, what the bus does with an
access (a held one asks the arbiter, a failed one is recorded, a mirrored one waits for its boundary), and of the rest only the parts named. -/
def Obligations.RegisterCommandsStayInTheirBlock : Prop :=
  (∀ value, Touches (.budgetWrite value) [0x01, 0x41, 0xB0] busParts) ∧
  Touches .cflClear [0x60, 0x01, 0x41, 0xB0] ([.graph] ++ busParts) ∧
  Touches .commit [0x58, 0x01, 0x41, 0xB0] ([.edge] ++ busParts) ∧
  (∀ mask, Touches (.tripClear mask) [0x58, 0x01, 0x41, 0xB0] ([.edge] ++ busParts)) ∧
  (∀ on, Touches (.run on) [0x60, 0x61, 0xB1, 0x01, 0x41, 0xB0] ([.memory, .graph, .security, .diag] ++ busParts)) ∧
  Touches .stage [0x60, 0x61, 0xB1, 0x01, 0x41, 0xB0] ([.memory, .graph, .security, .diag] ++ busParts) ∧
  Touches .swap [0x60, 0x61, 0xB1, 0x01, 0x41, 0xB0] ([.memory, .graph, .security, .diag] ++ busParts) ∧
  Touches .swapCancel [0x60, 0x61, 0xB1, 0x01, 0x41, 0xB0] ([.memory, .graph, .security, .diag] ++ busParts) ∧
  (∀ value collides, Touches (.coefDataWrite value collides) [0x60, 0xB1, 0x01, 0x41, 0xB0] ([.memory, .graph] ++ busParts)) ∧
  (∀ on, Touches (.clrEnable on) [0x90, 0x01, 0x41, 0xB0] busParts) ∧
  Touches .handover [0x90, 0x01, 0x41, 0xB0] busParts ∧
  Touches .faultClr [0x90, 0x01, 0x41, 0xB0] busParts ∧
  Touches .svyArm [0x88, 0x01, 0x41, 0xB0] ([.survey] ++ busParts) ∧
  (∀ mask, Touches (.segmentFree mask) [0x88, 0x01, 0x41, 0xB0] busParts) ∧
  Touches .timingApply [0x48, 0x01, 0x41, 0xB0] busParts ∧
  Touches .reanchor [0x08, 0x09, 0x0A, 0x01, 0x41, 0xB0] ([.meridian, .sources] ++ busParts) ∧
  (∀ value, Touches (.todArm value) [0x08, 0x01, 0x41, 0xB0] ([.sources] ++ busParts)) ∧
  (∀ len, Touches (.attest len) [0xA0, 0x01, 0x41, 0xB0] ([.security] ++ busParts)) ∧
  (∀ len, Touches (.claimCmd len) [0xA0, 0x01, 0x41, 0xB0] ([.security] ++ busParts)) ∧
  (∀ len, Touches (.dbgChallenge len) [0xA0, 0x01, 0x41, 0xB0] ([.security] ++ busParts)) ∧
  (∀ len, Touches (.dbgResponse len) [0xA0, 0x01, 0x41, 0xB0] ([.security] ++ busParts)) ∧
  (∀ len, Touches (.endorse len) [0xA0, 0x01, 0x41, 0xB0] ([.security] ++ busParts)) ∧
  (∀ len, Touches (.keyErase len) [0xA0, 0x01, 0x41, 0xB0] ([.security] ++ busParts)) ∧
  (∀ len, Touches (.keyLoad len) [0xA0, 0x01, 0x41, 0xB0] ([.security] ++ busParts)) ∧
  (∀ len, Touches (.rollFwd len) [0xA0, 0x01, 0x41, 0xB0] ([.security] ++ busParts)) ∧
  (∀ ring, Touches (.rekeyNow ring) [0xA0, 0x01, 0x41, 0xB0] ([.link] ++ busParts)) ∧
  Touches .bootStreamStart [0x40, 0x01, 0x41, 0xB0] ([.link] ++ busParts) ∧
  Touches .bootStreamStop [0x40, 0x01, 0x41, 0xB0] ([.link] ++ busParts) ∧
  (∀ cell, Touches (.suspectClr cell) [0xA0, 0x01, 0x41, 0xB0] ([.contour] ++ busParts)) ∧
  (∀ a, Touches (.push a) [axisPage a, 0x01, 0x41, 0xB0] ([.axes] ++ busParts)) ∧
  (∀ a, Touches (.replace a) [axisPage a, 0x01, 0x41, 0xB0] ([.axes] ++ busParts)) ∧
  (∀ a, Touches (.stop a) [axisPage a, 0x01, 0x41, 0xB0] ([.axes] ++ busParts)) ∧
  (∀ a, Touches (.flush a) [axisPage a, 0x01, 0x41, 0xB0] ([.axes] ++ busParts)) ∧
  (∀ a, Touches (.gearIn a) [axisPage a, 0x01, 0x41, 0xB0] ([.axes] ++ busParts)) ∧
  (∀ a, Touches (.gearOut a) [axisPage a, 0x01, 0x41, 0xB0] ([.axes] ++ busParts)) ∧
  (∀ a, Touches (.fblClr a) [axisPage a, 0x01, 0x41, 0xB0] ([.axes] ++ busParts))

/-- The frames of the commands that act on several blocks (R35, R291, R622, R629): each leaves every part of the state but those named as it was; a read
of a register reads only, where no write of its cycle stands before it. -/
def Obligations.LargerCommandsKeepTheOtherParts : Prop :=
  (∀ cnf, TouchesParts (.strideBoundary cnf) [.memory, .record, .meridian, .msix, .timing, .link, .contour, .graph, .axes, .measure, .survey, .pair, .security, .diag, .host]) ∧
  (∀ retraining, TouchesParts (.cellTableCutoff retraining) [.memory, .record, .meridian, .msix, .link, .contour, .pair]) ∧
  (∀ port t data, TouchesParts (.hoistTrailerReceived port t data) [.memory, .record, .meridian, .msix, .link, .contour, .survey, .pair]) ∧
  (∀ port t head, TouchesParts (.hubHeaderCheck port t head) [.record, .meridian, .msix, .pair]) ∧
  (∀ lane t data, TouchesParts (.strideFrame lane t data) [.record, .meridian, .msix, .pair]) ∧
  (∀ side t data, TouchesParts (.hoistPass side t data) [.record, .meridian, .sources, .msix, .timing, .link, .contour, .cell, .edge, .gate, .graph, .axes, .feedback, .measure, .survey]) ∧
  (∀ cni cniOvr cniBelow endSide junction cnf, TouchesParts (.cellBoundary cni cniOvr cniBelow endSide junction cnf) [.memory, .record, .meridian, .msix, .cell, .edge, .gate, .measure, .host]) ∧
  (∀ temp, TouchesParts (.otTrip temp) [.record, .msix, .cell, .edge, .gate, .measure]) ∧
  TouchesParts .ov2 [.record, .msix, .cell, .edge, .gate, .measure] ∧
  TouchesParts .forcedRefill [.record, .msix, .cell, .edge, .gate, .measure] ∧
  (∀ taps, TouchesParts (.delayLineCal taps) [.record, .msix]) ∧
  (∀ port, TouchesParts (.blockLockLoss port) [.record, .msix]) ∧
  (∀ port neighbour, TouchesParts (.retrainOk port neighbour) [.record, .msix]) ∧
  (∀ port, TouchesParts (.hopDown port) [.record, .msix]) ∧
  (∀ port up anDone remoteFault txLat rxLat, TouchesParts (.ethLinkChange port up anDone remoteFault txLat rxLat) [.record, .msix]) ∧
  (∀ n input, TouchesParts (.tripActive n input) [.record, .meridian, .msix, .edge, .gate, .measure]) ∧
  (∀ m, TouchesParts (.deckStartTimeout m) [.record, .meridian, .msix, .edge, .gate, .measure]) ∧
  (∀ reading, TouchesParts (.gateSupplyLow reading) [.record, .meridian, .msix, .edge, .gate, .measure]) ∧
  (∀ n reading, TouchesParts (.desaturation n reading) [.record, .meridian, .msix, .edge, .gate, .measure]) ∧
  (∀ ovr value, TouchesParts (.edgMapWrite ovr value) [.record, .msix, .edge, .gate, .pair, .power, .host]) ∧
  (∀ e, TouchesParts (.tevFire e) [.record, .meridian, .msix, .measure]) ∧
  (∀ ok ofs gain skew, TouchesParts (.calStep ok ofs gain skew) [.record, .meridian, .msix, .measure]) ∧
  (∀ m bits, TouchesParts (.deckFrame m bits) [.record, .msix, .edge, .gate, .measure]) ∧
  TouchesParts .genLow [.record, .msix, .edge, .gate, .measure] ∧
  (∀ value, TouchesParts (.gateEnWrite value) [.record, .msix, .edge, .gate, .measure, .pair, .power, .host]) ∧
  (∀ ring trained n marks fwd rev, TouchesParts (.ringBringup ring trained n marks fwd rev) [.memory, .record, .msix, .link, .contour, .pair, .security, .power, .host]) ∧
  (∀ ring, TouchesParts (.ringTakeDown ring) [.record, .msix, .link, .contour, .pair, .power, .host]) ∧
  (∀ port t data, TouchesParts (.trunkHoistReceived port t data) [.record, .meridian, .sources, .msix, .link, .contour, .cell, .edge, .gate, .graph, .axes, .feedback, .measure]) ∧
  TouchesParts .stepApply [.record, .meridian, .sources, .msix, .link, .contour, .cell, .edge, .gate, .graph, .axes, .feedback, .measure] ∧
  (∀ ring target txn, TouchesParts (.penTmo ring target txn) [.memory, .record, .meridian, .msix, .link]) ∧
  (∀ ring, TouchesParts (.hubCred ring) [.memory, .link, .cell, .security]) ∧
  (∀ ring, TouchesParts (.cellCred ring) [.memory, .link, .cell, .security]) ∧
  (∀ ring cell, TouchesParts (.keyWrap ring cell) [.memory, .record, .msix, .link, .cell]) ∧
  (∀ ring, TouchesParts (.keyAck ring) [.memory, .record, .msix, .link, .cell, .pair]) ∧
  (∀ ring cell marks, TouchesParts (.latAdj ring cell marks) [.memory, .record, .msix, .link]) ∧
  (∀ ring hop, TouchesParts (.hopRelease ring hop) [.memory, .record, .msix, .link]) ∧
  (∀ ring cell, TouchesParts (.linkBypass ring cell) [.memory, .link, .cell]) ∧
  (∀ due, TouchesParts (.syncTimeout due) [.record, .meridian, .sources, .msix]) ∧
  (∀ due, TouchesParts (.announceTimeout due) [.record, .meridian, .sources, .msix]) ∧
  (∀ t, TouchesParts (.ppsInEdge t) [.record, .meridian, .sources, .msix]) ∧
  TouchesParts .ppsMissing [.record, .meridian, .sources, .msix] ∧
  (∀ port t frame, TouchesParts (.ethFrameRx port t frame) [.memory, .record, .meridian, .sources, .msix, .graph, .measure, .ethernet, .tri, .safety, .power, .host]) ∧
  (∀ port, TouchesParts (.ethTx port) [.record, .meridian, .msix, .ethernet]) ∧
  (∀ on, TouchesParts (.ctrEnable on) [.record, .msix, .contour, .pair, .power, .host]) ∧
  (∀ group on, TouchesParts (.ctgEnable group on) [.memory, .record, .msix, .contour, .pair, .power, .host]) ∧
  (∀ t, TouchesParts (.opDispatch t) [.memory, .record, .meridian, .msix, .graph]) ∧
  (∀ d, TouchesParts (.legEnd d) [.memory, .record, .meridian, .msix, .graph]) ∧
  (∀ due, TouchesParts (.waitTmo due) [.memory, .record, .meridian, .msix, .graph]) ∧
  TouchesParts .chartStart [.memory, .record, .meridian, .msix, .graph] ∧
  (∀ d, TouchesParts (.waitMet d) [.memory, .record, .msix, .graph]) ∧
  (∀ d, TouchesParts (.opComplete d) [.memory, .record, .meridian, .msix, .contour, .graph, .axes, .measure, .host]) ∧
  (∀ idx, TouchesParts (.cancel idx) [.memory, .record, .msix, .graph, .pair, .power, .host]) ∧
  (∀ axis, TouchesParts (.pushResume axis) [.axes]) ∧
  (∀ f a b at_, TouchesParts (.encoderEdge f a b at_) [.record, .meridian, .msix, .axes, .feedback, .measure, .safety]) ∧
  (∀ f u v w at_, TouchesParts (.hallChange f u v w at_) [.record, .meridian, .msix, .axes, .feedback, .measure, .safety]) ∧
  (∀ f at_, TouchesParts (.index f at_) [.record, .meridian, .msix, .axes, .feedback, .measure, .safety]) ∧
  (∀ n rising at_, TouchesParts (.latch n rising at_) [.record, .meridian, .msix, .axes, .feedback, .measure, .safety]) ∧
  (∀ f, TouchesParts (.hallInvalid f) [.record, .msix, .feedback]) ∧
  (∀ f input low, TouchesParts (.lineFault f input low) [.record, .msix, .feedback]) ∧
  (∀ f resp ack back t, TouchesParts (.ssiReadDone f resp ack back t) [.record, .meridian, .msix, .axes, .feedback, .measure]) ∧
  (∀ f, TouchesParts (.fbkValid f) [.record, .meridian, .msix, .axes, .feedback]) ∧
  (∀ axis value, TouchesParts (.datumArm axis value) [.record, .msix, .pair, .power, .host]) ∧
  (∀ out value, TouchesParts (.clkOutWrite out value) [.record, .msix, .pair, .power, .host]) ∧
  (∀ ring value, TouchesParts (.hostRingPiWrite ring value) [.record, .msix, .pair, .power, .host]) ∧
  (∀ page bits, TouchesParts (.evtPendWrite page bits) [.record, .msix, .pair, .power, .host]) ∧
  (∀ page bits, TouchesParts (.evtRawWrite page bits) [.record, .msix, .pair, .power, .host]) ∧
  (∀ page mask, TouchesParts (.evtForce page mask) [.record, .msix, .pair, .power, .host]) ∧
  (∀ value, TouchesParts (.qspiStart value) [.record, .msix, .pair, .power, .host]) ∧
  TouchesParts .bootGo [.record, .msix, .pair, .power, .host] ∧
  (∀ axis, TouchesParts (.datumSet axis) [.record, .msix, .axes, .measure, .safety]) ∧
  (∀ axis, TouchesParts (.swLatch axis) [.record, .msix, .axes, .measure, .pair, .power, .host]) ∧
  (∀ page on, TouchesParts (.freeze page on) [.record, .msix, .axes, .measure, .pair, .power, .host]) ∧
  (∀ axis, TouchesParts (.latchPop axis) [.record, .msix, .axes, .power, .host]) ∧
  (∀ axis c value, TouchesParts (.cmpArm axis c value) [.record, .meridian, .msix, .axes, .feedback, .measure, .pair, .safety, .power, .host]) ∧
  (∀ k t, TouchesParts (.startEvent k t) [.record, .msix, .measure]) ∧
  (∀ ch, TouchesParts (.frozen ch) [.record, .msix, .measure]) ∧
  (∀ ch slice, TouchesParts (.sliceFrozen ch slice) [.record, .msix, .measure]) ∧
  (∀ ch code side t collides, TouchesParts (.cniWindowClose ch code side t collides) [.memory, .record, .meridian, .msix, .measure, .host]) ∧
  (∀ res, TouchesParts (.scanDone res) [.memory, .record, .meridian, .msix, .measure, .host]) ∧
  (∀ stream, TouchesParts (.svLost stream) [.memory, .record, .meridian, .msix]) ∧
  (∀ est ago late, TouchesParts (.pmuReport est ago late) [.record, .msix, .measure, .ethernet]) ∧
  (∀ est, TouchesParts (.pmuIntRecord est) [.memory, .record, .msix, .measure]) ∧
  (∀ ch words t sample, TouchesParts (.levelTrigger ch words t sample) [.record, .meridian, .msix, .cell, .survey]) ∧
  (∀ ch words t sample, TouchesParts (.slopeTrigger ch words t sample) [.record, .meridian, .msix, .cell, .survey]) ∧
  (∀ inputs t sample, TouchesParts (.patternTrigger inputs t sample) [.record, .meridian, .msix, .cell, .survey]) ∧
  (∀ t raw frozen fifo, TouchesParts (.groupWritten t raw frozen fifo) [.memory, .record, .msix, .survey]) ∧
  (∀ words, TouchesParts (.svyRdData words) [.record, .msix, .power, .diag, .host]) ∧
  (∀ det a b t quiet, TouchesParts (.front det a b t quiet) [.record, .meridian, .msix, .ethernet, .tri]) ∧
  TouchesParts .peerResend [.record, .meridian, .msix, .ethernet, .tri] ∧
  (∀ lane data, TouchesParts (.ringDig lane data) [.pair]) ∧
  (∀ lane data, TouchesParts (.lateFrame lane data) [.pair]) ∧
  (∀ lane data, TouchesParts (.mirrorFrame lane data) [.pair]) ∧
  (∀ lane data, TouchesParts (.stateFrame lane data) [.memory, .link, .contour, .axes, .pair]) ∧
  (∀ len overrun selfBad changes moves high low dark, TouchesParts (.safetyCycle len overrun selfBad changes moves high low dark) [.record, .meridian, .msix, .cell, .edge, .gate, .measure, .ethernet, .safety, .diag]) ∧
  (∀ bad, TouchesParts (.supFault bad) [.record, .msix, .cell, .edge, .gate, .measure, .safety, .diag]) ∧
  (∀ conn net, TouchesParts (.netLost conn net) [.record, .meridian, .msix, .safety]) ∧
  (∀ ring, TouchesParts (.keyExpired ring) [.record, .msix, .link]) ∧
  (∀ island, TouchesParts (.priorityRequest island) []) ∧
  (∀ island, TouchesParts (.islandRelease island) [.record, .meridian, .msix]) ∧
  (∀ mv gate, TouchesParts (.supSample mv gate) [.record, .meridian, .msix, .power, .diag]) ∧
  (∀ ofs data ties, TouchesParts (.bar2Write ofs data ties) [.memory, .record, .msix, .graph, .pair, .host]) ∧
  (∀ singles doubles, TouchesParts (.scrubPass singles doubles) [.memory, .record, .msix, .diag]) ∧
  (∀ ring, TouchesParts (.ringWriteResume ring) [.memory, .link, .host]) ∧
  (∀ engine data collides, TouchesParts (.dmaHostToSram engine data collides) [.memory, .record, .msix, .graph, .diag, .host]) ∧
  (∀ engine taken, TouchesParts (.dmaSramToHost engine taken) [.memory, .record, .msix, .graph, .diag, .host]) ∧
  (∀ engine, TouchesParts (.dmaNoTransfer engine) [.memory, .record, .msix, .graph, .diag, .host]) ∧
  (∀ engine, TouchesParts (.dmaComplete engine) [.memory, .record, .msix, .host]) ∧
  (∀ data, TouchesParts (.qspiDone data) [.record, .msix, .host]) ∧
  TouchesParts .pcieReset [.record, .msix, .host] ∧
  (∀ page, TouchesParts (.pageLock page) [.record, .msix, .pair, .safety, .power, .host]) ∧
  (∀ page, TouchesParts (.pageUnlock page) [.record, .msix, .pair, .safety, .power, .host]) ∧
  TouchesParts .faultAck [.record, .msix, .pair, .safety, .power, .host] ∧
  TouchesParts .safReset [.record, .msix, .pair, .safety, .power, .host] ∧
  (∀ at_ size, TouchesParts (.rcFieldRead at_ size) [.record, .meridian, .msix, .axes, .measure, .tri, .power, .host]) ∧
  (∀ axis t, TouchesParts (.electricalCompareFire axis t) [.record, .meridian, .msix, .axes, .measure]) ∧
  TouchesParts .sortStageStart [.memory, .record, .meridian, .msix, .contour, .pair, .diag] ∧
  TouchesParts .sortStageDone [.record, .msix, .contour] ∧
  TouchesParts .edgeStageStart [.memory, .record, .meridian, .msix, .contour] ∧
  TouchesParts .edgeStageDone [.memory, .record, .msix, .contour, .diag] ∧
  TouchesParts .flagDeadline [.record, .meridian, .msix, .cell, .edge] ∧
  TouchesParts .orphanTimeout [.record, .meridian, .msix, .cell, .edge, .gate, .measure] ∧
  TouchesParts .bootWindowExpiry [.record, .meridian, .msix, .cell, .edge, .gate, .measure] ∧
  TouchesParts .edgeAction [.record, .meridian, .msix, .cell, .edge, .gate, .measure] ∧
  TouchesParts .bootRetry [.record, .msix, .cell, .pair, .power, .host] ∧
  TouchesParts .accountUpdate [.record, .meridian, .msix, .gate] ∧
  TouchesParts .genClear [.record, .msix, .edge, .gate] ∧
  TouchesParts .switchReq [.record, .meridian, .sources, .msix, .pair, .power, .host] ∧
  TouchesParts .snapshotRead [.record, .meridian, .msix, .power, .host] ∧
  TouchesParts .stageCheckDone [.memory, .record, .meridian, .msix, .graph, .security] ∧
  TouchesParts .disarm [.memory, .record, .msix, .link, .survey, .pair, .power, .host] ∧
  TouchesParts .force [.record, .msix, .cell, .survey, .pair, .power, .host] ∧
  TouchesParts .frontPop [.record, .msix, .tri, .power, .host] ∧
  TouchesParts .resyncTransfer [.record, .msix, .pair, .diag] ∧
  TouchesParts .cmdDone [.record, .meridian, .msix, .security, .fuses] ∧
  TouchesParts .arbiterCycle [.record, .meridian, .msix, .power] ∧
  TouchesParts .keyAgreeOperationDone [.record, .meridian, .msix, .link, .cell, .security] ∧
  TouchesParts .entropyOk [.record, .security, .fuses] ∧
  (∀ addr whole, TouchesParts (.spiRead addr ⟨whole, false⟩) [.record, .meridian, .msix, .axes, .measure, .tri, .power, .host]) ∧
  (∀ s t, (∀ q ∈ s.pens, q.isType 2 = false) → exec .regRd s = .next t →
    ∀ p, p ∉ [Part.record, .meridian, .msix, .link, .cell, .axes, .measure, .tri, .power, .host] → p.same s t)
end

