-- ==== Sys2Proof/Laws/Bytes.lean ====
section
/-! SUPPORT. Bytes of words: a word put into bytes and taken back, the length of a field, and the range of CRC-32. -/

namespace Sys2Proof.Machine

@[simp] theorem length_leBytes (n v : Nat) : (leBytes n v).length = n := by
  induction n generalizing v with
  | zero => rfl
  | succ n ih => simp [leBytes, ih]

/-- A word taken from the bytes that it was put into is the word modulo their width (R9). -/
theorem ofLe_leBytes (n v : Nat) : ofLe (leBytes n v) = v % 256 ^ n := by
  induction n generalizing v with
  | zero => simp [leBytes, ofLe, Nat.mod_one]
  | succ n ih =>
    have e : (BitVec.ofNat 8 v).toNat = v % 256 := by simp
    rw [leBytes, ofLe, ih, e, Nat.pow_succ', Nat.mod_mul]

@[simp] theorem length_sliceBytes (bs : Bytes) (o n : Nat) : (sliceBytes bs o n).length = n := by simp [sliceBytes]

@[simp] theorem length_tagBytes (n : Nat) (key nonce data : Bytes) : (tagBytes n key nonce data).length = n := by simp [tagBytes]

theorem ofLe_lt (bs : Bytes) : ofLe bs < 256 ^ bs.length := by
  induction bs with
  | nil => simp [ofLe]
  | cons b bs ih =>
    have hb := b.isLt
    simp only [ofLe, List.length_cons, Nat.pow_succ]
    omega

/-- A field of `n` bytes is below 256 ^ n. -/
theorem leAt_lt (bs : Bytes) (o n : Nat) : leAt bs o n < 256 ^ n := by
  simpa [leAt] using ofLe_lt (sliceBytes bs o n)

theorem crc32Bit_lt {c : Nat} (h : c < 2 ^ 32) : crc32Bit c < 2 ^ 32 := by
  unfold crc32Bit
  split
  · exact Nat.xor_lt_two_pow (by omega) (by norm_num)
  · omega

/-- CRC-32 fits its four bytes (R104). -/
theorem crc32_lt (bs : Bytes) : crc32 bs < 2 ^ 32 := by
  have bits : ∀ (l : List Nat) (c : Nat), c < 2 ^ 32 → l.foldl (fun c _ => crc32Bit c) c < 2 ^ 32 := by
    intro l
    induction l with
    | nil => exact fun _ h => h
    | cons x l ih => exact fun c h => ih _ (crc32Bit_lt h)
  have all : ∀ (bs : Bytes) (c : Nat), c < 2 ^ 32 →
      bs.foldl (fun c b => (List.range 8).foldl (fun c _ => crc32Bit c) (c ^^^ b.toNat)) c < 2 ^ 32 := by
    intro bs
    induction bs with
    | nil => exact fun _ h => h
    | cons b bs ih =>
      intro c h
      exact ih _ (bits _ _ (Nat.xor_lt_two_pow h (by have := b.isLt; omega)))
  exact Nat.xor_lt_two_pow (all bs _ (by norm_num)) (by norm_num)

/-- The CRC-32 taken from its four bytes. -/
theorem ofLe_crc32 (bs : Bytes) : ofLe (leBytes 4 (crc32 bs)) = crc32 bs := by
  rw [ofLe_leBytes, Nat.mod_eq_of_lt (by simpa using crc32_lt bs)]

end Sys2Proof.Machine
end

