-- ==== Sys2Proof/Laws/Sparse.lean ====
section
/-! SUPPORT. Sparse lists: what a key reads after a change, and that a change keeps the rising order. -/

namespace Sys2Proof.Machine

theorem Sparse.get_insert {α : Type} (l : List (Nat × α)) (k j : Nat) (v : α) :
    Sparse.get (Sparse.insert l k v) j = if j = k then some v else Sparse.get l j := by
  induction l with
  | nil => simp [Sparse.insert, Sparse.get, eq_comm]
  | cons c t ih =>
    obtain ⟨i, w⟩ := c
    simp only [Sparse.insert]
    split
    · simp only [Sparse.get]; grind
    · split <;> simp only [Sparse.get] <;> grind

theorem Sparse.get_erase {α : Type} (l : List (Nat × α)) (k j : Nat) :
    Sparse.get (Sparse.erase l k) j = if j = k then none else Sparse.get l j := by
  induction l with
  | nil => simp [Sparse.erase, Sparse.get]
  | cons c t ih =>
    obtain ⟨i, w⟩ := c
    simp only [Sparse.erase]
    split <;> simp only [Sparse.get] <;> grind

/-- What a key reads after a change of one key. -/
theorem Sparse.get_put {α : Type} (l : List (Nat × α)) (k j : Nat) (o : Option α) :
    Sparse.get (Sparse.put l k o) j = if j = k then o else Sparse.get l j := by
  cases o with
  | none => exact Sparse.get_erase l k j
  | some v => exact Sparse.get_insert l k j v

/-- A lower bound that holds before an insertion above it holds after. -/
theorem Sparse.rising_insert {α : Type} (l : List (Nat × α)) (b : Option Nat) (k : Nat) (v : α)
    (h : Sparse.rising b l = true) (hb : ∀ c, b = some c → c < k) :
    Sparse.rising b (Sparse.insert l k v) = true := by
  induction l generalizing b with
  | nil => cases b <;> simp_all [Sparse.insert, Sparse.rising]
  | cons c t ih =>
    obtain ⟨i, w⟩ := c
    simp only [Sparse.insert]
    simp only [Sparse.rising, Bool.and_eq_true] at h
    split
    · cases b <;> simp_all [Sparse.rising]
    · split
      · subst_vars
        cases b <;> simp_all [Sparse.rising]
      · have := ih (some i) h.2 (by grind)
        cases b <;> simp_all [Sparse.rising]

theorem Sparse.rising_weaken {α : Type} (l : List (Nat × α)) (a : Nat) (b : Option Nat)
    (h : Sparse.rising (some a) l = true) (hb : ∀ c, b = some c → c ≤ a) : Sparse.rising b l = true := by
  cases l with
  | nil => rfl
  | cons c t => cases b <;> simp_all [Sparse.rising]; grind

theorem Sparse.rising_erase {α : Type} (l : List (Nat × α)) (b : Option Nat) (k : Nat)
    (h : Sparse.rising b l = true) : Sparse.rising b (Sparse.erase l k) = true := by
  induction l generalizing b with
  | nil => rfl
  | cons c t ih =>
    obtain ⟨i, w⟩ := c
    simp only [Sparse.rising, Bool.and_eq_true] at h
    simp only [Sparse.erase]
    split
    · refine Sparse.rising_weaken _ i b (ih _ h.2) ?_
      intro c hc; subst hc; simpa using Nat.le_of_lt (by simpa using h.1)
    · simp only [Sparse.rising, Bool.and_eq_true]
      exact ⟨h.1, ih _ h.2⟩

/-- A change of one key keeps the rising order. -/
theorem Sparse.rising_put {α : Type} (l : List (Nat × α)) (k : Nat) (o : Option α)
    (h : Sparse.rising none l = true) : Sparse.rising none (Sparse.put l k o) = true := by
  cases o with
  | none => exact Sparse.rising_erase l none k h
  | some v => exact Sparse.rising_insert l none k v h (by simp)

/-- Every entry after an insertion is the new one or stood before. -/
theorem Sparse.mem_insert {α : Type} (l : List (Nat × α)) (k : Nat) (v : α) (c : Nat × α)
    (h : c ∈ Sparse.insert l k v) : c = (k, v) ∨ c ∈ l := by
  induction l with
  | nil => simpa [Sparse.insert] using h
  | cons d t ih =>
    obtain ⟨i, w⟩ := d
    simp only [Sparse.insert] at h
    split at h
    · simpa using h
    · split at h <;> simp only [List.mem_cons] at h ⊢ <;> grind

theorem Sparse.mem_erase {α : Type} (l : List (Nat × α)) (k : Nat) (c : Nat × α)
    (h : c ∈ Sparse.erase l k) : c ∈ l := by
  induction l with
  | nil => simpa [Sparse.erase] using h
  | cons d t ih =>
    obtain ⟨i, w⟩ := d
    simp only [Sparse.erase] at h
    split at h <;> simp only [List.mem_cons] at h ⊢ <;> grind

end Sys2Proof.Machine
end

