-- ==== Sys2Proof/Laws/State.lean ====
section
/-! SUPPORT. What the named operations on the state leave as it was, one lemma a field of State and an operation. -/

namespace Sys2Proof.Machine

set_option Elab.async false

/-! A register field written. -/

@[simp] theorem State.wrA_straps (s : State) (f : RegField) (pg idx v : Nat) : (s.wrA f pg idx v).straps = s.straps := rfl
@[simp] theorem State.wrA_por (s : State) (f : RegField) (pg idx v : Nat) : (s.wrA f pg idx v).por = s.por := rfl
@[simp] theorem State.wrA_frozen (s : State) (f : RegField) (pg idx v : Nat) : (s.wrA f pg idx v).frozen = s.frozen := rfl
@[simp] theorem State.wrA_sram (s : State) (f : RegField) (pg idx v : Nat) : (s.wrA f pg idx v).sram = s.sram := rfl
@[simp] theorem State.wrA_sramBad (s : State) (f : RegField) (pg idx v : Nat) : (s.wrA f pg idx v).sramBad = s.sramBad := rfl
@[simp] theorem State.wrA_freeCtr (s : State) (f : RegField) (pg idx v : Nat) : (s.wrA f pg idx v).freeCtr = s.freeCtr := rfl
@[simp] theorem State.wrA_out (s : State) (f : RegField) (pg idx v : Nat) : (s.wrA f pg idx v).out = s.out := rfl
@[simp] theorem State.wrA_mer (s : State) (f : RegField) (pg idx v : Nat) : (s.wrA f pg idx v).mer = s.mer := rfl
@[simp] theorem State.wrA_pps (s : State) (f : RegField) (pg idx v : Nat) : (s.wrA f pg idx v).pps = s.pps := rfl
@[simp] theorem State.wrA_ptp (s : State) (f : RegField) (pg idx v : Nat) : (s.wrA f pg idx v).ptp = s.ptp := rfl
@[simp] theorem State.wrA_msix (s : State) (f : RegField) (pg idx v : Nat) : (s.wrA f pg idx v).msix = s.msix := rfl
@[simp] theorem State.wrA_msixPending (s : State) (f : RegField) (pg idx v : Nat) : (s.wrA f pg idx v).msixPending = s.msixPending := rfl
@[simp] theorem State.wrA_strideT (s : State) (f : RegField) (pg idx v : Nat) : (s.wrA f pg idx v).strideT = s.strideT := rfl
@[simp] theorem State.wrA_bypassFromRunning (s : State) (f : RegField) (pg idx v : Nat) : (s.wrA f pg idx v).bypassFromRunning = s.bypassFromRunning := rfl
@[simp] theorem State.wrA_rings (s : State) (f : RegField) (pg idx v : Nat) : (s.wrA f pg idx v).rings = s.rings := rfl
@[simp] theorem State.wrA_prt (s : State) (f : RegField) (pg idx v : Nat) : (s.wrA f pg idx v).prt = s.prt := rfl
@[simp] theorem State.wrA_txns (s : State) (f : RegField) (pg idx v : Nat) : (s.wrA f pg idx v).txns = s.txns := rfl
@[simp] theorem State.wrA_pens (s : State) (f : RegField) (pg idx v : Nat) : (s.wrA f pg idx v).pens = s.pens := rfl
@[simp] theorem State.wrA_bootStop (s : State) (f : RegField) (pg idx v : Nat) : (s.wrA f pg idx v).bootStop = s.bootStop := rfl
@[simp] theorem State.wrA_trunk (s : State) (f : RegField) (pg idx v : Nat) : (s.wrA f pg idx v).trunk = s.trunk := rfl
@[simp] theorem State.wrA_cells (s : State) (f : RegField) (pg idx v : Nat) : (s.wrA f pg idx v).cells = s.cells := rfl
@[simp] theorem State.wrA_groups (s : State) (f : RegField) (pg idx v : Nat) : (s.wrA f pg idx v).groups = s.groups := rfl
@[simp] theorem State.wrA_ctr (s : State) (f : RegField) (pg idx v : Nat) : (s.wrA f pg idx v).ctr = s.ctr := rfl
@[simp] theorem State.wrA_cell (s : State) (f : RegField) (pg idx v : Nat) : (s.wrA f pg idx v).cell = s.cell := rfl
@[simp] theorem State.wrA_edge (s : State) (f : RegField) (pg idx v : Nat) : (s.wrA f pg idx v).edge = s.edge := rfl
@[simp] theorem State.wrA_gate (s : State) (f : RegField) (pg idx v : Nat) : (s.wrA f pg idx v).gate = s.gate := rfl
@[simp] theorem State.wrA_graph (s : State) (f : RegField) (pg idx v : Nat) : (s.wrA f pg idx v).graph = s.graph := rfl
@[simp] theorem State.wrA_axes (s : State) (f : RegField) (pg idx v : Nat) : (s.wrA f pg idx v).axes = s.axes := rfl
@[simp] theorem State.wrA_fbk (s : State) (f : RegField) (pg idx v : Nat) : (s.wrA f pg idx v).fbk = s.fbk := rfl
@[simp] theorem State.wrA_meas (s : State) (f : RegField) (pg idx v : Nat) : (s.wrA f pg idx v).meas = s.meas := rfl
@[simp] theorem State.wrA_svy (s : State) (f : RegField) (pg idx v : Nat) : (s.wrA f pg idx v).svy = s.svy := rfl
@[simp] theorem State.wrA_txq (s : State) (f : RegField) (pg idx v : Nat) : (s.wrA f pg idx v).txq = s.txq := rfl
@[simp] theorem State.wrA_tri (s : State) (f : RegField) (pg idx v : Nat) : (s.wrA f pg idx v).tri = s.tri := rfl
@[simp] theorem State.wrA_txBusy (s : State) (f : RegField) (pg idx v : Nat) : (s.wrA f pg idx v).txBusy = s.txBusy := rfl
@[simp] theorem State.wrA_pair (s : State) (f : RegField) (pg idx v : Nat) : (s.wrA f pg idx v).pair = s.pair := rfl
@[simp] theorem State.wrA_saf (s : State) (f : RegField) (pg idx v : Nat) : (s.wrA f pg idx v).saf = s.saf := rfl
@[simp] theorem State.wrA_security (s : State) (f : RegField) (pg idx v : Nat) : (s.wrA f pg idx v).security = s.security := rfl
@[simp] theorem State.wrA_pwr (s : State) (f : RegField) (pg idx v : Nat) : (s.wrA f pg idx v).pwr = s.pwr := rfl
@[simp] theorem State.wrA_diagNow (s : State) (f : RegField) (pg idx v : Nat) : (s.wrA f pg idx v).diagNow = s.diagNow := rfl
@[simp] theorem State.wrA_diagTime (s : State) (f : RegField) (pg idx v : Nat) : (s.wrA f pg idx v).diagTime = s.diagTime := rfl
@[simp] theorem State.wrA_fuses (s : State) (f : RegField) (pg idx v : Nat) : (s.wrA f pg idx v).fuses = s.fuses := rfl
@[simp] theorem State.wrA_hif (s : State) (f : RegField) (pg idx v : Nat) : (s.wrA f pg idx v).hif = s.hif := rfl
@[simp] theorem State.wrA_pending (s : State) (f : RegField) (pg idx v : Nat) : (s.wrA f pg idx v).pending = s.pending := rfl
@[simp] theorem State.wrA_served (s : State) (f : RegField) (pg idx v : Nat) : (s.wrA f pg idx v).served = s.served := rfl

/-! Something recorded as having left the balls. -/

@[simp] theorem State.emit_straps (s : State) (o : Out) : (s.emit o).straps = s.straps := rfl
@[simp] theorem State.emit_por (s : State) (o : Out) : (s.emit o).por = s.por := rfl
@[simp] theorem State.emit_regs (s : State) (o : Out) : (s.emit o).regs = s.regs := rfl
@[simp] theorem State.emit_frozen (s : State) (o : Out) : (s.emit o).frozen = s.frozen := rfl
@[simp] theorem State.emit_sram (s : State) (o : Out) : (s.emit o).sram = s.sram := rfl
@[simp] theorem State.emit_sramBad (s : State) (o : Out) : (s.emit o).sramBad = s.sramBad := rfl
@[simp] theorem State.emit_freeCtr (s : State) (o : Out) : (s.emit o).freeCtr = s.freeCtr := rfl
@[simp] theorem State.emit_mer (s : State) (o : Out) : (s.emit o).mer = s.mer := rfl
@[simp] theorem State.emit_pps (s : State) (o : Out) : (s.emit o).pps = s.pps := rfl
@[simp] theorem State.emit_ptp (s : State) (o : Out) : (s.emit o).ptp = s.ptp := rfl
@[simp] theorem State.emit_msix (s : State) (o : Out) : (s.emit o).msix = s.msix := rfl
@[simp] theorem State.emit_msixPending (s : State) (o : Out) : (s.emit o).msixPending = s.msixPending := rfl
@[simp] theorem State.emit_strideT (s : State) (o : Out) : (s.emit o).strideT = s.strideT := rfl
@[simp] theorem State.emit_bypassFromRunning (s : State) (o : Out) : (s.emit o).bypassFromRunning = s.bypassFromRunning := rfl
@[simp] theorem State.emit_rings (s : State) (o : Out) : (s.emit o).rings = s.rings := rfl
@[simp] theorem State.emit_prt (s : State) (o : Out) : (s.emit o).prt = s.prt := rfl
@[simp] theorem State.emit_txns (s : State) (o : Out) : (s.emit o).txns = s.txns := rfl
@[simp] theorem State.emit_pens (s : State) (o : Out) : (s.emit o).pens = s.pens := rfl
@[simp] theorem State.emit_bootStop (s : State) (o : Out) : (s.emit o).bootStop = s.bootStop := rfl
@[simp] theorem State.emit_trunk (s : State) (o : Out) : (s.emit o).trunk = s.trunk := rfl
@[simp] theorem State.emit_cells (s : State) (o : Out) : (s.emit o).cells = s.cells := rfl
@[simp] theorem State.emit_groups (s : State) (o : Out) : (s.emit o).groups = s.groups := rfl
@[simp] theorem State.emit_ctr (s : State) (o : Out) : (s.emit o).ctr = s.ctr := rfl
@[simp] theorem State.emit_cell (s : State) (o : Out) : (s.emit o).cell = s.cell := rfl
@[simp] theorem State.emit_edge (s : State) (o : Out) : (s.emit o).edge = s.edge := rfl
@[simp] theorem State.emit_gate (s : State) (o : Out) : (s.emit o).gate = s.gate := rfl
@[simp] theorem State.emit_graph (s : State) (o : Out) : (s.emit o).graph = s.graph := rfl
@[simp] theorem State.emit_axes (s : State) (o : Out) : (s.emit o).axes = s.axes := rfl
@[simp] theorem State.emit_fbk (s : State) (o : Out) : (s.emit o).fbk = s.fbk := rfl
@[simp] theorem State.emit_meas (s : State) (o : Out) : (s.emit o).meas = s.meas := rfl
@[simp] theorem State.emit_svy (s : State) (o : Out) : (s.emit o).svy = s.svy := rfl
@[simp] theorem State.emit_txq (s : State) (o : Out) : (s.emit o).txq = s.txq := rfl
@[simp] theorem State.emit_tri (s : State) (o : Out) : (s.emit o).tri = s.tri := rfl
@[simp] theorem State.emit_txBusy (s : State) (o : Out) : (s.emit o).txBusy = s.txBusy := rfl
@[simp] theorem State.emit_pair (s : State) (o : Out) : (s.emit o).pair = s.pair := rfl
@[simp] theorem State.emit_saf (s : State) (o : Out) : (s.emit o).saf = s.saf := rfl
@[simp] theorem State.emit_security (s : State) (o : Out) : (s.emit o).security = s.security := rfl
@[simp] theorem State.emit_pwr (s : State) (o : Out) : (s.emit o).pwr = s.pwr := rfl
@[simp] theorem State.emit_diagNow (s : State) (o : Out) : (s.emit o).diagNow = s.diagNow := rfl
@[simp] theorem State.emit_diagTime (s : State) (o : Out) : (s.emit o).diagTime = s.diagTime := rfl
@[simp] theorem State.emit_fuses (s : State) (o : Out) : (s.emit o).fuses = s.fuses := rfl
@[simp] theorem State.emit_hif (s : State) (o : Out) : (s.emit o).hif = s.hif := rfl
@[simp] theorem State.emit_pending (s : State) (o : Out) : (s.emit o).pending = s.pending := rfl
@[simp] theorem State.emit_served (s : State) (o : Out) : (s.emit o).served = s.served := rfl

/-! Time moved on. -/

@[simp] theorem State.advance_straps (s : State) (d : Nat) : (s.advance d).straps = s.straps := rfl
@[simp] theorem State.advance_por (s : State) (d : Nat) : (s.advance d).por = s.por := rfl
@[simp] theorem State.advance_regs (s : State) (d : Nat) : (s.advance d).regs = s.regs := rfl
@[simp] theorem State.advance_frozen (s : State) (d : Nat) : (s.advance d).frozen = s.frozen := rfl
@[simp] theorem State.advance_sram (s : State) (d : Nat) : (s.advance d).sram = s.sram := rfl
@[simp] theorem State.advance_sramBad (s : State) (d : Nat) : (s.advance d).sramBad = s.sramBad := rfl
@[simp] theorem State.advance_freeCtr (s : State) (d : Nat) : (s.advance d).freeCtr = s.freeCtr := rfl
@[simp] theorem State.advance_out (s : State) (d : Nat) : (s.advance d).out = s.out := rfl
@[simp] theorem State.advance_pps (s : State) (d : Nat) : (s.advance d).pps = s.pps := rfl
@[simp] theorem State.advance_ptp (s : State) (d : Nat) : (s.advance d).ptp = s.ptp := rfl
@[simp] theorem State.advance_msix (s : State) (d : Nat) : (s.advance d).msix = s.msix := rfl
@[simp] theorem State.advance_msixPending (s : State) (d : Nat) : (s.advance d).msixPending = s.msixPending := rfl
@[simp] theorem State.advance_strideT (s : State) (d : Nat) : (s.advance d).strideT = s.strideT := rfl
@[simp] theorem State.advance_bypassFromRunning (s : State) (d : Nat) : (s.advance d).bypassFromRunning = s.bypassFromRunning := rfl
@[simp] theorem State.advance_rings (s : State) (d : Nat) : (s.advance d).rings = s.rings := rfl
@[simp] theorem State.advance_prt (s : State) (d : Nat) : (s.advance d).prt = s.prt := rfl
@[simp] theorem State.advance_txns (s : State) (d : Nat) : (s.advance d).txns = s.txns := rfl
@[simp] theorem State.advance_pens (s : State) (d : Nat) : (s.advance d).pens = s.pens := rfl
@[simp] theorem State.advance_bootStop (s : State) (d : Nat) : (s.advance d).bootStop = s.bootStop := rfl
@[simp] theorem State.advance_trunk (s : State) (d : Nat) : (s.advance d).trunk = s.trunk := rfl
@[simp] theorem State.advance_cells (s : State) (d : Nat) : (s.advance d).cells = s.cells := rfl
@[simp] theorem State.advance_groups (s : State) (d : Nat) : (s.advance d).groups = s.groups := rfl
@[simp] theorem State.advance_ctr (s : State) (d : Nat) : (s.advance d).ctr = s.ctr := rfl
@[simp] theorem State.advance_cell (s : State) (d : Nat) : (s.advance d).cell = s.cell := rfl
@[simp] theorem State.advance_edge (s : State) (d : Nat) : (s.advance d).edge = s.edge := rfl
@[simp] theorem State.advance_gate (s : State) (d : Nat) : (s.advance d).gate = s.gate := rfl
@[simp] theorem State.advance_graph (s : State) (d : Nat) : (s.advance d).graph = s.graph := rfl
@[simp] theorem State.advance_axes (s : State) (d : Nat) : (s.advance d).axes = s.axes := rfl
@[simp] theorem State.advance_fbk (s : State) (d : Nat) : (s.advance d).fbk = s.fbk := rfl
@[simp] theorem State.advance_meas (s : State) (d : Nat) : (s.advance d).meas = s.meas := rfl
@[simp] theorem State.advance_svy (s : State) (d : Nat) : (s.advance d).svy = s.svy := rfl
@[simp] theorem State.advance_txq (s : State) (d : Nat) : (s.advance d).txq = s.txq := rfl
@[simp] theorem State.advance_tri (s : State) (d : Nat) : (s.advance d).tri = s.tri := rfl
@[simp] theorem State.advance_txBusy (s : State) (d : Nat) : (s.advance d).txBusy = s.txBusy := rfl
@[simp] theorem State.advance_pair (s : State) (d : Nat) : (s.advance d).pair = s.pair := rfl
@[simp] theorem State.advance_saf (s : State) (d : Nat) : (s.advance d).saf = s.saf := rfl
@[simp] theorem State.advance_security (s : State) (d : Nat) : (s.advance d).security = s.security := rfl
@[simp] theorem State.advance_pwr (s : State) (d : Nat) : (s.advance d).pwr = s.pwr := rfl
@[simp] theorem State.advance_diagNow (s : State) (d : Nat) : (s.advance d).diagNow = s.diagNow := rfl
@[simp] theorem State.advance_diagTime (s : State) (d : Nat) : (s.advance d).diagTime = s.diagTime := rfl
@[simp] theorem State.advance_fuses (s : State) (d : Nat) : (s.advance d).fuses = s.fuses := rfl
@[simp] theorem State.advance_hif (s : State) (d : Nat) : (s.advance d).hif = s.hif := rfl
@[simp] theorem State.advance_pending (s : State) (d : Nat) : (s.advance d).pending = s.pending := rfl
@[simp] theorem State.advance_served (s : State) (d : Nat) : (s.advance d).served = s.served := rfl

/-! Bytes written to SRAM. -/

@[simp] theorem State.memPut_straps (s : State) (a : Nat) (bs : Bytes) : (s.memPut a bs).straps = s.straps := rfl
@[simp] theorem State.memPut_por (s : State) (a : Nat) (bs : Bytes) : (s.memPut a bs).por = s.por := rfl
@[simp] theorem State.memPut_regs (s : State) (a : Nat) (bs : Bytes) : (s.memPut a bs).regs = s.regs := rfl
@[simp] theorem State.memPut_frozen (s : State) (a : Nat) (bs : Bytes) : (s.memPut a bs).frozen = s.frozen := rfl
@[simp] theorem State.memPut_freeCtr (s : State) (a : Nat) (bs : Bytes) : (s.memPut a bs).freeCtr = s.freeCtr := rfl
@[simp] theorem State.memPut_out (s : State) (a : Nat) (bs : Bytes) : (s.memPut a bs).out = s.out := rfl
@[simp] theorem State.memPut_mer (s : State) (a : Nat) (bs : Bytes) : (s.memPut a bs).mer = s.mer := rfl
@[simp] theorem State.memPut_pps (s : State) (a : Nat) (bs : Bytes) : (s.memPut a bs).pps = s.pps := rfl
@[simp] theorem State.memPut_ptp (s : State) (a : Nat) (bs : Bytes) : (s.memPut a bs).ptp = s.ptp := rfl
@[simp] theorem State.memPut_msix (s : State) (a : Nat) (bs : Bytes) : (s.memPut a bs).msix = s.msix := rfl
@[simp] theorem State.memPut_msixPending (s : State) (a : Nat) (bs : Bytes) : (s.memPut a bs).msixPending = s.msixPending := rfl
@[simp] theorem State.memPut_strideT (s : State) (a : Nat) (bs : Bytes) : (s.memPut a bs).strideT = s.strideT := rfl
@[simp] theorem State.memPut_bypassFromRunning (s : State) (a : Nat) (bs : Bytes) : (s.memPut a bs).bypassFromRunning = s.bypassFromRunning := rfl
@[simp] theorem State.memPut_rings (s : State) (a : Nat) (bs : Bytes) : (s.memPut a bs).rings = s.rings := rfl
@[simp] theorem State.memPut_prt (s : State) (a : Nat) (bs : Bytes) : (s.memPut a bs).prt = s.prt := rfl
@[simp] theorem State.memPut_txns (s : State) (a : Nat) (bs : Bytes) : (s.memPut a bs).txns = s.txns := rfl
@[simp] theorem State.memPut_pens (s : State) (a : Nat) (bs : Bytes) : (s.memPut a bs).pens = s.pens := rfl
@[simp] theorem State.memPut_bootStop (s : State) (a : Nat) (bs : Bytes) : (s.memPut a bs).bootStop = s.bootStop := rfl
@[simp] theorem State.memPut_trunk (s : State) (a : Nat) (bs : Bytes) : (s.memPut a bs).trunk = s.trunk := rfl
@[simp] theorem State.memPut_cells (s : State) (a : Nat) (bs : Bytes) : (s.memPut a bs).cells = s.cells := rfl
@[simp] theorem State.memPut_groups (s : State) (a : Nat) (bs : Bytes) : (s.memPut a bs).groups = s.groups := rfl
@[simp] theorem State.memPut_ctr (s : State) (a : Nat) (bs : Bytes) : (s.memPut a bs).ctr = s.ctr := rfl
@[simp] theorem State.memPut_cell (s : State) (a : Nat) (bs : Bytes) : (s.memPut a bs).cell = s.cell := rfl
@[simp] theorem State.memPut_edge (s : State) (a : Nat) (bs : Bytes) : (s.memPut a bs).edge = s.edge := rfl
@[simp] theorem State.memPut_gate (s : State) (a : Nat) (bs : Bytes) : (s.memPut a bs).gate = s.gate := rfl
@[simp] theorem State.memPut_graph (s : State) (a : Nat) (bs : Bytes) : (s.memPut a bs).graph = s.graph := rfl
@[simp] theorem State.memPut_axes (s : State) (a : Nat) (bs : Bytes) : (s.memPut a bs).axes = s.axes := rfl
@[simp] theorem State.memPut_fbk (s : State) (a : Nat) (bs : Bytes) : (s.memPut a bs).fbk = s.fbk := rfl
@[simp] theorem State.memPut_meas (s : State) (a : Nat) (bs : Bytes) : (s.memPut a bs).meas = s.meas := rfl
@[simp] theorem State.memPut_svy (s : State) (a : Nat) (bs : Bytes) : (s.memPut a bs).svy = s.svy := rfl
@[simp] theorem State.memPut_txq (s : State) (a : Nat) (bs : Bytes) : (s.memPut a bs).txq = s.txq := rfl
@[simp] theorem State.memPut_tri (s : State) (a : Nat) (bs : Bytes) : (s.memPut a bs).tri = s.tri := rfl
@[simp] theorem State.memPut_txBusy (s : State) (a : Nat) (bs : Bytes) : (s.memPut a bs).txBusy = s.txBusy := rfl
@[simp] theorem State.memPut_pair (s : State) (a : Nat) (bs : Bytes) : (s.memPut a bs).pair = s.pair := rfl
@[simp] theorem State.memPut_saf (s : State) (a : Nat) (bs : Bytes) : (s.memPut a bs).saf = s.saf := rfl
@[simp] theorem State.memPut_security (s : State) (a : Nat) (bs : Bytes) : (s.memPut a bs).security = s.security := rfl
@[simp] theorem State.memPut_pwr (s : State) (a : Nat) (bs : Bytes) : (s.memPut a bs).pwr = s.pwr := rfl
@[simp] theorem State.memPut_diagNow (s : State) (a : Nat) (bs : Bytes) : (s.memPut a bs).diagNow = s.diagNow := rfl
@[simp] theorem State.memPut_diagTime (s : State) (a : Nat) (bs : Bytes) : (s.memPut a bs).diagTime = s.diagTime := rfl
@[simp] theorem State.memPut_fuses (s : State) (a : Nat) (bs : Bytes) : (s.memPut a bs).fuses = s.fuses := rfl
@[simp] theorem State.memPut_hif (s : State) (a : Nat) (bs : Bytes) : (s.memPut a bs).hif = s.hif := rfl
@[simp] theorem State.memPut_pending (s : State) (a : Nat) (bs : Bytes) : (s.memPut a bs).pending = s.pending := rfl
@[simp] theorem State.memPut_served (s : State) (a : Nat) (bs : Bytes) : (s.memPut a bs).served = s.served := rfl

/-! A free value taken. -/

@[simp] theorem State.nextFree_straps (s : State) : (s.nextFree).straps = s.straps := rfl
@[simp] theorem State.nextFree_por (s : State) : (s.nextFree).por = s.por := rfl
@[simp] theorem State.nextFree_regs (s : State) : (s.nextFree).regs = s.regs := rfl
@[simp] theorem State.nextFree_frozen (s : State) : (s.nextFree).frozen = s.frozen := rfl
@[simp] theorem State.nextFree_sram (s : State) : (s.nextFree).sram = s.sram := rfl
@[simp] theorem State.nextFree_sramBad (s : State) : (s.nextFree).sramBad = s.sramBad := rfl
@[simp] theorem State.nextFree_out (s : State) : (s.nextFree).out = s.out := rfl
@[simp] theorem State.nextFree_mer (s : State) : (s.nextFree).mer = s.mer := rfl
@[simp] theorem State.nextFree_pps (s : State) : (s.nextFree).pps = s.pps := rfl
@[simp] theorem State.nextFree_ptp (s : State) : (s.nextFree).ptp = s.ptp := rfl
@[simp] theorem State.nextFree_msix (s : State) : (s.nextFree).msix = s.msix := rfl
@[simp] theorem State.nextFree_msixPending (s : State) : (s.nextFree).msixPending = s.msixPending := rfl
@[simp] theorem State.nextFree_strideT (s : State) : (s.nextFree).strideT = s.strideT := rfl
@[simp] theorem State.nextFree_bypassFromRunning (s : State) : (s.nextFree).bypassFromRunning = s.bypassFromRunning := rfl
@[simp] theorem State.nextFree_rings (s : State) : (s.nextFree).rings = s.rings := rfl
@[simp] theorem State.nextFree_prt (s : State) : (s.nextFree).prt = s.prt := rfl
@[simp] theorem State.nextFree_txns (s : State) : (s.nextFree).txns = s.txns := rfl
@[simp] theorem State.nextFree_pens (s : State) : (s.nextFree).pens = s.pens := rfl
@[simp] theorem State.nextFree_bootStop (s : State) : (s.nextFree).bootStop = s.bootStop := rfl
@[simp] theorem State.nextFree_trunk (s : State) : (s.nextFree).trunk = s.trunk := rfl
@[simp] theorem State.nextFree_cells (s : State) : (s.nextFree).cells = s.cells := rfl
@[simp] theorem State.nextFree_groups (s : State) : (s.nextFree).groups = s.groups := rfl
@[simp] theorem State.nextFree_ctr (s : State) : (s.nextFree).ctr = s.ctr := rfl
@[simp] theorem State.nextFree_cell (s : State) : (s.nextFree).cell = s.cell := rfl
@[simp] theorem State.nextFree_edge (s : State) : (s.nextFree).edge = s.edge := rfl
@[simp] theorem State.nextFree_gate (s : State) : (s.nextFree).gate = s.gate := rfl
@[simp] theorem State.nextFree_graph (s : State) : (s.nextFree).graph = s.graph := rfl
@[simp] theorem State.nextFree_axes (s : State) : (s.nextFree).axes = s.axes := rfl
@[simp] theorem State.nextFree_fbk (s : State) : (s.nextFree).fbk = s.fbk := rfl
@[simp] theorem State.nextFree_meas (s : State) : (s.nextFree).meas = s.meas := rfl
@[simp] theorem State.nextFree_svy (s : State) : (s.nextFree).svy = s.svy := rfl
@[simp] theorem State.nextFree_txq (s : State) : (s.nextFree).txq = s.txq := rfl
@[simp] theorem State.nextFree_tri (s : State) : (s.nextFree).tri = s.tri := rfl
@[simp] theorem State.nextFree_txBusy (s : State) : (s.nextFree).txBusy = s.txBusy := rfl
@[simp] theorem State.nextFree_pair (s : State) : (s.nextFree).pair = s.pair := rfl
@[simp] theorem State.nextFree_saf (s : State) : (s.nextFree).saf = s.saf := rfl
@[simp] theorem State.nextFree_security (s : State) : (s.nextFree).security = s.security := rfl
@[simp] theorem State.nextFree_pwr (s : State) : (s.nextFree).pwr = s.pwr := rfl
@[simp] theorem State.nextFree_diagNow (s : State) : (s.nextFree).diagNow = s.diagNow := rfl
@[simp] theorem State.nextFree_diagTime (s : State) : (s.nextFree).diagTime = s.diagTime := rfl
@[simp] theorem State.nextFree_fuses (s : State) : (s.nextFree).fuses = s.fuses := rfl
@[simp] theorem State.nextFree_hif (s : State) : (s.nextFree).hif = s.hif := rfl
@[simp] theorem State.nextFree_pending (s : State) : (s.nextFree).pending = s.pending := rfl
@[simp] theorem State.nextFree_served (s : State) : (s.nextFree).served = s.served := rfl

/-! A hub diagnostic raised. -/

@[simp] theorem State.diagnose_straps (s : State) (b : Nat) : (s.diagnose b).straps = s.straps := rfl
@[simp] theorem State.diagnose_por (s : State) (b : Nat) : (s.diagnose b).por = s.por := rfl
@[simp] theorem State.diagnose_regs (s : State) (b : Nat) : (s.diagnose b).regs = s.regs := rfl
@[simp] theorem State.diagnose_frozen (s : State) (b : Nat) : (s.diagnose b).frozen = s.frozen := rfl
@[simp] theorem State.diagnose_sram (s : State) (b : Nat) : (s.diagnose b).sram = s.sram := rfl
@[simp] theorem State.diagnose_sramBad (s : State) (b : Nat) : (s.diagnose b).sramBad = s.sramBad := rfl
@[simp] theorem State.diagnose_freeCtr (s : State) (b : Nat) : (s.diagnose b).freeCtr = s.freeCtr := rfl
@[simp] theorem State.diagnose_out (s : State) (b : Nat) : (s.diagnose b).out = s.out := rfl
@[simp] theorem State.diagnose_mer (s : State) (b : Nat) : (s.diagnose b).mer = s.mer := rfl
@[simp] theorem State.diagnose_pps (s : State) (b : Nat) : (s.diagnose b).pps = s.pps := rfl
@[simp] theorem State.diagnose_ptp (s : State) (b : Nat) : (s.diagnose b).ptp = s.ptp := rfl
@[simp] theorem State.diagnose_msix (s : State) (b : Nat) : (s.diagnose b).msix = s.msix := rfl
@[simp] theorem State.diagnose_msixPending (s : State) (b : Nat) : (s.diagnose b).msixPending = s.msixPending := rfl
@[simp] theorem State.diagnose_strideT (s : State) (b : Nat) : (s.diagnose b).strideT = s.strideT := rfl
@[simp] theorem State.diagnose_bypassFromRunning (s : State) (b : Nat) : (s.diagnose b).bypassFromRunning = s.bypassFromRunning := rfl
@[simp] theorem State.diagnose_rings (s : State) (b : Nat) : (s.diagnose b).rings = s.rings := rfl
@[simp] theorem State.diagnose_prt (s : State) (b : Nat) : (s.diagnose b).prt = s.prt := rfl
@[simp] theorem State.diagnose_txns (s : State) (b : Nat) : (s.diagnose b).txns = s.txns := rfl
@[simp] theorem State.diagnose_pens (s : State) (b : Nat) : (s.diagnose b).pens = s.pens := rfl
@[simp] theorem State.diagnose_bootStop (s : State) (b : Nat) : (s.diagnose b).bootStop = s.bootStop := rfl
@[simp] theorem State.diagnose_trunk (s : State) (b : Nat) : (s.diagnose b).trunk = s.trunk := rfl
@[simp] theorem State.diagnose_cells (s : State) (b : Nat) : (s.diagnose b).cells = s.cells := rfl
@[simp] theorem State.diagnose_groups (s : State) (b : Nat) : (s.diagnose b).groups = s.groups := rfl
@[simp] theorem State.diagnose_ctr (s : State) (b : Nat) : (s.diagnose b).ctr = s.ctr := rfl
@[simp] theorem State.diagnose_cell (s : State) (b : Nat) : (s.diagnose b).cell = s.cell := rfl
@[simp] theorem State.diagnose_edge (s : State) (b : Nat) : (s.diagnose b).edge = s.edge := rfl
@[simp] theorem State.diagnose_gate (s : State) (b : Nat) : (s.diagnose b).gate = s.gate := rfl
@[simp] theorem State.diagnose_graph (s : State) (b : Nat) : (s.diagnose b).graph = s.graph := rfl
@[simp] theorem State.diagnose_axes (s : State) (b : Nat) : (s.diagnose b).axes = s.axes := rfl
@[simp] theorem State.diagnose_fbk (s : State) (b : Nat) : (s.diagnose b).fbk = s.fbk := rfl
@[simp] theorem State.diagnose_meas (s : State) (b : Nat) : (s.diagnose b).meas = s.meas := rfl
@[simp] theorem State.diagnose_svy (s : State) (b : Nat) : (s.diagnose b).svy = s.svy := rfl
@[simp] theorem State.diagnose_txq (s : State) (b : Nat) : (s.diagnose b).txq = s.txq := rfl
@[simp] theorem State.diagnose_tri (s : State) (b : Nat) : (s.diagnose b).tri = s.tri := rfl
@[simp] theorem State.diagnose_txBusy (s : State) (b : Nat) : (s.diagnose b).txBusy = s.txBusy := rfl
@[simp] theorem State.diagnose_pair (s : State) (b : Nat) : (s.diagnose b).pair = s.pair := rfl
@[simp] theorem State.diagnose_saf (s : State) (b : Nat) : (s.diagnose b).saf = s.saf := rfl
@[simp] theorem State.diagnose_security (s : State) (b : Nat) : (s.diagnose b).security = s.security := rfl
@[simp] theorem State.diagnose_pwr (s : State) (b : Nat) : (s.diagnose b).pwr = s.pwr := rfl
@[simp] theorem State.diagnose_fuses (s : State) (b : Nat) : (s.diagnose b).fuses = s.fuses := rfl
@[simp] theorem State.diagnose_hif (s : State) (b : Nat) : (s.diagnose b).hif = s.hif := rfl
@[simp] theorem State.diagnose_pending (s : State) (b : Nat) : (s.diagnose b).pending = s.pending := rfl
@[simp] theorem State.diagnose_served (s : State) (b : Nat) : (s.diagnose b).served = s.served := rfl

/-! A message sent, event bits pended, an event raised, a failed access recorded. -/

@[simp] theorem State.sendMsix_straps (s : State) (v : Nat) : (s.sendMsix v).straps = s.straps := by
  unfold State.sendMsix; split <;> (try split) <;> rfl
@[simp] theorem State.sendMsix_por (s : State) (v : Nat) : (s.sendMsix v).por = s.por := by
  unfold State.sendMsix; split <;> (try split) <;> rfl
@[simp] theorem State.sendMsix_regs (s : State) (v : Nat) : (s.sendMsix v).regs = s.regs := by
  unfold State.sendMsix; split <;> (try split) <;> rfl
@[simp] theorem State.sendMsix_frozen (s : State) (v : Nat) : (s.sendMsix v).frozen = s.frozen := by
  unfold State.sendMsix; split <;> (try split) <;> rfl
@[simp] theorem State.sendMsix_sram (s : State) (v : Nat) : (s.sendMsix v).sram = s.sram := by
  unfold State.sendMsix; split <;> (try split) <;> rfl
@[simp] theorem State.sendMsix_sramBad (s : State) (v : Nat) : (s.sendMsix v).sramBad = s.sramBad := by
  unfold State.sendMsix; split <;> (try split) <;> rfl
@[simp] theorem State.sendMsix_freeCtr (s : State) (v : Nat) : (s.sendMsix v).freeCtr = s.freeCtr := by
  unfold State.sendMsix; split <;> (try split) <;> rfl
@[simp] theorem State.sendMsix_mer (s : State) (v : Nat) : (s.sendMsix v).mer = s.mer := by
  unfold State.sendMsix; split <;> (try split) <;> rfl
@[simp] theorem State.sendMsix_pps (s : State) (v : Nat) : (s.sendMsix v).pps = s.pps := by
  unfold State.sendMsix; split <;> (try split) <;> rfl
@[simp] theorem State.sendMsix_ptp (s : State) (v : Nat) : (s.sendMsix v).ptp = s.ptp := by
  unfold State.sendMsix; split <;> (try split) <;> rfl
@[simp] theorem State.sendMsix_msix (s : State) (v : Nat) : (s.sendMsix v).msix = s.msix := by
  unfold State.sendMsix; split <;> (try split) <;> rfl
@[simp] theorem State.sendMsix_strideT (s : State) (v : Nat) : (s.sendMsix v).strideT = s.strideT := by
  unfold State.sendMsix; split <;> (try split) <;> rfl
@[simp] theorem State.sendMsix_bypassFromRunning (s : State) (v : Nat) : (s.sendMsix v).bypassFromRunning = s.bypassFromRunning := by
  unfold State.sendMsix; split <;> (try split) <;> rfl
@[simp] theorem State.sendMsix_rings (s : State) (v : Nat) : (s.sendMsix v).rings = s.rings := by
  unfold State.sendMsix; split <;> (try split) <;> rfl
@[simp] theorem State.sendMsix_prt (s : State) (v : Nat) : (s.sendMsix v).prt = s.prt := by
  unfold State.sendMsix; split <;> (try split) <;> rfl
@[simp] theorem State.sendMsix_txns (s : State) (v : Nat) : (s.sendMsix v).txns = s.txns := by
  unfold State.sendMsix; split <;> (try split) <;> rfl
@[simp] theorem State.sendMsix_pens (s : State) (v : Nat) : (s.sendMsix v).pens = s.pens := by
  unfold State.sendMsix; split <;> (try split) <;> rfl
@[simp] theorem State.sendMsix_bootStop (s : State) (v : Nat) : (s.sendMsix v).bootStop = s.bootStop := by
  unfold State.sendMsix; split <;> (try split) <;> rfl
@[simp] theorem State.sendMsix_trunk (s : State) (v : Nat) : (s.sendMsix v).trunk = s.trunk := by
  unfold State.sendMsix; split <;> (try split) <;> rfl
@[simp] theorem State.sendMsix_cells (s : State) (v : Nat) : (s.sendMsix v).cells = s.cells := by
  unfold State.sendMsix; split <;> (try split) <;> rfl
@[simp] theorem State.sendMsix_groups (s : State) (v : Nat) : (s.sendMsix v).groups = s.groups := by
  unfold State.sendMsix; split <;> (try split) <;> rfl
@[simp] theorem State.sendMsix_ctr (s : State) (v : Nat) : (s.sendMsix v).ctr = s.ctr := by
  unfold State.sendMsix; split <;> (try split) <;> rfl
@[simp] theorem State.sendMsix_cell (s : State) (v : Nat) : (s.sendMsix v).cell = s.cell := by
  unfold State.sendMsix; split <;> (try split) <;> rfl
@[simp] theorem State.sendMsix_edge (s : State) (v : Nat) : (s.sendMsix v).edge = s.edge := by
  unfold State.sendMsix; split <;> (try split) <;> rfl
@[simp] theorem State.sendMsix_gate (s : State) (v : Nat) : (s.sendMsix v).gate = s.gate := by
  unfold State.sendMsix; split <;> (try split) <;> rfl
@[simp] theorem State.sendMsix_graph (s : State) (v : Nat) : (s.sendMsix v).graph = s.graph := by
  unfold State.sendMsix; split <;> (try split) <;> rfl
@[simp] theorem State.sendMsix_axes (s : State) (v : Nat) : (s.sendMsix v).axes = s.axes := by
  unfold State.sendMsix; split <;> (try split) <;> rfl
@[simp] theorem State.sendMsix_fbk (s : State) (v : Nat) : (s.sendMsix v).fbk = s.fbk := by
  unfold State.sendMsix; split <;> (try split) <;> rfl
@[simp] theorem State.sendMsix_meas (s : State) (v : Nat) : (s.sendMsix v).meas = s.meas := by
  unfold State.sendMsix; split <;> (try split) <;> rfl
@[simp] theorem State.sendMsix_svy (s : State) (v : Nat) : (s.sendMsix v).svy = s.svy := by
  unfold State.sendMsix; split <;> (try split) <;> rfl
@[simp] theorem State.sendMsix_txq (s : State) (v : Nat) : (s.sendMsix v).txq = s.txq := by
  unfold State.sendMsix; split <;> (try split) <;> rfl
@[simp] theorem State.sendMsix_tri (s : State) (v : Nat) : (s.sendMsix v).tri = s.tri := by
  unfold State.sendMsix; split <;> (try split) <;> rfl
@[simp] theorem State.sendMsix_txBusy (s : State) (v : Nat) : (s.sendMsix v).txBusy = s.txBusy := by
  unfold State.sendMsix; split <;> (try split) <;> rfl
@[simp] theorem State.sendMsix_pair (s : State) (v : Nat) : (s.sendMsix v).pair = s.pair := by
  unfold State.sendMsix; split <;> (try split) <;> rfl
@[simp] theorem State.sendMsix_saf (s : State) (v : Nat) : (s.sendMsix v).saf = s.saf := by
  unfold State.sendMsix; split <;> (try split) <;> rfl
@[simp] theorem State.sendMsix_security (s : State) (v : Nat) : (s.sendMsix v).security = s.security := by
  unfold State.sendMsix; split <;> (try split) <;> rfl
@[simp] theorem State.sendMsix_pwr (s : State) (v : Nat) : (s.sendMsix v).pwr = s.pwr := by
  unfold State.sendMsix; split <;> (try split) <;> rfl
@[simp] theorem State.sendMsix_diagNow (s : State) (v : Nat) : (s.sendMsix v).diagNow = s.diagNow := by
  unfold State.sendMsix; split <;> (try split) <;> rfl
@[simp] theorem State.sendMsix_diagTime (s : State) (v : Nat) : (s.sendMsix v).diagTime = s.diagTime := by
  unfold State.sendMsix; split <;> (try split) <;> rfl
@[simp] theorem State.sendMsix_fuses (s : State) (v : Nat) : (s.sendMsix v).fuses = s.fuses := by
  unfold State.sendMsix; split <;> (try split) <;> rfl
@[simp] theorem State.sendMsix_hif (s : State) (v : Nat) : (s.sendMsix v).hif = s.hif := by
  unfold State.sendMsix; split <;> (try split) <;> rfl
@[simp] theorem State.sendMsix_pending (s : State) (v : Nat) : (s.sendMsix v).pending = s.pending := by
  unfold State.sendMsix; split <;> (try split) <;> rfl
@[simp] theorem State.sendMsix_served (s : State) (v : Nat) : (s.sendMsix v).served = s.served := by
  unfold State.sendMsix; split <;> (try split) <;> rfl
@[simp] theorem State.pend_straps (s : State) (page m : Nat) : (s.pend page m).straps = s.straps := by
  unfold State.pend State.wrI; dsimp only; split <;> simp
@[simp] theorem State.pend_por (s : State) (page m : Nat) : (s.pend page m).por = s.por := by
  unfold State.pend State.wrI; dsimp only; split <;> simp
@[simp] theorem State.pend_frozen (s : State) (page m : Nat) : (s.pend page m).frozen = s.frozen := by
  unfold State.pend State.wrI; dsimp only; split <;> simp
@[simp] theorem State.pend_sram (s : State) (page m : Nat) : (s.pend page m).sram = s.sram := by
  unfold State.pend State.wrI; dsimp only; split <;> simp
@[simp] theorem State.pend_sramBad (s : State) (page m : Nat) : (s.pend page m).sramBad = s.sramBad := by
  unfold State.pend State.wrI; dsimp only; split <;> simp
@[simp] theorem State.pend_freeCtr (s : State) (page m : Nat) : (s.pend page m).freeCtr = s.freeCtr := by
  unfold State.pend State.wrI; dsimp only; split <;> simp
@[simp] theorem State.pend_mer (s : State) (page m : Nat) : (s.pend page m).mer = s.mer := by
  unfold State.pend State.wrI; dsimp only; split <;> simp
@[simp] theorem State.pend_pps (s : State) (page m : Nat) : (s.pend page m).pps = s.pps := by
  unfold State.pend State.wrI; dsimp only; split <;> simp
@[simp] theorem State.pend_ptp (s : State) (page m : Nat) : (s.pend page m).ptp = s.ptp := by
  unfold State.pend State.wrI; dsimp only; split <;> simp
@[simp] theorem State.pend_msix (s : State) (page m : Nat) : (s.pend page m).msix = s.msix := by
  unfold State.pend State.wrI; dsimp only; split <;> simp
@[simp] theorem State.pend_strideT (s : State) (page m : Nat) : (s.pend page m).strideT = s.strideT := by
  unfold State.pend State.wrI; dsimp only; split <;> simp
@[simp] theorem State.pend_bypassFromRunning (s : State) (page m : Nat) : (s.pend page m).bypassFromRunning = s.bypassFromRunning := by
  unfold State.pend State.wrI; dsimp only; split <;> simp
@[simp] theorem State.pend_rings (s : State) (page m : Nat) : (s.pend page m).rings = s.rings := by
  unfold State.pend State.wrI; dsimp only; split <;> simp
@[simp] theorem State.pend_prt (s : State) (page m : Nat) : (s.pend page m).prt = s.prt := by
  unfold State.pend State.wrI; dsimp only; split <;> simp
@[simp] theorem State.pend_txns (s : State) (page m : Nat) : (s.pend page m).txns = s.txns := by
  unfold State.pend State.wrI; dsimp only; split <;> simp
@[simp] theorem State.pend_pens (s : State) (page m : Nat) : (s.pend page m).pens = s.pens := by
  unfold State.pend State.wrI; dsimp only; split <;> simp
@[simp] theorem State.pend_bootStop (s : State) (page m : Nat) : (s.pend page m).bootStop = s.bootStop := by
  unfold State.pend State.wrI; dsimp only; split <;> simp
@[simp] theorem State.pend_trunk (s : State) (page m : Nat) : (s.pend page m).trunk = s.trunk := by
  unfold State.pend State.wrI; dsimp only; split <;> simp
@[simp] theorem State.pend_cells (s : State) (page m : Nat) : (s.pend page m).cells = s.cells := by
  unfold State.pend State.wrI; dsimp only; split <;> simp
@[simp] theorem State.pend_groups (s : State) (page m : Nat) : (s.pend page m).groups = s.groups := by
  unfold State.pend State.wrI; dsimp only; split <;> simp
@[simp] theorem State.pend_ctr (s : State) (page m : Nat) : (s.pend page m).ctr = s.ctr := by
  unfold State.pend State.wrI; dsimp only; split <;> simp
@[simp] theorem State.pend_cell (s : State) (page m : Nat) : (s.pend page m).cell = s.cell := by
  unfold State.pend State.wrI; dsimp only; split <;> simp
@[simp] theorem State.pend_edge (s : State) (page m : Nat) : (s.pend page m).edge = s.edge := by
  unfold State.pend State.wrI; dsimp only; split <;> simp
@[simp] theorem State.pend_gate (s : State) (page m : Nat) : (s.pend page m).gate = s.gate := by
  unfold State.pend State.wrI; dsimp only; split <;> simp
@[simp] theorem State.pend_graph (s : State) (page m : Nat) : (s.pend page m).graph = s.graph := by
  unfold State.pend State.wrI; dsimp only; split <;> simp
@[simp] theorem State.pend_axes (s : State) (page m : Nat) : (s.pend page m).axes = s.axes := by
  unfold State.pend State.wrI; dsimp only; split <;> simp
@[simp] theorem State.pend_fbk (s : State) (page m : Nat) : (s.pend page m).fbk = s.fbk := by
  unfold State.pend State.wrI; dsimp only; split <;> simp
@[simp] theorem State.pend_meas (s : State) (page m : Nat) : (s.pend page m).meas = s.meas := by
  unfold State.pend State.wrI; dsimp only; split <;> simp
@[simp] theorem State.pend_svy (s : State) (page m : Nat) : (s.pend page m).svy = s.svy := by
  unfold State.pend State.wrI; dsimp only; split <;> simp
@[simp] theorem State.pend_txq (s : State) (page m : Nat) : (s.pend page m).txq = s.txq := by
  unfold State.pend State.wrI; dsimp only; split <;> simp
@[simp] theorem State.pend_tri (s : State) (page m : Nat) : (s.pend page m).tri = s.tri := by
  unfold State.pend State.wrI; dsimp only; split <;> simp
@[simp] theorem State.pend_txBusy (s : State) (page m : Nat) : (s.pend page m).txBusy = s.txBusy := by
  unfold State.pend State.wrI; dsimp only; split <;> simp
@[simp] theorem State.pend_pair (s : State) (page m : Nat) : (s.pend page m).pair = s.pair := by
  unfold State.pend State.wrI; dsimp only; split <;> simp
@[simp] theorem State.pend_saf (s : State) (page m : Nat) : (s.pend page m).saf = s.saf := by
  unfold State.pend State.wrI; dsimp only; split <;> simp
@[simp] theorem State.pend_security (s : State) (page m : Nat) : (s.pend page m).security = s.security := by
  unfold State.pend State.wrI; dsimp only; split <;> simp
@[simp] theorem State.pend_pwr (s : State) (page m : Nat) : (s.pend page m).pwr = s.pwr := by
  unfold State.pend State.wrI; dsimp only; split <;> simp
@[simp] theorem State.pend_diagNow (s : State) (page m : Nat) : (s.pend page m).diagNow = s.diagNow := by
  unfold State.pend State.wrI; dsimp only; split <;> simp
@[simp] theorem State.pend_diagTime (s : State) (page m : Nat) : (s.pend page m).diagTime = s.diagTime := by
  unfold State.pend State.wrI; dsimp only; split <;> simp
@[simp] theorem State.pend_fuses (s : State) (page m : Nat) : (s.pend page m).fuses = s.fuses := by
  unfold State.pend State.wrI; dsimp only; split <;> simp
@[simp] theorem State.pend_hif (s : State) (page m : Nat) : (s.pend page m).hif = s.hif := by
  unfold State.pend State.wrI; dsimp only; split <;> simp
@[simp] theorem State.pend_pending (s : State) (page m : Nat) : (s.pend page m).pending = s.pending := by
  unfold State.pend State.wrI; dsimp only; split <;> simp
@[simp] theorem State.pend_served (s : State) (page m : Nat) : (s.pend page m).served = s.served := by
  unfold State.pend State.wrI; dsimp only; split <;> simp
@[simp] theorem State.raise_straps (s : State) (page n : Nat) : (s.raise page n).straps = s.straps := by
  unfold State.raise State.wrBitI; dsimp only; split <;> simp
@[simp] theorem State.raise_por (s : State) (page n : Nat) : (s.raise page n).por = s.por := by
  unfold State.raise State.wrBitI; dsimp only; split <;> simp
@[simp] theorem State.raise_frozen (s : State) (page n : Nat) : (s.raise page n).frozen = s.frozen := by
  unfold State.raise State.wrBitI; dsimp only; split <;> simp
@[simp] theorem State.raise_sram (s : State) (page n : Nat) : (s.raise page n).sram = s.sram := by
  unfold State.raise State.wrBitI; dsimp only; split <;> simp
@[simp] theorem State.raise_sramBad (s : State) (page n : Nat) : (s.raise page n).sramBad = s.sramBad := by
  unfold State.raise State.wrBitI; dsimp only; split <;> simp
@[simp] theorem State.raise_freeCtr (s : State) (page n : Nat) : (s.raise page n).freeCtr = s.freeCtr := by
  unfold State.raise State.wrBitI; dsimp only; split <;> simp
@[simp] theorem State.raise_mer (s : State) (page n : Nat) : (s.raise page n).mer = s.mer := by
  unfold State.raise State.wrBitI; dsimp only; split <;> simp
@[simp] theorem State.raise_pps (s : State) (page n : Nat) : (s.raise page n).pps = s.pps := by
  unfold State.raise State.wrBitI; dsimp only; split <;> simp
@[simp] theorem State.raise_ptp (s : State) (page n : Nat) : (s.raise page n).ptp = s.ptp := by
  unfold State.raise State.wrBitI; dsimp only; split <;> simp
@[simp] theorem State.raise_msix (s : State) (page n : Nat) : (s.raise page n).msix = s.msix := by
  unfold State.raise State.wrBitI; dsimp only; split <;> simp
@[simp] theorem State.raise_strideT (s : State) (page n : Nat) : (s.raise page n).strideT = s.strideT := by
  unfold State.raise State.wrBitI; dsimp only; split <;> simp
@[simp] theorem State.raise_bypassFromRunning (s : State) (page n : Nat) : (s.raise page n).bypassFromRunning = s.bypassFromRunning := by
  unfold State.raise State.wrBitI; dsimp only; split <;> simp
@[simp] theorem State.raise_rings (s : State) (page n : Nat) : (s.raise page n).rings = s.rings := by
  unfold State.raise State.wrBitI; dsimp only; split <;> simp
@[simp] theorem State.raise_prt (s : State) (page n : Nat) : (s.raise page n).prt = s.prt := by
  unfold State.raise State.wrBitI; dsimp only; split <;> simp
@[simp] theorem State.raise_txns (s : State) (page n : Nat) : (s.raise page n).txns = s.txns := by
  unfold State.raise State.wrBitI; dsimp only; split <;> simp
@[simp] theorem State.raise_pens (s : State) (page n : Nat) : (s.raise page n).pens = s.pens := by
  unfold State.raise State.wrBitI; dsimp only; split <;> simp
@[simp] theorem State.raise_bootStop (s : State) (page n : Nat) : (s.raise page n).bootStop = s.bootStop := by
  unfold State.raise State.wrBitI; dsimp only; split <;> simp
@[simp] theorem State.raise_trunk (s : State) (page n : Nat) : (s.raise page n).trunk = s.trunk := by
  unfold State.raise State.wrBitI; dsimp only; split <;> simp
@[simp] theorem State.raise_cells (s : State) (page n : Nat) : (s.raise page n).cells = s.cells := by
  unfold State.raise State.wrBitI; dsimp only; split <;> simp
@[simp] theorem State.raise_groups (s : State) (page n : Nat) : (s.raise page n).groups = s.groups := by
  unfold State.raise State.wrBitI; dsimp only; split <;> simp
@[simp] theorem State.raise_ctr (s : State) (page n : Nat) : (s.raise page n).ctr = s.ctr := by
  unfold State.raise State.wrBitI; dsimp only; split <;> simp
@[simp] theorem State.raise_cell (s : State) (page n : Nat) : (s.raise page n).cell = s.cell := by
  unfold State.raise State.wrBitI; dsimp only; split <;> simp
@[simp] theorem State.raise_edge (s : State) (page n : Nat) : (s.raise page n).edge = s.edge := by
  unfold State.raise State.wrBitI; dsimp only; split <;> simp
@[simp] theorem State.raise_gate (s : State) (page n : Nat) : (s.raise page n).gate = s.gate := by
  unfold State.raise State.wrBitI; dsimp only; split <;> simp
@[simp] theorem State.raise_graph (s : State) (page n : Nat) : (s.raise page n).graph = s.graph := by
  unfold State.raise State.wrBitI; dsimp only; split <;> simp
@[simp] theorem State.raise_axes (s : State) (page n : Nat) : (s.raise page n).axes = s.axes := by
  unfold State.raise State.wrBitI; dsimp only; split <;> simp
@[simp] theorem State.raise_fbk (s : State) (page n : Nat) : (s.raise page n).fbk = s.fbk := by
  unfold State.raise State.wrBitI; dsimp only; split <;> simp
@[simp] theorem State.raise_meas (s : State) (page n : Nat) : (s.raise page n).meas = s.meas := by
  unfold State.raise State.wrBitI; dsimp only; split <;> simp
@[simp] theorem State.raise_svy (s : State) (page n : Nat) : (s.raise page n).svy = s.svy := by
  unfold State.raise State.wrBitI; dsimp only; split <;> simp
@[simp] theorem State.raise_txq (s : State) (page n : Nat) : (s.raise page n).txq = s.txq := by
  unfold State.raise State.wrBitI; dsimp only; split <;> simp
@[simp] theorem State.raise_tri (s : State) (page n : Nat) : (s.raise page n).tri = s.tri := by
  unfold State.raise State.wrBitI; dsimp only; split <;> simp
@[simp] theorem State.raise_txBusy (s : State) (page n : Nat) : (s.raise page n).txBusy = s.txBusy := by
  unfold State.raise State.wrBitI; dsimp only; split <;> simp
@[simp] theorem State.raise_pair (s : State) (page n : Nat) : (s.raise page n).pair = s.pair := by
  unfold State.raise State.wrBitI; dsimp only; split <;> simp
@[simp] theorem State.raise_saf (s : State) (page n : Nat) : (s.raise page n).saf = s.saf := by
  unfold State.raise State.wrBitI; dsimp only; split <;> simp
@[simp] theorem State.raise_security (s : State) (page n : Nat) : (s.raise page n).security = s.security := by
  unfold State.raise State.wrBitI; dsimp only; split <;> simp
@[simp] theorem State.raise_pwr (s : State) (page n : Nat) : (s.raise page n).pwr = s.pwr := by
  unfold State.raise State.wrBitI; dsimp only; split <;> simp
@[simp] theorem State.raise_diagNow (s : State) (page n : Nat) : (s.raise page n).diagNow = s.diagNow := by
  unfold State.raise State.wrBitI; dsimp only; split <;> simp
@[simp] theorem State.raise_diagTime (s : State) (page n : Nat) : (s.raise page n).diagTime = s.diagTime := by
  unfold State.raise State.wrBitI; dsimp only; split <;> simp
@[simp] theorem State.raise_fuses (s : State) (page n : Nat) : (s.raise page n).fuses = s.fuses := by
  unfold State.raise State.wrBitI; dsimp only; split <;> simp
@[simp] theorem State.raise_hif (s : State) (page n : Nat) : (s.raise page n).hif = s.hif := by
  unfold State.raise State.wrBitI; dsimp only; split <;> simp
@[simp] theorem State.raise_pending (s : State) (page n : Nat) : (s.raise page n).pending = s.pending := by
  unfold State.raise State.wrBitI; dsimp only; split <;> simp
@[simp] theorem State.raise_served (s : State) (page n : Nat) : (s.raise page n).served = s.served := by
  unfold State.raise State.wrBitI; dsimp only; split <;> simp
@[simp] theorem State.raiseIf_straps (s : State) (c : Bool) (page n : Nat) : (s.raiseIf c page n).straps = s.straps := by
  unfold State.raiseIf; split <;> simp
@[simp] theorem State.raiseIf_por (s : State) (c : Bool) (page n : Nat) : (s.raiseIf c page n).por = s.por := by
  unfold State.raiseIf; split <;> simp
@[simp] theorem State.raiseIf_frozen (s : State) (c : Bool) (page n : Nat) : (s.raiseIf c page n).frozen = s.frozen := by
  unfold State.raiseIf; split <;> simp
@[simp] theorem State.raiseIf_sram (s : State) (c : Bool) (page n : Nat) : (s.raiseIf c page n).sram = s.sram := by
  unfold State.raiseIf; split <;> simp
@[simp] theorem State.raiseIf_sramBad (s : State) (c : Bool) (page n : Nat) : (s.raiseIf c page n).sramBad = s.sramBad := by
  unfold State.raiseIf; split <;> simp
@[simp] theorem State.raiseIf_freeCtr (s : State) (c : Bool) (page n : Nat) : (s.raiseIf c page n).freeCtr = s.freeCtr := by
  unfold State.raiseIf; split <;> simp
@[simp] theorem State.raiseIf_mer (s : State) (c : Bool) (page n : Nat) : (s.raiseIf c page n).mer = s.mer := by
  unfold State.raiseIf; split <;> simp
@[simp] theorem State.raiseIf_pps (s : State) (c : Bool) (page n : Nat) : (s.raiseIf c page n).pps = s.pps := by
  unfold State.raiseIf; split <;> simp
@[simp] theorem State.raiseIf_ptp (s : State) (c : Bool) (page n : Nat) : (s.raiseIf c page n).ptp = s.ptp := by
  unfold State.raiseIf; split <;> simp
@[simp] theorem State.raiseIf_msix (s : State) (c : Bool) (page n : Nat) : (s.raiseIf c page n).msix = s.msix := by
  unfold State.raiseIf; split <;> simp
@[simp] theorem State.raiseIf_strideT (s : State) (c : Bool) (page n : Nat) : (s.raiseIf c page n).strideT = s.strideT := by
  unfold State.raiseIf; split <;> simp
@[simp] theorem State.raiseIf_bypassFromRunning (s : State) (c : Bool) (page n : Nat) : (s.raiseIf c page n).bypassFromRunning = s.bypassFromRunning := by
  unfold State.raiseIf; split <;> simp
@[simp] theorem State.raiseIf_rings (s : State) (c : Bool) (page n : Nat) : (s.raiseIf c page n).rings = s.rings := by
  unfold State.raiseIf; split <;> simp
@[simp] theorem State.raiseIf_prt (s : State) (c : Bool) (page n : Nat) : (s.raiseIf c page n).prt = s.prt := by
  unfold State.raiseIf; split <;> simp
@[simp] theorem State.raiseIf_txns (s : State) (c : Bool) (page n : Nat) : (s.raiseIf c page n).txns = s.txns := by
  unfold State.raiseIf; split <;> simp
@[simp] theorem State.raiseIf_pens (s : State) (c : Bool) (page n : Nat) : (s.raiseIf c page n).pens = s.pens := by
  unfold State.raiseIf; split <;> simp
@[simp] theorem State.raiseIf_bootStop (s : State) (c : Bool) (page n : Nat) : (s.raiseIf c page n).bootStop = s.bootStop := by
  unfold State.raiseIf; split <;> simp
@[simp] theorem State.raiseIf_trunk (s : State) (c : Bool) (page n : Nat) : (s.raiseIf c page n).trunk = s.trunk := by
  unfold State.raiseIf; split <;> simp
@[simp] theorem State.raiseIf_cells (s : State) (c : Bool) (page n : Nat) : (s.raiseIf c page n).cells = s.cells := by
  unfold State.raiseIf; split <;> simp
@[simp] theorem State.raiseIf_groups (s : State) (c : Bool) (page n : Nat) : (s.raiseIf c page n).groups = s.groups := by
  unfold State.raiseIf; split <;> simp
@[simp] theorem State.raiseIf_ctr (s : State) (c : Bool) (page n : Nat) : (s.raiseIf c page n).ctr = s.ctr := by
  unfold State.raiseIf; split <;> simp
@[simp] theorem State.raiseIf_cell (s : State) (c : Bool) (page n : Nat) : (s.raiseIf c page n).cell = s.cell := by
  unfold State.raiseIf; split <;> simp
@[simp] theorem State.raiseIf_edge (s : State) (c : Bool) (page n : Nat) : (s.raiseIf c page n).edge = s.edge := by
  unfold State.raiseIf; split <;> simp
@[simp] theorem State.raiseIf_gate (s : State) (c : Bool) (page n : Nat) : (s.raiseIf c page n).gate = s.gate := by
  unfold State.raiseIf; split <;> simp
@[simp] theorem State.raiseIf_graph (s : State) (c : Bool) (page n : Nat) : (s.raiseIf c page n).graph = s.graph := by
  unfold State.raiseIf; split <;> simp
@[simp] theorem State.raiseIf_axes (s : State) (c : Bool) (page n : Nat) : (s.raiseIf c page n).axes = s.axes := by
  unfold State.raiseIf; split <;> simp
@[simp] theorem State.raiseIf_fbk (s : State) (c : Bool) (page n : Nat) : (s.raiseIf c page n).fbk = s.fbk := by
  unfold State.raiseIf; split <;> simp
@[simp] theorem State.raiseIf_meas (s : State) (c : Bool) (page n : Nat) : (s.raiseIf c page n).meas = s.meas := by
  unfold State.raiseIf; split <;> simp
@[simp] theorem State.raiseIf_svy (s : State) (c : Bool) (page n : Nat) : (s.raiseIf c page n).svy = s.svy := by
  unfold State.raiseIf; split <;> simp
@[simp] theorem State.raiseIf_txq (s : State) (c : Bool) (page n : Nat) : (s.raiseIf c page n).txq = s.txq := by
  unfold State.raiseIf; split <;> simp
@[simp] theorem State.raiseIf_tri (s : State) (c : Bool) (page n : Nat) : (s.raiseIf c page n).tri = s.tri := by
  unfold State.raiseIf; split <;> simp
@[simp] theorem State.raiseIf_txBusy (s : State) (c : Bool) (page n : Nat) : (s.raiseIf c page n).txBusy = s.txBusy := by
  unfold State.raiseIf; split <;> simp
@[simp] theorem State.raiseIf_pair (s : State) (c : Bool) (page n : Nat) : (s.raiseIf c page n).pair = s.pair := by
  unfold State.raiseIf; split <;> simp
@[simp] theorem State.raiseIf_saf (s : State) (c : Bool) (page n : Nat) : (s.raiseIf c page n).saf = s.saf := by
  unfold State.raiseIf; split <;> simp
@[simp] theorem State.raiseIf_security (s : State) (c : Bool) (page n : Nat) : (s.raiseIf c page n).security = s.security := by
  unfold State.raiseIf; split <;> simp
@[simp] theorem State.raiseIf_pwr (s : State) (c : Bool) (page n : Nat) : (s.raiseIf c page n).pwr = s.pwr := by
  unfold State.raiseIf; split <;> simp
@[simp] theorem State.raiseIf_diagNow (s : State) (c : Bool) (page n : Nat) : (s.raiseIf c page n).diagNow = s.diagNow := by
  unfold State.raiseIf; split <;> simp
@[simp] theorem State.raiseIf_diagTime (s : State) (c : Bool) (page n : Nat) : (s.raiseIf c page n).diagTime = s.diagTime := by
  unfold State.raiseIf; split <;> simp
@[simp] theorem State.raiseIf_fuses (s : State) (c : Bool) (page n : Nat) : (s.raiseIf c page n).fuses = s.fuses := by
  unfold State.raiseIf; split <;> simp
@[simp] theorem State.raiseIf_hif (s : State) (c : Bool) (page n : Nat) : (s.raiseIf c page n).hif = s.hif := by
  unfold State.raiseIf; split <;> simp
@[simp] theorem State.raiseIf_pending (s : State) (c : Bool) (page n : Nat) : (s.raiseIf c page n).pending = s.pending := by
  unfold State.raiseIf; split <;> simp
@[simp] theorem State.raiseIf_served (s : State) (c : Bool) (page n : Nat) : (s.raiseIf c page n).served = s.served := by
  unfold State.raiseIf; split <;> simp
@[simp] theorem State.accessErr_straps (s : State) (page ofs c : Nat) : (s.accessErr page ofs c).straps = s.straps := by
  simp [State.accessErr, State.wrI, State.incI, State.addCntA]
@[simp] theorem State.accessErr_por (s : State) (page ofs c : Nat) : (s.accessErr page ofs c).por = s.por := by
  simp [State.accessErr, State.wrI, State.incI, State.addCntA]
@[simp] theorem State.accessErr_frozen (s : State) (page ofs c : Nat) : (s.accessErr page ofs c).frozen = s.frozen := by
  simp [State.accessErr, State.wrI, State.incI, State.addCntA]
@[simp] theorem State.accessErr_sram (s : State) (page ofs c : Nat) : (s.accessErr page ofs c).sram = s.sram := by
  simp [State.accessErr, State.wrI, State.incI, State.addCntA]
@[simp] theorem State.accessErr_sramBad (s : State) (page ofs c : Nat) : (s.accessErr page ofs c).sramBad = s.sramBad := by
  simp [State.accessErr, State.wrI, State.incI, State.addCntA]
@[simp] theorem State.accessErr_freeCtr (s : State) (page ofs c : Nat) : (s.accessErr page ofs c).freeCtr = s.freeCtr := by
  simp [State.accessErr, State.wrI, State.incI, State.addCntA]
@[simp] theorem State.accessErr_mer (s : State) (page ofs c : Nat) : (s.accessErr page ofs c).mer = s.mer := by
  simp [State.accessErr, State.wrI, State.incI, State.addCntA]
@[simp] theorem State.accessErr_pps (s : State) (page ofs c : Nat) : (s.accessErr page ofs c).pps = s.pps := by
  simp [State.accessErr, State.wrI, State.incI, State.addCntA]
@[simp] theorem State.accessErr_ptp (s : State) (page ofs c : Nat) : (s.accessErr page ofs c).ptp = s.ptp := by
  simp [State.accessErr, State.wrI, State.incI, State.addCntA]
@[simp] theorem State.accessErr_msix (s : State) (page ofs c : Nat) : (s.accessErr page ofs c).msix = s.msix := by
  simp [State.accessErr, State.wrI, State.incI, State.addCntA]
@[simp] theorem State.accessErr_strideT (s : State) (page ofs c : Nat) : (s.accessErr page ofs c).strideT = s.strideT := by
  simp [State.accessErr, State.wrI, State.incI, State.addCntA]
@[simp] theorem State.accessErr_bypassFromRunning (s : State) (page ofs c : Nat) : (s.accessErr page ofs c).bypassFromRunning = s.bypassFromRunning := by
  simp [State.accessErr, State.wrI, State.incI, State.addCntA]
@[simp] theorem State.accessErr_rings (s : State) (page ofs c : Nat) : (s.accessErr page ofs c).rings = s.rings := by
  simp [State.accessErr, State.wrI, State.incI, State.addCntA]
@[simp] theorem State.accessErr_prt (s : State) (page ofs c : Nat) : (s.accessErr page ofs c).prt = s.prt := by
  simp [State.accessErr, State.wrI, State.incI, State.addCntA]
@[simp] theorem State.accessErr_txns (s : State) (page ofs c : Nat) : (s.accessErr page ofs c).txns = s.txns := by
  simp [State.accessErr, State.wrI, State.incI, State.addCntA]
@[simp] theorem State.accessErr_pens (s : State) (page ofs c : Nat) : (s.accessErr page ofs c).pens = s.pens := by
  simp [State.accessErr, State.wrI, State.incI, State.addCntA]
@[simp] theorem State.accessErr_bootStop (s : State) (page ofs c : Nat) : (s.accessErr page ofs c).bootStop = s.bootStop := by
  simp [State.accessErr, State.wrI, State.incI, State.addCntA]
@[simp] theorem State.accessErr_trunk (s : State) (page ofs c : Nat) : (s.accessErr page ofs c).trunk = s.trunk := by
  simp [State.accessErr, State.wrI, State.incI, State.addCntA]
@[simp] theorem State.accessErr_cells (s : State) (page ofs c : Nat) : (s.accessErr page ofs c).cells = s.cells := by
  simp [State.accessErr, State.wrI, State.incI, State.addCntA]
@[simp] theorem State.accessErr_groups (s : State) (page ofs c : Nat) : (s.accessErr page ofs c).groups = s.groups := by
  simp [State.accessErr, State.wrI, State.incI, State.addCntA]
@[simp] theorem State.accessErr_ctr (s : State) (page ofs c : Nat) : (s.accessErr page ofs c).ctr = s.ctr := by
  simp [State.accessErr, State.wrI, State.incI, State.addCntA]
@[simp] theorem State.accessErr_cell (s : State) (page ofs c : Nat) : (s.accessErr page ofs c).cell = s.cell := by
  simp [State.accessErr, State.wrI, State.incI, State.addCntA]
@[simp] theorem State.accessErr_edge (s : State) (page ofs c : Nat) : (s.accessErr page ofs c).edge = s.edge := by
  simp [State.accessErr, State.wrI, State.incI, State.addCntA]
@[simp] theorem State.accessErr_gate (s : State) (page ofs c : Nat) : (s.accessErr page ofs c).gate = s.gate := by
  simp [State.accessErr, State.wrI, State.incI, State.addCntA]
@[simp] theorem State.accessErr_graph (s : State) (page ofs c : Nat) : (s.accessErr page ofs c).graph = s.graph := by
  simp [State.accessErr, State.wrI, State.incI, State.addCntA]
@[simp] theorem State.accessErr_axes (s : State) (page ofs c : Nat) : (s.accessErr page ofs c).axes = s.axes := by
  simp [State.accessErr, State.wrI, State.incI, State.addCntA]
@[simp] theorem State.accessErr_fbk (s : State) (page ofs c : Nat) : (s.accessErr page ofs c).fbk = s.fbk := by
  simp [State.accessErr, State.wrI, State.incI, State.addCntA]
@[simp] theorem State.accessErr_meas (s : State) (page ofs c : Nat) : (s.accessErr page ofs c).meas = s.meas := by
  simp [State.accessErr, State.wrI, State.incI, State.addCntA]
@[simp] theorem State.accessErr_svy (s : State) (page ofs c : Nat) : (s.accessErr page ofs c).svy = s.svy := by
  simp [State.accessErr, State.wrI, State.incI, State.addCntA]
@[simp] theorem State.accessErr_txq (s : State) (page ofs c : Nat) : (s.accessErr page ofs c).txq = s.txq := by
  simp [State.accessErr, State.wrI, State.incI, State.addCntA]
@[simp] theorem State.accessErr_tri (s : State) (page ofs c : Nat) : (s.accessErr page ofs c).tri = s.tri := by
  simp [State.accessErr, State.wrI, State.incI, State.addCntA]
@[simp] theorem State.accessErr_txBusy (s : State) (page ofs c : Nat) : (s.accessErr page ofs c).txBusy = s.txBusy := by
  simp [State.accessErr, State.wrI, State.incI, State.addCntA]
@[simp] theorem State.accessErr_pair (s : State) (page ofs c : Nat) : (s.accessErr page ofs c).pair = s.pair := by
  simp [State.accessErr, State.wrI, State.incI, State.addCntA]
@[simp] theorem State.accessErr_saf (s : State) (page ofs c : Nat) : (s.accessErr page ofs c).saf = s.saf := by
  simp [State.accessErr, State.wrI, State.incI, State.addCntA]
@[simp] theorem State.accessErr_security (s : State) (page ofs c : Nat) : (s.accessErr page ofs c).security = s.security := by
  simp [State.accessErr, State.wrI, State.incI, State.addCntA]
@[simp] theorem State.accessErr_pwr (s : State) (page ofs c : Nat) : (s.accessErr page ofs c).pwr = s.pwr := by
  simp [State.accessErr, State.wrI, State.incI, State.addCntA]
@[simp] theorem State.accessErr_diagNow (s : State) (page ofs c : Nat) : (s.accessErr page ofs c).diagNow = s.diagNow := by
  simp [State.accessErr, State.wrI, State.incI, State.addCntA]
@[simp] theorem State.accessErr_diagTime (s : State) (page ofs c : Nat) : (s.accessErr page ofs c).diagTime = s.diagTime := by
  simp [State.accessErr, State.wrI, State.incI, State.addCntA]
@[simp] theorem State.accessErr_fuses (s : State) (page ofs c : Nat) : (s.accessErr page ofs c).fuses = s.fuses := by
  simp [State.accessErr, State.wrI, State.incI, State.addCntA]
@[simp] theorem State.accessErr_pending (s : State) (page ofs c : Nat) : (s.accessErr page ofs c).pending = s.pending := by
  simp [State.accessErr, State.wrI, State.incI, State.addCntA]
@[simp] theorem State.accessErr_served (s : State) (page ofs c : Nat) : (s.accessErr page ofs c).served = s.served := by
  simp [State.accessErr, State.wrI, State.incI, State.addCntA]

/-! The straps, the fuses and the queue kept. -/

@[simp] theorem State.keep_straps (s t : State) : (s.keep t).straps = s.straps := rfl
@[simp] theorem State.keep_por (s t : State) : (s.keep t).por = t.por := rfl
@[simp] theorem State.keep_regs (s t : State) : (s.keep t).regs = t.regs := rfl
@[simp] theorem State.keep_frozen (s t : State) : (s.keep t).frozen = t.frozen := rfl
@[simp] theorem State.keep_sram (s t : State) : (s.keep t).sram = t.sram := rfl
@[simp] theorem State.keep_sramBad (s t : State) : (s.keep t).sramBad = t.sramBad := rfl
@[simp] theorem State.keep_freeCtr (s t : State) : (s.keep t).freeCtr = t.freeCtr := rfl
@[simp] theorem State.keep_out (s t : State) : (s.keep t).out = t.out := rfl
@[simp] theorem State.keep_mer (s t : State) : (s.keep t).mer = t.mer := rfl
@[simp] theorem State.keep_pps (s t : State) : (s.keep t).pps = t.pps := rfl
@[simp] theorem State.keep_ptp (s t : State) : (s.keep t).ptp = t.ptp := rfl
@[simp] theorem State.keep_msix (s t : State) : (s.keep t).msix = t.msix := rfl
@[simp] theorem State.keep_msixPending (s t : State) : (s.keep t).msixPending = t.msixPending := rfl
@[simp] theorem State.keep_strideT (s t : State) : (s.keep t).strideT = t.strideT := rfl
@[simp] theorem State.keep_bypassFromRunning (s t : State) : (s.keep t).bypassFromRunning = t.bypassFromRunning := rfl
@[simp] theorem State.keep_rings (s t : State) : (s.keep t).rings = t.rings := rfl
@[simp] theorem State.keep_prt (s t : State) : (s.keep t).prt = t.prt := rfl
@[simp] theorem State.keep_txns (s t : State) : (s.keep t).txns = t.txns := rfl
@[simp] theorem State.keep_pens (s t : State) : (s.keep t).pens = t.pens := rfl
@[simp] theorem State.keep_bootStop (s t : State) : (s.keep t).bootStop = t.bootStop := rfl
@[simp] theorem State.keep_trunk (s t : State) : (s.keep t).trunk = t.trunk := rfl
@[simp] theorem State.keep_cells (s t : State) : (s.keep t).cells = t.cells := rfl
@[simp] theorem State.keep_groups (s t : State) : (s.keep t).groups = t.groups := rfl
@[simp] theorem State.keep_ctr (s t : State) : (s.keep t).ctr = t.ctr := rfl
@[simp] theorem State.keep_cell (s t : State) : (s.keep t).cell = t.cell := rfl
@[simp] theorem State.keep_edge (s t : State) : (s.keep t).edge = t.edge := rfl
@[simp] theorem State.keep_gate (s t : State) : (s.keep t).gate = t.gate := rfl
@[simp] theorem State.keep_graph (s t : State) : (s.keep t).graph = t.graph := rfl
@[simp] theorem State.keep_axes (s t : State) : (s.keep t).axes = t.axes := rfl
@[simp] theorem State.keep_fbk (s t : State) : (s.keep t).fbk = t.fbk := rfl
@[simp] theorem State.keep_meas (s t : State) : (s.keep t).meas = t.meas := rfl
@[simp] theorem State.keep_svy (s t : State) : (s.keep t).svy = t.svy := rfl
@[simp] theorem State.keep_txq (s t : State) : (s.keep t).txq = t.txq := rfl
@[simp] theorem State.keep_tri (s t : State) : (s.keep t).tri = t.tri := rfl
@[simp] theorem State.keep_txBusy (s t : State) : (s.keep t).txBusy = t.txBusy := rfl
@[simp] theorem State.keep_pair (s t : State) : (s.keep t).pair = t.pair := rfl
@[simp] theorem State.keep_saf (s t : State) : (s.keep t).saf = t.saf := rfl
@[simp] theorem State.keep_security (s t : State) : (s.keep t).security = t.security := rfl
@[simp] theorem State.keep_pwr (s t : State) : (s.keep t).pwr = t.pwr := rfl
@[simp] theorem State.keep_diagNow (s t : State) : (s.keep t).diagNow = t.diagNow := rfl
@[simp] theorem State.keep_diagTime (s t : State) : (s.keep t).diagTime = t.diagTime := rfl
@[simp] theorem State.keep_fuses (s t : State) : (s.keep t).fuses = s.fuses := rfl
@[simp] theorem State.keep_hif (s t : State) : (s.keep t).hif = t.hif := rfl
@[simp] theorem State.keep_pending (s t : State) : (s.keep t).pending = s.pending := rfl
@[simp] theorem State.keep_served (s t : State) : (s.keep t).served = t.served := rfl
@[simp] theorem State.keepStraps_straps (s t : State) : (s.keepStraps t).straps = s.straps := rfl
@[simp] theorem State.keepStraps_por (s t : State) : (s.keepStraps t).por = t.por := rfl
@[simp] theorem State.keepStraps_regs (s t : State) : (s.keepStraps t).regs = t.regs := rfl
@[simp] theorem State.keepStraps_frozen (s t : State) : (s.keepStraps t).frozen = t.frozen := rfl
@[simp] theorem State.keepStraps_sram (s t : State) : (s.keepStraps t).sram = t.sram := rfl
@[simp] theorem State.keepStraps_sramBad (s t : State) : (s.keepStraps t).sramBad = t.sramBad := rfl
@[simp] theorem State.keepStraps_freeCtr (s t : State) : (s.keepStraps t).freeCtr = t.freeCtr := rfl
@[simp] theorem State.keepStraps_out (s t : State) : (s.keepStraps t).out = t.out := rfl
@[simp] theorem State.keepStraps_mer (s t : State) : (s.keepStraps t).mer = t.mer := rfl
@[simp] theorem State.keepStraps_pps (s t : State) : (s.keepStraps t).pps = t.pps := rfl
@[simp] theorem State.keepStraps_ptp (s t : State) : (s.keepStraps t).ptp = t.ptp := rfl
@[simp] theorem State.keepStraps_msix (s t : State) : (s.keepStraps t).msix = t.msix := rfl
@[simp] theorem State.keepStraps_msixPending (s t : State) : (s.keepStraps t).msixPending = t.msixPending := rfl
@[simp] theorem State.keepStraps_strideT (s t : State) : (s.keepStraps t).strideT = t.strideT := rfl
@[simp] theorem State.keepStraps_bypassFromRunning (s t : State) : (s.keepStraps t).bypassFromRunning = t.bypassFromRunning := rfl
@[simp] theorem State.keepStraps_rings (s t : State) : (s.keepStraps t).rings = t.rings := rfl
@[simp] theorem State.keepStraps_prt (s t : State) : (s.keepStraps t).prt = t.prt := rfl
@[simp] theorem State.keepStraps_txns (s t : State) : (s.keepStraps t).txns = t.txns := rfl
@[simp] theorem State.keepStraps_pens (s t : State) : (s.keepStraps t).pens = t.pens := rfl
@[simp] theorem State.keepStraps_bootStop (s t : State) : (s.keepStraps t).bootStop = t.bootStop := rfl
@[simp] theorem State.keepStraps_trunk (s t : State) : (s.keepStraps t).trunk = t.trunk := rfl
@[simp] theorem State.keepStraps_cells (s t : State) : (s.keepStraps t).cells = t.cells := rfl
@[simp] theorem State.keepStraps_groups (s t : State) : (s.keepStraps t).groups = t.groups := rfl
@[simp] theorem State.keepStraps_ctr (s t : State) : (s.keepStraps t).ctr = t.ctr := rfl
@[simp] theorem State.keepStraps_cell (s t : State) : (s.keepStraps t).cell = t.cell := rfl
@[simp] theorem State.keepStraps_edge (s t : State) : (s.keepStraps t).edge = t.edge := rfl
@[simp] theorem State.keepStraps_gate (s t : State) : (s.keepStraps t).gate = t.gate := rfl
@[simp] theorem State.keepStraps_graph (s t : State) : (s.keepStraps t).graph = t.graph := rfl
@[simp] theorem State.keepStraps_axes (s t : State) : (s.keepStraps t).axes = t.axes := rfl
@[simp] theorem State.keepStraps_fbk (s t : State) : (s.keepStraps t).fbk = t.fbk := rfl
@[simp] theorem State.keepStraps_meas (s t : State) : (s.keepStraps t).meas = t.meas := rfl
@[simp] theorem State.keepStraps_svy (s t : State) : (s.keepStraps t).svy = t.svy := rfl
@[simp] theorem State.keepStraps_txq (s t : State) : (s.keepStraps t).txq = t.txq := rfl
@[simp] theorem State.keepStraps_tri (s t : State) : (s.keepStraps t).tri = t.tri := rfl
@[simp] theorem State.keepStraps_txBusy (s t : State) : (s.keepStraps t).txBusy = t.txBusy := rfl
@[simp] theorem State.keepStraps_pair (s t : State) : (s.keepStraps t).pair = t.pair := rfl
@[simp] theorem State.keepStraps_saf (s t : State) : (s.keepStraps t).saf = t.saf := rfl
@[simp] theorem State.keepStraps_security (s t : State) : (s.keepStraps t).security = t.security := rfl
@[simp] theorem State.keepStraps_pwr (s t : State) : (s.keepStraps t).pwr = t.pwr := rfl
@[simp] theorem State.keepStraps_diagNow (s t : State) : (s.keepStraps t).diagNow = t.diagNow := rfl
@[simp] theorem State.keepStraps_diagTime (s t : State) : (s.keepStraps t).diagTime = t.diagTime := rfl
@[simp] theorem State.keepStraps_fuses (s t : State) : (s.keepStraps t).fuses = t.fuses := rfl
@[simp] theorem State.keepStraps_hif (s t : State) : (s.keepStraps t).hif = t.hif := rfl
@[simp] theorem State.keepStraps_pending (s t : State) : (s.keepStraps t).pending = s.pending := rfl
@[simp] theorem State.keepStraps_served (s t : State) : (s.keepStraps t).served = t.served := rfl

/-! Time moved on to an instant of the Meridian. -/

@[simp] theorem State.advanceTo_straps (s : State) (t : Nat) : (s.advanceTo t).straps = s.straps := by unfold State.advanceTo; split <;> rfl
@[simp] theorem State.advanceTo_por (s : State) (t : Nat) : (s.advanceTo t).por = s.por := by unfold State.advanceTo; split <;> rfl
@[simp] theorem State.advanceTo_regs (s : State) (t : Nat) : (s.advanceTo t).regs = s.regs := by unfold State.advanceTo; split <;> rfl
@[simp] theorem State.advanceTo_frozen (s : State) (t : Nat) : (s.advanceTo t).frozen = s.frozen := by unfold State.advanceTo; split <;> rfl
@[simp] theorem State.advanceTo_sram (s : State) (t : Nat) : (s.advanceTo t).sram = s.sram := by unfold State.advanceTo; split <;> rfl
@[simp] theorem State.advanceTo_sramBad (s : State) (t : Nat) : (s.advanceTo t).sramBad = s.sramBad := by unfold State.advanceTo; split <;> rfl
@[simp] theorem State.advanceTo_freeCtr (s : State) (t : Nat) : (s.advanceTo t).freeCtr = s.freeCtr := by unfold State.advanceTo; split <;> rfl
@[simp] theorem State.advanceTo_out (s : State) (t : Nat) : (s.advanceTo t).out = s.out := by unfold State.advanceTo; split <;> rfl
@[simp] theorem State.advanceTo_pps (s : State) (t : Nat) : (s.advanceTo t).pps = s.pps := by unfold State.advanceTo; split <;> rfl
@[simp] theorem State.advanceTo_ptp (s : State) (t : Nat) : (s.advanceTo t).ptp = s.ptp := by unfold State.advanceTo; split <;> rfl
@[simp] theorem State.advanceTo_msix (s : State) (t : Nat) : (s.advanceTo t).msix = s.msix := by unfold State.advanceTo; split <;> rfl
@[simp] theorem State.advanceTo_msixPending (s : State) (t : Nat) : (s.advanceTo t).msixPending = s.msixPending := by unfold State.advanceTo; split <;> rfl
@[simp] theorem State.advanceTo_strideT (s : State) (t : Nat) : (s.advanceTo t).strideT = s.strideT := by unfold State.advanceTo; split <;> rfl
@[simp] theorem State.advanceTo_bypassFromRunning (s : State) (t : Nat) : (s.advanceTo t).bypassFromRunning = s.bypassFromRunning := by unfold State.advanceTo; split <;> rfl
@[simp] theorem State.advanceTo_rings (s : State) (t : Nat) : (s.advanceTo t).rings = s.rings := by unfold State.advanceTo; split <;> rfl
@[simp] theorem State.advanceTo_prt (s : State) (t : Nat) : (s.advanceTo t).prt = s.prt := by unfold State.advanceTo; split <;> rfl
@[simp] theorem State.advanceTo_txns (s : State) (t : Nat) : (s.advanceTo t).txns = s.txns := by unfold State.advanceTo; split <;> rfl
@[simp] theorem State.advanceTo_pens (s : State) (t : Nat) : (s.advanceTo t).pens = s.pens := by unfold State.advanceTo; split <;> rfl
@[simp] theorem State.advanceTo_bootStop (s : State) (t : Nat) : (s.advanceTo t).bootStop = s.bootStop := by unfold State.advanceTo; split <;> rfl
@[simp] theorem State.advanceTo_trunk (s : State) (t : Nat) : (s.advanceTo t).trunk = s.trunk := by unfold State.advanceTo; split <;> rfl
@[simp] theorem State.advanceTo_cells (s : State) (t : Nat) : (s.advanceTo t).cells = s.cells := by unfold State.advanceTo; split <;> rfl
@[simp] theorem State.advanceTo_groups (s : State) (t : Nat) : (s.advanceTo t).groups = s.groups := by unfold State.advanceTo; split <;> rfl
@[simp] theorem State.advanceTo_ctr (s : State) (t : Nat) : (s.advanceTo t).ctr = s.ctr := by unfold State.advanceTo; split <;> rfl
@[simp] theorem State.advanceTo_cell (s : State) (t : Nat) : (s.advanceTo t).cell = s.cell := by unfold State.advanceTo; split <;> rfl
@[simp] theorem State.advanceTo_edge (s : State) (t : Nat) : (s.advanceTo t).edge = s.edge := by unfold State.advanceTo; split <;> rfl
@[simp] theorem State.advanceTo_gate (s : State) (t : Nat) : (s.advanceTo t).gate = s.gate := by unfold State.advanceTo; split <;> rfl
@[simp] theorem State.advanceTo_graph (s : State) (t : Nat) : (s.advanceTo t).graph = s.graph := by unfold State.advanceTo; split <;> rfl
@[simp] theorem State.advanceTo_axes (s : State) (t : Nat) : (s.advanceTo t).axes = s.axes := by unfold State.advanceTo; split <;> rfl
@[simp] theorem State.advanceTo_fbk (s : State) (t : Nat) : (s.advanceTo t).fbk = s.fbk := by unfold State.advanceTo; split <;> rfl
@[simp] theorem State.advanceTo_meas (s : State) (t : Nat) : (s.advanceTo t).meas = s.meas := by unfold State.advanceTo; split <;> rfl
@[simp] theorem State.advanceTo_svy (s : State) (t : Nat) : (s.advanceTo t).svy = s.svy := by unfold State.advanceTo; split <;> rfl
@[simp] theorem State.advanceTo_txq (s : State) (t : Nat) : (s.advanceTo t).txq = s.txq := by unfold State.advanceTo; split <;> rfl
@[simp] theorem State.advanceTo_tri (s : State) (t : Nat) : (s.advanceTo t).tri = s.tri := by unfold State.advanceTo; split <;> rfl
@[simp] theorem State.advanceTo_txBusy (s : State) (t : Nat) : (s.advanceTo t).txBusy = s.txBusy := by unfold State.advanceTo; split <;> rfl
@[simp] theorem State.advanceTo_pair (s : State) (t : Nat) : (s.advanceTo t).pair = s.pair := by unfold State.advanceTo; split <;> rfl
@[simp] theorem State.advanceTo_saf (s : State) (t : Nat) : (s.advanceTo t).saf = s.saf := by unfold State.advanceTo; split <;> rfl
@[simp] theorem State.advanceTo_security (s : State) (t : Nat) : (s.advanceTo t).security = s.security := by unfold State.advanceTo; split <;> rfl
@[simp] theorem State.advanceTo_pwr (s : State) (t : Nat) : (s.advanceTo t).pwr = s.pwr := by unfold State.advanceTo; split <;> rfl
@[simp] theorem State.advanceTo_diagNow (s : State) (t : Nat) : (s.advanceTo t).diagNow = s.diagNow := by unfold State.advanceTo; split <;> rfl
@[simp] theorem State.advanceTo_diagTime (s : State) (t : Nat) : (s.advanceTo t).diagTime = s.diagTime := by unfold State.advanceTo; split <;> rfl
@[simp] theorem State.advanceTo_fuses (s : State) (t : Nat) : (s.advanceTo t).fuses = s.fuses := by unfold State.advanceTo; split <;> rfl
@[simp] theorem State.advanceTo_hif (s : State) (t : Nat) : (s.advanceTo t).hif = s.hif := by unfold State.advanceTo; split <;> rfl
@[simp] theorem State.advanceTo_pending (s : State) (t : Nat) : (s.advanceTo t).pending = s.pending := by unfold State.advanceTo; split <;> rfl
@[simp] theorem State.advanceTo_served (s : State) (t : Nat) : (s.advanceTo t).served = s.served := by unfold State.advanceTo; split <;> rfl

/-! Time moved on to an instant of the uptime. -/

@[simp] theorem State.advanceUp_straps (s : State) (t : Nat) : (s.advanceUp t).straps = s.straps := by unfold State.advanceUp; split <;> rfl
@[simp] theorem State.advanceUp_por (s : State) (t : Nat) : (s.advanceUp t).por = s.por := by unfold State.advanceUp; split <;> rfl
@[simp] theorem State.advanceUp_regs (s : State) (t : Nat) : (s.advanceUp t).regs = s.regs := by unfold State.advanceUp; split <;> rfl
@[simp] theorem State.advanceUp_frozen (s : State) (t : Nat) : (s.advanceUp t).frozen = s.frozen := by unfold State.advanceUp; split <;> rfl
@[simp] theorem State.advanceUp_sram (s : State) (t : Nat) : (s.advanceUp t).sram = s.sram := by unfold State.advanceUp; split <;> rfl
@[simp] theorem State.advanceUp_sramBad (s : State) (t : Nat) : (s.advanceUp t).sramBad = s.sramBad := by unfold State.advanceUp; split <;> rfl
@[simp] theorem State.advanceUp_freeCtr (s : State) (t : Nat) : (s.advanceUp t).freeCtr = s.freeCtr := by unfold State.advanceUp; split <;> rfl
@[simp] theorem State.advanceUp_out (s : State) (t : Nat) : (s.advanceUp t).out = s.out := by unfold State.advanceUp; split <;> rfl
@[simp] theorem State.advanceUp_pps (s : State) (t : Nat) : (s.advanceUp t).pps = s.pps := by unfold State.advanceUp; split <;> rfl
@[simp] theorem State.advanceUp_ptp (s : State) (t : Nat) : (s.advanceUp t).ptp = s.ptp := by unfold State.advanceUp; split <;> rfl
@[simp] theorem State.advanceUp_msix (s : State) (t : Nat) : (s.advanceUp t).msix = s.msix := by unfold State.advanceUp; split <;> rfl
@[simp] theorem State.advanceUp_msixPending (s : State) (t : Nat) : (s.advanceUp t).msixPending = s.msixPending := by unfold State.advanceUp; split <;> rfl
@[simp] theorem State.advanceUp_strideT (s : State) (t : Nat) : (s.advanceUp t).strideT = s.strideT := by unfold State.advanceUp; split <;> rfl
@[simp] theorem State.advanceUp_bypassFromRunning (s : State) (t : Nat) : (s.advanceUp t).bypassFromRunning = s.bypassFromRunning := by unfold State.advanceUp; split <;> rfl
@[simp] theorem State.advanceUp_rings (s : State) (t : Nat) : (s.advanceUp t).rings = s.rings := by unfold State.advanceUp; split <;> rfl
@[simp] theorem State.advanceUp_prt (s : State) (t : Nat) : (s.advanceUp t).prt = s.prt := by unfold State.advanceUp; split <;> rfl
@[simp] theorem State.advanceUp_txns (s : State) (t : Nat) : (s.advanceUp t).txns = s.txns := by unfold State.advanceUp; split <;> rfl
@[simp] theorem State.advanceUp_pens (s : State) (t : Nat) : (s.advanceUp t).pens = s.pens := by unfold State.advanceUp; split <;> rfl
@[simp] theorem State.advanceUp_bootStop (s : State) (t : Nat) : (s.advanceUp t).bootStop = s.bootStop := by unfold State.advanceUp; split <;> rfl
@[simp] theorem State.advanceUp_trunk (s : State) (t : Nat) : (s.advanceUp t).trunk = s.trunk := by unfold State.advanceUp; split <;> rfl
@[simp] theorem State.advanceUp_cells (s : State) (t : Nat) : (s.advanceUp t).cells = s.cells := by unfold State.advanceUp; split <;> rfl
@[simp] theorem State.advanceUp_groups (s : State) (t : Nat) : (s.advanceUp t).groups = s.groups := by unfold State.advanceUp; split <;> rfl
@[simp] theorem State.advanceUp_ctr (s : State) (t : Nat) : (s.advanceUp t).ctr = s.ctr := by unfold State.advanceUp; split <;> rfl
@[simp] theorem State.advanceUp_cell (s : State) (t : Nat) : (s.advanceUp t).cell = s.cell := by unfold State.advanceUp; split <;> rfl
@[simp] theorem State.advanceUp_edge (s : State) (t : Nat) : (s.advanceUp t).edge = s.edge := by unfold State.advanceUp; split <;> rfl
@[simp] theorem State.advanceUp_gate (s : State) (t : Nat) : (s.advanceUp t).gate = s.gate := by unfold State.advanceUp; split <;> rfl
@[simp] theorem State.advanceUp_graph (s : State) (t : Nat) : (s.advanceUp t).graph = s.graph := by unfold State.advanceUp; split <;> rfl
@[simp] theorem State.advanceUp_axes (s : State) (t : Nat) : (s.advanceUp t).axes = s.axes := by unfold State.advanceUp; split <;> rfl
@[simp] theorem State.advanceUp_fbk (s : State) (t : Nat) : (s.advanceUp t).fbk = s.fbk := by unfold State.advanceUp; split <;> rfl
@[simp] theorem State.advanceUp_meas (s : State) (t : Nat) : (s.advanceUp t).meas = s.meas := by unfold State.advanceUp; split <;> rfl
@[simp] theorem State.advanceUp_svy (s : State) (t : Nat) : (s.advanceUp t).svy = s.svy := by unfold State.advanceUp; split <;> rfl
@[simp] theorem State.advanceUp_txq (s : State) (t : Nat) : (s.advanceUp t).txq = s.txq := by unfold State.advanceUp; split <;> rfl
@[simp] theorem State.advanceUp_tri (s : State) (t : Nat) : (s.advanceUp t).tri = s.tri := by unfold State.advanceUp; split <;> rfl
@[simp] theorem State.advanceUp_txBusy (s : State) (t : Nat) : (s.advanceUp t).txBusy = s.txBusy := by unfold State.advanceUp; split <;> rfl
@[simp] theorem State.advanceUp_pair (s : State) (t : Nat) : (s.advanceUp t).pair = s.pair := by unfold State.advanceUp; split <;> rfl
@[simp] theorem State.advanceUp_saf (s : State) (t : Nat) : (s.advanceUp t).saf = s.saf := by unfold State.advanceUp; split <;> rfl
@[simp] theorem State.advanceUp_security (s : State) (t : Nat) : (s.advanceUp t).security = s.security := by unfold State.advanceUp; split <;> rfl
@[simp] theorem State.advanceUp_pwr (s : State) (t : Nat) : (s.advanceUp t).pwr = s.pwr := by unfold State.advanceUp; split <;> rfl
@[simp] theorem State.advanceUp_diagNow (s : State) (t : Nat) : (s.advanceUp t).diagNow = s.diagNow := by unfold State.advanceUp; split <;> rfl
@[simp] theorem State.advanceUp_diagTime (s : State) (t : Nat) : (s.advanceUp t).diagTime = s.diagTime := by unfold State.advanceUp; split <;> rfl
@[simp] theorem State.advanceUp_fuses (s : State) (t : Nat) : (s.advanceUp t).fuses = s.fuses := by unfold State.advanceUp; split <;> rfl
@[simp] theorem State.advanceUp_hif (s : State) (t : Nat) : (s.advanceUp t).hif = s.hif := by unfold State.advanceUp; split <;> rfl
@[simp] theorem State.advanceUp_pending (s : State) (t : Nat) : (s.advanceUp t).pending = s.pending := by unfold State.advanceUp; split <;> rfl
@[simp] theorem State.advanceUp_served (s : State) (t : Nat) : (s.advanceUp t).served = s.served := by unfold State.advanceUp; split <;> rfl

/-- Uptime never goes back. -/
@[simp] theorem State.advanceUp_uptime (s : State) (t : Nat) : (s.advanceUp t).mer.uptime = max s.mer.uptime t := by
  unfold State.advanceUp State.advance
  split <;> simp <;> omega

end Sys2Proof.Machine
end

