-- ==== Sys2Proof/Laws/Memory.lean ====
section
/-! SUPPORT. The SRAM: every write keeps the canonical form, a byte reads what was written to it, and every other byte reads as before. -/

namespace Sys2Proof.Machine

theorem sramPut_wf (m : List Host.Cell) (a : Nat) (b : Byte) (h : Memory.wf m = true) : Memory.wf (sramPut m a b) = true := by
  unfold Memory.wf at h ⊢
  rw [Bool.and_eq_true] at h ⊢
  refine ⟨Sparse.rising_put _ _ _ h.1, ?_⟩
  unfold sramPut
  rw [List.all_eq_true]
  intro c hc
  have old : ∀ c ∈ m, (c.2 != 0) = true := List.all_eq_true.mp h.2
  split at hc
  · exact old c (Sparse.mem_erase _ _ _ hc)
  · rcases Sparse.mem_insert _ _ _ _ hc with rfl | hm
    · simpa using ‹¬b = 0›
    · exact old c hm

theorem sramPutAll_wf (bs : Bytes) (m : List Host.Cell) (a : Nat) (h : Memory.wf m = true) :
    Memory.wf (sramPutAll m a bs) = true := by
  induction bs generalizing m a with
  | nil => exact h
  | cons b bs ih => exact ih _ _ (sramPut_wf m a b h)

/-- A write of bytes keeps the memory's canonical form. -/
theorem State.memPut_wf (s : State) (a : Nat) (bs : Bytes) (h : Memory.wf s.sram = true) : Memory.wf (s.memPut a bs).sram = true :=
  sramPutAll_wf bs s.sram a h

/-- A write of a little-endian number keeps the memory's canonical form. -/
theorem State.memPutLe_wf (s : State) (a n v : Nat) (h : Memory.wf s.sram = true) : Memory.wf (s.memPutLe a n v).sram = true :=
  s.memPut_wf a _ h

theorem get_sramPut (m : List Host.Cell) (a b : Nat) (x : Byte) :
    (Sparse.get (sramPut m a x) b).getD 0 = if b = a then x else (Sparse.get m b).getD 0 := by
  unfold sramPut
  rw [Sparse.get_put]
  grind

theorem get_sramPutAll (bs : Bytes) (m : List Host.Cell) (a b : Nat) :
    (Sparse.get (sramPutAll m a bs) b).getD 0 = if a ≤ b ∧ b < a + bs.length then bs.getD (b - a) 0 else (Sparse.get m b).getD 0 := by
  induction bs generalizing m a with
  | nil => simp only [sramPutAll, List.length_nil, Nat.add_zero]; grind
  | cons x bs ih =>
    simp only [sramPutAll, List.length_cons]
    rw [ih, get_sramPut]
    by_cases h : b = a
    · subst h; simp
    · by_cases g : a + 1 ≤ b ∧ b < a + 1 + bs.length
      · have e : b - a = (b - (a + 1)) + 1 := by omega
        rw [if_pos g, if_pos (by omega), e, List.getD_cons_succ]
      · rw [if_neg g, if_neg h, if_neg (by omega)]

/-- What a byte reads after a write: the byte written, or what it read before (R20, R22). -/
theorem State.byte_memPut (s : State) (a b : Nat) (bs : Bytes) :
    (s.memPut a bs).byte b = if a ≤ b ∧ b < a + bs.length then bs.getD (b - a) 0 else s.byte b :=
  get_sramPutAll bs s.sram a b

@[simp] theorem State.byte_wrA (s : State) (f : RegField) (pg idx v b : Nat) : (s.wrA f pg idx v).byte b = s.byte b := rfl
@[simp] theorem State.byte_emit (s : State) (o : Out) (b : Nat) : (s.emit o).byte b = s.byte b := rfl

end Sys2Proof.Machine
end

