-- ==== Sys2Proof/Laws/Regs.lean ====
section
/-! SUPPORT. The register file: a field reads what was written to it, and every other field reads as before. The normal form of a read is
`rdA`, of a write `wrA`. -/

namespace Sys2Proof.Machine

theorem get_regsPut (regs : List (Nat × Nat)) (f : RegField) (pg idx v k : Nat) :
    Sparse.get (regsPut regs f pg idx v) k =
      if k = f.key pg idx then (if v % 2 ^ f.width = f.reset then none else some (v % 2 ^ f.width)) else Sparse.get regs k := by
  unfold regsPut
  exact Sparse.get_put _ _ _ _

/-- A field reads what was written to it, cut to its width. -/
@[simp] theorem State.rdA_wrA_same (s : State) (f : RegField) (pg idx v : Nat) :
    (s.wrA f pg idx v).rdA f pg idx = v % 2 ^ f.width := by
  simp only [State.rdA, State.wrA, get_regsPut, if_true]
  split <;> simp_all

/-- A field reads as before a write of another field. -/
theorem State.rdA_wrA_other (s : State) (f g : RegField) (pg idx v pg' idx' : Nat) (h : g.key pg' idx' ≠ f.key pg idx) :
    (s.wrA f pg idx v).rdA g pg' idx' = s.rdA g pg' idx' := by
  simp only [State.rdA, State.wrA, get_regsPut, if_neg h]

/-- Reading depends on the register file alone. -/
theorem State.rdA_congr {s t : State} (h : t.regs = s.regs) (f : RegField) (pg idx : Nat) : t.rdA f pg idx = s.rdA f pg idx := by
  simp only [State.rdA, h]

@[simp] theorem State.rdA_emit (s : State) (o : Out) (f : RegField) (pg idx : Nat) : (s.emit o).rdA f pg idx = s.rdA f pg idx := rfl
@[simp] theorem State.rdA_advance (s : State) (d : Nat) (f : RegField) (pg idx : Nat) : (s.advance d).rdA f pg idx = s.rdA f pg idx := rfl
@[simp] theorem State.rdA_advanceTo (s : State) (t : Nat) (f : RegField) (pg idx : Nat) : (s.advanceTo t).rdA f pg idx = s.rdA f pg idx := by
  simp [State.rdA]
@[simp] theorem State.rdA_advanceUp (s : State) (t : Nat) (f : RegField) (pg idx : Nat) : (s.advanceUp t).rdA f pg idx = s.rdA f pg idx := by
  simp [State.rdA]
@[simp] theorem State.rdA_memPut (s : State) (a : Nat) (bs : Bytes) (f : RegField) (pg idx : Nat) :
    (s.memPut a bs).rdA f pg idx = s.rdA f pg idx := rfl
@[simp] theorem State.rdA_nextFree (s : State) (f : RegField) (pg idx : Nat) : s.nextFree.rdA f pg idx = s.rdA f pg idx := rfl
@[simp] theorem State.rdA_diagnose (s : State) (b : Nat) (f : RegField) (pg idx : Nat) :
    (s.diagnose b).rdA f pg idx = s.rdA f pg idx := rfl
@[simp] theorem State.rdA_sendMsix (s : State) (v : Nat) (f : RegField) (pg idx : Nat) :
    (s.sendMsix v).rdA f pg idx = s.rdA f pg idx := State.rdA_congr (by simp) f pg idx
@[simp] theorem State.rdA_keep (s t : State) (f : RegField) (pg idx : Nat) : (s.keep t).rdA f pg idx = t.rdA f pg idx := rfl
@[simp] theorem State.rdA_keepStraps (s t : State) (f : RegField) (pg idx : Nat) :
    (s.keepStraps t).rdA f pg idx = t.rdA f pg idx := rfl

/-- The page of a key whose position stands inside its page. -/
theorem RegField.key_page (f : RegField) (pg idx : Nat) (h : (f.ofs + f.stride * idx) * 32 + f.lo < 131072) :
    f.key pg idx / 131072 = f.page + pg := by
  unfold RegField.key
  omega

/-- Pending event bits changes EVT_PEND of the page and nothing else of the register file. -/
theorem State.rdA_pend_other (s : State) (page m : Nat) (g : RegField) (pg idx : Nat) (h : g.key pg idx ≠ PG.EVT_PEND.key page 0) :
    (s.pend page m).rdA g pg idx = s.rdA g pg idx := by
  unfold State.pend State.wrI
  dsimp only
  split
  · rw [State.rdA_sendMsix, State.rdA_wrA_other _ _ _ _ _ _ _ _ h]
  · rw [State.rdA_wrA_other _ _ _ _ _ _ _ _ h]

/-- Raising an event changes EVT_RAW and EVT_PEND of the page and nothing else of the register file (R629). -/
theorem State.rdA_raise_other (s : State) (page n : Nat) (g : RegField) (pg idx : Nat)
    (hr : g.key pg idx ≠ PG.EVT_RAW.key page 0) (hp : g.key pg idx ≠ PG.EVT_PEND.key page 0) :
    (s.raise page n).rdA g pg idx = s.rdA g pg idx := by
  unfold State.raise State.wrBitI
  dsimp only
  split
  · rw [State.rdA_pend_other _ _ _ _ _ _ hp, State.rdA_wrA_other _ _ _ _ _ _ _ _ hr]
  · rw [State.rdA_wrA_other _ _ _ _ _ _ _ _ hr]

theorem State.rdA_raiseIf_other (s : State) (c : Bool) (page n : Nat) (g : RegField) (pg idx : Nat)
    (hr : g.key pg idx ≠ PG.EVT_RAW.key page 0) (hp : g.key pg idx ≠ PG.EVT_PEND.key page 0) :
    (s.raiseIf c page n).rdA g pg idx = s.rdA g pg idx := by
  unfold State.raiseIf
  split
  · exact State.rdA_raise_other _ _ _ _ _ _ hr hp
  · rfl

/-! The same reads with the register file in the open, for states built by record updates: unfold `State.rdA` and use these. -/

@[simp] theorem get_wrA_same (s : State) (f : RegField) (pg idx v : Nat) :
    (Sparse.get (s.wrA f pg idx v).regs (f.key pg idx)).getD f.reset = v % 2 ^ f.width :=
  s.rdA_wrA_same f pg idx v

theorem get_wrA_other (s : State) (f : RegField) (pg idx v k : Nat) (h : k ≠ f.key pg idx) :
    Sparse.get (s.wrA f pg idx v).regs k = Sparse.get s.regs k := by
  simp only [State.wrA, get_regsPut, if_neg h]

theorem get_pend_other (s : State) (page m k : Nat) (h : k ≠ PG.EVT_PEND.key page 0) :
    Sparse.get (s.pend page m).regs k = Sparse.get s.regs k := by
  unfold State.pend State.wrI
  dsimp only
  split <;> simp [get_wrA_other _ _ _ _ _ _ h]

/-- Raising an event changes EVT_RAW and EVT_PEND of the page and nothing else of the register file (R629). -/
theorem get_raise_other (s : State) (page n k : Nat) (hr : k ≠ PG.EVT_RAW.key page 0) (hp : k ≠ PG.EVT_PEND.key page 0) :
    Sparse.get (s.raise page n).regs k = Sparse.get s.regs k := by
  unfold State.raise State.wrBitI
  dsimp only
  split
  · rw [get_pend_other _ _ _ _ hp, get_wrA_other _ _ _ _ _ _ hr]
  · rw [get_wrA_other _ _ _ _ _ _ hr]

theorem get_raiseIf_other (s : State) (c : Bool) (page n k : Nat) (hr : k ≠ PG.EVT_RAW.key page 0)
    (hp : k ≠ PG.EVT_PEND.key page 0) : Sparse.get (s.raiseIf c page n).regs k = Sparse.get s.regs k := by
  unfold State.raiseIf
  split
  · exact get_raise_other _ _ _ _ hr hp
  · rfl

theorem bitOf_putBit_same (x i : Nat) (b : Bool) : bitOf (putBit x i b) i = b := by
  unfold bitOf putBit putBits
  have h1 : x % 2 ^ i / 2 ^ i = 0 := Nat.div_eq_of_lt (Nat.mod_lt _ (by positivity))
  have e : (x / 2 ^ (i + 1) * 2 ^ (i + 1) + (if b = true then 1 else 0) % 2 ^ 1 * 2 ^ i + x % 2 ^ i) / 2 ^ i
      = x / 2 ^ (i + 1) * 2 + (if b = true then 1 else 0) % 2 ^ 1 := by
    have : x / 2 ^ (i + 1) * 2 ^ (i + 1) + (if b = true then 1 else 0) % 2 ^ 1 * 2 ^ i + x % 2 ^ i
        = x % 2 ^ i + 2 ^ i * (x / 2 ^ (i + 1) * 2 + (if b = true then 1 else 0) % 2 ^ 1) := by
      rw [pow_succ]; ring
    rw [this, Nat.add_mul_div_left _ _ (by positivity), h1, Nat.zero_add]
  rw [e]
  cases b <;> simp

theorem putBits_lt (x lo w v n : Nat) (h : lo + w ≤ n) (hx : x < 2 ^ n) : putBits x lo w v < 2 ^ n := by
  unfold putBits
  have a : x / 2 ^ (lo + w) < 2 ^ (n - (lo + w)) := by
    rw [Nat.div_lt_iff_lt_mul (by positivity), ← pow_add]; simpa [Nat.sub_add_cancel h] using hx
  have b : v % 2 ^ w < 2 ^ w := Nat.mod_lt _ (by positivity)
  have c : x % 2 ^ lo < 2 ^ lo := Nat.mod_lt _ (by positivity)
  have d : v % 2 ^ w * 2 ^ lo + x % 2 ^ lo < 2 ^ (lo + w) := by
    calc v % 2 ^ w * 2 ^ lo + x % 2 ^ lo < v % 2 ^ w * 2 ^ lo + 2 ^ lo := by omega
      _ = (v % 2 ^ w + 1) * 2 ^ lo := by ring
      _ ≤ 2 ^ w * 2 ^ lo := Nat.mul_le_mul_right _ b
      _ = 2 ^ (lo + w) := by rw [pow_add]; ring
  calc x / 2 ^ (lo + w) * 2 ^ (lo + w) + v % 2 ^ w * 2 ^ lo + x % 2 ^ lo
      < x / 2 ^ (lo + w) * 2 ^ (lo + w) + 2 ^ (lo + w) := by omega
    _ = (x / 2 ^ (lo + w) + 1) * 2 ^ (lo + w) := by ring
    _ ≤ 2 ^ (n - (lo + w)) * 2 ^ (lo + w) := Nat.mul_le_mul_right _ a
    _ = 2 ^ n := by rw [← pow_add, Nat.sub_add_cancel h]

/-- Bit `i` of a word is 1 when its remainder shows it: a number cut to more than `i` bits keeps bit `i`. -/
theorem bitOf_mod (x i w : Nat) (h : i < w) : bitOf (x % 2 ^ w) i = bitOf x i := by
  unfold bitOf
  have : x % 2 ^ w / 2 ^ i % 2 = x / 2 ^ i % 2 := by
    have e : w = i + (w - i - 1 + 1) := by omega
    conv_lhs => rw [e, pow_add, Nat.mod_mul, Nat.add_mul_div_left _ _ (by positivity : 0 < 2 ^ i),
      Nat.div_eq_of_lt (Nat.mod_lt _ (by positivity)), Nat.zero_add, pow_succ, Nat.mod_mul_left_mod]
  rw [this]

/-- A raised event shows in EVT_RAW (R629). -/
theorem State.raise_raw (s : State) (page n : Nat) (h : n < 32) : (s.raise page n).bitI PG.EVT_RAW page n = true := by
  unfold State.raise State.bitI State.wrBitI
  dsimp only
  have w : bitOf ((s.wrA PG.EVT_RAW page 0 (putBit (s.rdA PG.EVT_RAW page 0) n true)).rdA PG.EVT_RAW page 0) n = true := by
    rw [State.rdA_wrA_same]
    show bitOf (_ % 2 ^ 32) n = true
    rw [bitOf_mod _ _ _ h, bitOf_putBit_same]
  split
  · rw [State.rdA_pend_other]
    · exact w
    · simp [RegField.key, PG.EVT_RAW, PG.EVT_PEND]
  · exact w

end Sys2Proof.Machine
end

