-- ==== Sys2Proof/Laws/Frame.lean ====
section
/-! SUPPORT. Frames compose: what each named operation changes, and how the frames of a sequence, a choice and a loop follow from those of
their parts. -/

namespace Sys2Proof.Machine

theorem Part.same_refl (s : State) (p : Part) : p.same s s := by cases p <;> simp [Part.same]

theorem Part.same_trans {s t u : State} {p : Part} (h : p.same s t) (k : p.same t u) : p.same s u := by
  cases p <;> simp only [Part.same] at * <;> grind

theorem Frame.refl (pages : List Nat) (parts : List Part) (s : State) : Frame pages parts s s :=
  ⟨fun _ _ _ _ => rfl, fun p _ => p.same_refl s, rfl, rfl⟩

theorem Frame.trans {pages : List Nat} {parts : List Part} {s t u : State} (h : Frame pages parts s t) (k : Frame pages parts t u) :
    Frame pages parts s u :=
  ⟨fun f pg idx hp => (k.1 f pg idx hp).trans (h.1 f pg idx hp), fun p hp => Part.same_trans (h.2.1 p hp) (k.2.1 p hp),
    k.2.2.1.trans h.2.2.1, k.2.2.2.trans h.2.2.2⟩

/-- A frame holds for more pages and more parts. -/
theorem Frame.mono {pages qages : List Nat} {parts qarts : List Part} {s t : State} (h : Frame pages parts s t)
    (hp : ∀ p ∈ pages, p ∈ qages) (hq : ∀ p ∈ parts, p ∈ qarts) : Frame qages qarts s t :=
  ⟨fun f pg idx hn => h.1 f pg idx fun hm => hn (hp _ hm), fun p hn => h.2.1 p fun hm => hn (hq _ hm), h.2.2⟩

theorem Frame.ite {pages : List Nat} {parts : List Part} {s t u : State} {c : Prop} [Decidable c]
    (h : c → Frame pages parts s t) (k : ¬c → Frame pages parts s u) : Frame pages parts s (if c then t else u) := by
  split
  · exact h ‹_›
  · exact k ‹_›

/-- A loop keeps the frame that its body keeps. -/
theorem Frame.foldl {α : Type} {pages : List Nat} {parts : List Part} (f : State → α → State)
    (h : ∀ t a, Frame pages parts t (f t a)) (l : List α) (s : State) : Frame pages parts s (l.foldl f s) := by
  induction l generalizing s with
  | nil => exact Frame.refl _ _ s
  | cons a l ih => exact (h s a).trans (ih _)

/-- A loop keeps what its body keeps. -/
theorem foldl_keeps {α β : Type} (g : State → β) (f : State → α → State) (h : ∀ t a, g (f t a) = g t) (l : List α) (s : State) :
    g (l.foldl f s) = g s := by
  induction l generalizing s with
  | nil => rfl
  | cons a l ih => rw [List.foldl_cons, ih, h]

/-- A register write touches its page. -/
theorem State.wrA_frame (s : State) (f : RegField) (pg idx v : Nat) (parts : List Part)  :
    Frame [f.key pg idx / 131072] parts s (s.wrA f pg idx v) := by
  refine ⟨fun g pg' idx' h => State.rdA_wrA_other _ _ _ _ _ _ _ _ fun e => h (by simp [e]), fun p _ => ?_, rfl, rfl⟩
  cases p <;> simp [Part.same]

/-- Recording what left the balls touches the record. -/
theorem State.emit_frame (s : State) (o : Out) : Frame [] [.record] s (s.emit o) := by
  refine ⟨fun _ _ _ _ => rfl, fun p hp => ?_, rfl, rfl⟩
  cases p <;> simp_all [Part.same]

/-- Time moving on touches the Meridian island. -/
theorem State.advance_frame (s : State) (d : Nat) : Frame [] [.meridian] s (s.advance d) := by
  refine ⟨fun _ _ _ _ => rfl, fun p hp => ?_, rfl, rfl⟩
  cases p <;> simp_all [Part.same, State.byte]

/-- A write to SRAM touches the memory. -/
theorem State.memPut_frame (s : State) (a : Nat) (bs : Bytes) : Frame [] [.memory] s (s.memPut a bs) := by
  refine ⟨fun _ _ _ _ => rfl, fun p hp => ?_, rfl, rfl⟩
  cases p <;> simp_all [Part.same]

theorem State.sendMsix_frame (s : State) (v : Nat) : Frame [] [.record, .msix] s (s.sendMsix v) := by
  refine ⟨fun _ _ _ _ => by simp, fun p hp => ?_, by simp, by simp⟩
  cases p <;> simp_all [Part.same, State.byte]

theorem State.pend_frame (s : State) (page m : Nat) : Frame [page] [.record, .msix] s (s.pend page m) := by
  have k : PG.EVT_PEND.key page 0 / 131072 = page := by simp only [RegField.key, PG.EVT_PEND]; omega
  have h : Frame [page] [.record, .msix] s (s.wrA PG.EVT_PEND page 0 (s.rdA PG.EVT_PEND page 0 ||| m)) := by
    simpa [k] using s.wrA_frame PG.EVT_PEND page 0 (s.rdA PG.EVT_PEND page 0 ||| m) [.record, .msix]
  unfold State.pend State.wrI State.rdI
  dsimp only
  exact Frame.ite (fun _ => h.trans ((State.sendMsix_frame _ _).mono (by simp) (by simp))) fun _ => h

/-- Raising an event touches the page, the record and the MSI-X messages (R629, R630). -/
theorem State.raise_frame (s : State) (page n : Nat) : Frame [page] [.record, .msix] s (s.raise page n) := by
  have k : PG.EVT_RAW.key page 0 / 131072 = page := by simp only [RegField.key, PG.EVT_RAW]; omega
  unfold State.raise State.wrBitI
  dsimp only
  have h : Frame [page] [.record, .msix] s (s.wrA PG.EVT_RAW page 0 (putBit (s.rdA PG.EVT_RAW page 0) n true)) := by
    simpa [k] using s.wrA_frame PG.EVT_RAW page 0 (putBit (s.rdA PG.EVT_RAW page 0) n true) [.record, .msix]
  exact Frame.ite (fun _ => h.trans (State.pend_frame _ _ _)) fun _ => h

theorem State.raiseIf_frame (s : State) (c : Bool) (page n : Nat) : Frame [page] [.record, .msix] s (s.raiseIf c page n) := by
  unfold State.raiseIf
  exact Frame.ite (fun _ => s.raise_frame page n) fun _ => Frame.refl _ _ s

/-- A failed access touches its page, HIF's page, the record, the MSI-X messages and the host interface (R645, R648). -/
theorem State.accessErr_frame (s : State) (page ofs c : Nat) :
    Frame [page, 0xB0] [.record, .msix, .host] s (s.accessErr page ofs c) := by
  have ko : PG.ERR_OFFSET.key page 0 / 131072 = page := by simp only [RegField.key, PG.ERR_OFFSET]; omega
  have kc : PG.ERR_CODE.key page 0 / 131072 = page := by simp only [RegField.key, PG.ERR_CODE]; omega
  have kn : PG.ERR_COUNT.key page 0 / 131072 = page := by simp only [RegField.key, PG.ERR_COUNT]; omega
  have w : ∀ (t : State) (f : RegField) (v : Nat), f.key page 0 / 131072 = page →
      Frame [page, 0xB0] [.record, .msix, .host] t (t.wrA f page 0 v) := fun t f v k =>
    (t.wrA_frame f page 0 v []).mono (by simp [k]) (by simp)
  have h : ∀ (t : State) (x : HifState), Frame [page, 0xB0] [.record, .msix, .host] t { t with hif := x } := by
    intro t x
    refine ⟨fun _ _ _ _ => rfl, fun p hp => ?_, rfl, rfl⟩
    cases p <;> simp_all [Part.same, State.byte]
  unfold State.accessErr State.wrI State.incI State.addCntA
  exact (((w s _ _ ko).trans (w _ _ _ kc)).trans (w _ _ _ kn)).trans
    (((State.raiseIf_frame _ _ 0xB0 3).mono (by simp) (by simp)).trans (h _ _))

end Sys2Proof.Machine
end

