-- ==== Sys2Proof/Laws/Live.lean ====
section
/-! SUPPORT. The two shells of a meaning: `live`, which leaves a device in reset or dormant as it is and keeps straps, fuses and queue; and the
bus, which performs, holds or refuses an access. -/

namespace Sys2Proof.Machine

/-- A command on a device that is awake has its effect, with straps, fuses and queue kept. -/
theorem State.live_awake (s : State) (eff : State → State) (h : s.awake = true) : s.live eff = .next (s.keep (eff s)) := by
  simp [State.live, h]

/-- A command on a device held in reset or dormant changes nothing (R598, R611). -/
theorem State.live_asleep (s : State) (eff : State → State) (h : s.awake = false) : s.live eff = .next s := by
  simp [State.live, h]

theorem State.liveBurn_awake (s : State) (eff : State → State) (h : s.awake = true) :
    s.liveBurn eff = .next (s.keepStraps (eff s)) := by
  simp [State.liveBurn, h]

theorem State.liveBurn_asleep (s : State) (eff : State → State) (h : s.awake = false) : s.liveBurn eff = .next s := by
  simp [State.liveBurn, h]

/-- All that `live` can do: it answers a next state whose straps, fuses and queue are those before. -/
theorem State.live_inv {s t : State} {eff : State → State} (h : s.live eff = .next t) :
    t.straps = s.straps ∧ t.fuses = s.fuses ∧ t.pending = s.pending := by
  unfold State.live at h
  split at h <;> cases h <;> simp

/-- All that `liveBurn` can do to straps and queue. -/
theorem State.liveBurn_inv {s t : State} {eff : State → State} (h : s.liveBurn eff = .next t) :
    t.straps = s.straps ∧ t.pending = s.pending := by
  unfold State.liveBurn at h
  split at h <;> cases h <;> simp

/-- Keeping straps, fuses and queue keeps a frame. -/
theorem State.keep_frame {pages : List Nat} {parts : List Part} {s t : State} (h : Frame pages parts s t) :
    Frame pages parts s (s.keep t) := by
  refine ⟨h.1, fun p hp => ?_, rfl, rfl⟩
  have := h.2.1 p hp
  cases p <;> first | exact this | rfl

/-- A meaning under `live` has the frame of its effect. -/
theorem State.live_frame {pages : List Nat} {parts : List Part} {s t : State} {eff : State → State} (h : s.live eff = .next t)
    (k : Frame pages parts s (eff s)) : Frame pages parts s t := by
  unfold State.live at h
  split at h
  · cases h; exact State.keep_frame k
  · cases h; exact Frame.refl _ _ _

/-- A host write does one of three things: it is refused with its failed access recorded, held on the bus, or presented to its block. -/
theorem State.busWrite_cases (s : State) (page ofs value : Nat) (eff : State → State) :
    (∃ p c, s.busVerdict page ofs true = .fail p c ∧ s.busWrite page ofs value eff = s.accessErr p ofs c)
    ∨ (s.busVerdict page ofs true = .hold ∧
        s.busWrite page ofs value eff = s.hold ⟨page, ofs, value, true, if s.isCell then 2 else 0⟩)
    ∨ (s.busVerdict page ofs true = .perform ∧
        s.busWrite page ofs value eff = (s.useIslands (homeIslands s.isCell page)).present page ofs value eff) := by
  unfold State.busWrite
  cases s.busVerdict page ofs true <;> simp

/-- A performed write outside a mirroring pair gives its block the effect. -/
theorem State.busWrite_perform (s : State) (page ofs value : Nat) (eff : State → State)
    (h : s.busVerdict page ofs true = .perform)
    (m : ((s.useIslands (homeIslands s.isCell page)).mirroring && mirroredPage page) = false) :
    s.busWrite page ofs value eff = eff (s.useIslands (homeIslands s.isCell page)) := by
  unfold State.busWrite State.present
  rw [h]
  simp [m]

/-- A write that reaches its block: the meaning of its row is the effect on the state that the access presents. -/
theorem State.live_reaches (s : State) (page ofs : Nat) (value : State → Nat) (eff : State → State) (h : WriteReaches s page ofs) :
    (s.live fun s => s.busWrite page ofs (value s) eff) = .next (s.keep (eff (s.used page))) := by
  rw [State.live_awake _ _ h.1, State.busWrite_perform _ _ _ _ _ h.2.1 h.2.2]
  rfl

/-- A refused write records its failed access and does nothing else (R645). -/
theorem State.busWrite_fail (s : State) (page ofs value p c : Nat) (eff : State → State)
    (h : s.busVerdict page ofs true = .fail p c) : s.busWrite page ofs value eff = s.accessErr p ofs c := by
  unfold State.busWrite
  rw [h]

/-- Using a page's islands touches the power island's state. -/
theorem State.useIslands_frame (s : State) (ks : List Nat) : Frame [] [.power] s (s.useIslands ks) := by
  refine ⟨fun _ _ _ _ => rfl, fun p hp => ?_, rfl, rfl⟩
  cases p <;> simp_all [Part.same, State.useIslands, State.byte]

/-- A request for an island's grant touches the power island's state and PWR_ISL (R606). -/
theorem State.askIsland_frame (s : State) (k : Nat) (h : k < 34) : Frame [0x01] [.power] s (s.askIsland k) := by
  have h1 : Frame [0x01] [.power] s
      { s with pwr := { s.pwr with islands := modAt s.pwr.islands k fun i => { i with asked := true, lastUse := s.mer.uptime } } } := by
    refine ⟨fun _ _ _ _ => rfl, fun p hp => ?_, rfl, rfl⟩
    cases p <;> simp_all [Part.same, State.byte]
  have hk : PWR.ISL_STATE.key 0 k / 131072 = 1 := by simp only [RegField.key, PWR.ISL_STATE]; omega
  unfold State.askIsland
  dsimp only
  exact Frame.ite (fun _ => h1.trans ((State.wrA_frame _ _ _ _ _ []).mono (by simp [hk]) (by simp))) fun _ => h1

/-- Every home island is one of the 34. -/
theorem homeIslands_lt (cell : Bool) (page : Nat) : ∀ k ∈ homeIslands cell page, k < 34 := by
  by_cases h : page < 0xB3
  · have small : ∀ p < 0xB3, ∀ c : Bool, ∀ k ∈ homeIslands c p, k < 34 := by decide +kernel
    exact small page h cell
  · have e : homeIslands cell page = [] := by
      unfold homeIslands
      repeat rw [if_neg (by omega)]
    simp [e]

/-- Holding an access touches the power island's state and PWR_ISL (R606). -/
theorem State.hold_frame (s : State) (h : Held) : Frame [0x01] [.power] s (s.hold h) := by
  have k : ∀ (l : List Nat) (t : State), (∀ k ∈ l, k < 34) → Frame [0x01] [.power] t (l.foldl (fun s k => s.askIsland k) t) := by
    intro l
    induction l with
    | nil => intro t _; exact Frame.refl _ _ t
    | cons a l ih => intro t hl; exact (t.askIsland_frame a (hl a (by simp))).trans (ih _ fun k hk => hl k (by simp [hk]))
  have e : ∀ (t : State) (x : PwrState), Frame [0x01] [.power] t { t with pwr := x } := by
    intro t x
    refine ⟨fun _ _ _ _ => rfl, fun p hp => ?_, rfl, rfl⟩
    cases p <;> simp_all [Part.same, State.byte]
  unfold State.hold
  exact (k _ s (homeIslands_lt _ _)).trans (e _ _)

/-- Mirroring a write touches the pair and TWN's page (R487). -/
theorem State.mirrorWrite_frame (s : State) (m : Mirror) : Frame [0x41] [.pair] s (s.mirrorWrite m) := by
  have e : ∀ (t : State) (x : PairState), Frame [0x41] [.pair] t { t with pair := x } := by
    intro t x
    refine ⟨fun _ _ _ _ => rfl, fun p hp => ?_, rfl, rfl⟩
    cases p <;> simp_all [Part.same, State.byte]
  have w : ∀ (t : State) (f : RegField) (v : Nat), f.key 0 0 / 131072 = 0x41 → Frame [0x41] [.pair] t (t.wrA f 0 0 v) :=
    fun t f v k => (t.wrA_frame f 0 0 v []).mono (by simp [k]) (by simp)
  unfold State.mirrorWrite State.inc State.addCntA
  dsimp only
  refine Frame.ite (fun _ => ?_) fun _ => Frame.ite (fun _ => e _ _) fun _ => ?_
  · exact (w _ TWN.CNT3_MIRROR_LOCAL _ (by decide)).trans (e _ _)
  · exact (w _ TWN.CNT3_MIRROR_WAIT _ (by decide)).trans (e _ _)

/-- A host write touches what its effect touches, the page it names and what the bus itself touches (R487, R606, R645). -/
theorem State.busWrite_frame {pages : List Nat} {parts : List Part} (s : State) (page ofs value : Nat) (eff : State → State)
    (h : ∀ t, Frame pages parts t (eff t)) :
    Frame (page :: 0x01 :: 0x41 :: 0xB0 :: pages) (busParts ++ parts) s (s.busWrite page ofs value eff) := by
  unfold State.busWrite
  split
  · unfold State.present
    refine Frame.trans (t := s.useIslands (homeIslands s.isCell page))
      ((s.useIslands_frame _).mono (by simp) (by simp [busParts])) (Frame.ite (fun _ => ?_) fun _ => ?_)
    · exact (State.mirrorWrite_frame _ _).mono (by simp) (by simp [busParts])
    · exact (h _).mono (by simp +contextual) (by simp +contextual)
  · exact (s.hold_frame _).mono (by simp) (by simp [busParts])
  · rename_i p c hv
    have hp : p = page ∨ p = 0xB0 := by
      unfold State.busVerdict at hv
      repeat' split at hv
      all_goals simp_all
    refine (s.accessErr_frame p ofs c).mono ?_ (by simp [busParts])
    rcases hp with rfl | rfl <;> simp

end Sys2Proof.Machine
end

