-- ==== Sys2Proof/Laws/Shell.lean ====
section
/-! SUPPORT. What a command can do, said once: all but seven rows run under `live`, the security island's two burning rows under `liveBurn`. -/

namespace Sys2Proof.Machine


/-- The rows whose meaning does not run under `live`. -/
def ownShell : Instr → Bool
  | .powerOnReset _ | .porRelease .. | .pwrenLow | .wakeEvent .. | .bar2Write .. | .cmdDone | .entropyOk => true
  | _ => false


/-- Every row but those seven runs under `live`: it answers a next state, does nothing on a device in reset or dormant, and keeps straps, fuses
and queue. -/
theorem exec_live (c : Instr) (s : State) (h : ownShell c = false) : ∃ eff, exec c s = s.live eff := by
  cases c with
  | powerOnReset vddaoLost => simp [ownShell] at h
  | porRelease role unit lgcy locksel bootsrc vddio3v3 entropyOk unwrapOk => simp [ownShell] at h
  | sysReset key => rw [exec, execSysReset]; exact ⟨_, rfl⟩
  | refMonitorWindow edges => rw [exec, execRefMonitorWindow]; exact ⟨_, rfl⟩
  | serdesUnlock quad => rw [exec, execSerdesUnlock]; exact ⟨_, rfl⟩
  | hubBoot slotA slotB => rw [exec, execHubBoot]; exact ⟨_, rfl⟩
  | strideBoundary cnf => rw [exec, execStrideBoundary]; exact ⟨_, rfl⟩
  | cellTableCutoff retraining => rw [exec, execCellTableCutoff]; exact ⟨_, rfl⟩
  | hoistBuildDone bad => rw [exec, execHoistBuildDone]; exact ⟨_, rfl⟩
  | hoistTrailerReceived port t data => rw [exec, execHoistTrailerReceived]; exact ⟨_, rfl⟩
  | hoistExpire ring => rw [exec, execHoistExpire]; exact ⟨_, rfl⟩
  | hubHeaderCheck port t head => rw [exec, execHubHeaderCheck]; exact ⟨_, rfl⟩
  | hoistPass side t data => rw [exec, execHoistPass]; exact ⟨_, rfl⟩
  | cellBoundary cni cniOvr cniBelow endSide junction cnf => rw [exec, execCellBoundary]; exact ⟨_, rfl⟩
  | selftestDone report => rw [exec, execSelftestDone]; exact ⟨_, rfl⟩
  | cniMonitorMean mean sub => rw [exec, execCniMonitorMean]; exact ⟨_, rfl⟩
  | otWarn temp => rw [exec, execOtWarn]; exact ⟨_, rfl⟩
  | otTrip temp => rw [exec, execOtTrip]; exact ⟨_, rfl⟩
  | delayLineCal taps => rw [exec, execDelayLineCal]; exact ⟨_, rfl⟩
  | tripActive n input => rw [exec, execTripActive]; exact ⟨_, rfl⟩
  | tripClear mask => rw [exec, execTripClear]; exact ⟨_, rfl⟩
  | edgMapWrite ovr value => rw [exec, execEdgMapWrite]; exact ⟨_, rfl⟩
  | tevFire e => rw [exec, execTevFire]; exact ⟨_, rfl⟩
  | gatePhaseEnd chan mv => rw [exec, execGatePhaseEnd]; exact ⟨_, rfl⟩
  | millerTmo chan => rw [exec, execMillerTmo]; exact ⟨_, rfl⟩
  | refreshBurst m => rw [exec, execRefreshBurst]; exact ⟨_, rfl⟩
  | deckFrame m bits => rw [exec, execDeckFrame]; exact ⟨_, rfl⟩
  | deckStartTimeout m => rw [exec, execDeckStartTimeout]; exact ⟨_, rfl⟩
  | gateSupplyLow reading => rw [exec, execGateSupplyLow]; exact ⟨_, rfl⟩
  | gateSupplyOk reading => rw [exec, execGateSupplyOk]; exact ⟨_, rfl⟩
  | gateEnWrite value => rw [exec, execGateEnWrite]; exact ⟨_, rfl⟩
  | desaturation n reading => rw [exec, execDesaturation]; exact ⟨_, rfl⟩
  | blockLockLoss port => rw [exec, execBlockLockLoss]; exact ⟨_, rfl⟩
  | retrainOk port neighbour => rw [exec, execRetrainOk]; exact ⟨_, rfl⟩
  | hopDown port => rw [exec, execHopDown]; exact ⟨_, rfl⟩
  | ringBringup ring trained n marks fwd rev => rw [exec, execRingBringup]; exact ⟨_, rfl⟩
  | ringTakeDown ring => rw [exec, execRingTakeDown]; exact ⟨_, rfl⟩
  | splitBroadcast ring => rw [exec, execSplitBroadcast]; exact ⟨_, rfl⟩
  | trunkBringup hops records branches => rw [exec, execTrunkBringup]; exact ⟨_, rfl⟩
  | trunkHoistReceived port t data => rw [exec, execTrunkHoistReceived]; exact ⟨_, rfl⟩
  | penRequestLaunch port typ target payload => rw [exec, execPenRequestLaunch]; exact ⟨_, rfl⟩
  | penTmo ring target txn => rw [exec, execPenTmo]; exact ⟨_, rfl⟩
  | hubCred ring => rw [exec, execHubCred]; exact ⟨_, rfl⟩
  | cellCred ring => rw [exec, execCellCred]; exact ⟨_, rfl⟩
  | keyWrap ring cell => rw [exec, execKeyWrap]; exact ⟨_, rfl⟩
  | keyAck ring => rw [exec, execKeyAck]; exact ⟨_, rfl⟩
  | latAdj ring cell marks => rw [exec, execLatAdj]; exact ⟨_, rfl⟩
  | hopRelease ring hop => rw [exec, execHopRelease]; exact ⟨_, rfl⟩
  | linkBypass ring cell => rw [exec, execLinkBypass]; exact ⟨_, rfl⟩
  | syncTimeout due => rw [exec, execSyncTimeout]; exact ⟨_, rfl⟩
  | announceTimeout due => rw [exec, execAnnounceTimeout]; exact ⟨_, rfl⟩
  | ppsInEdge t => rw [exec, execPpsInEdge]; exact ⟨_, rfl⟩
  | todArm value => rw [exec, execTodArm]; exact ⟨_, rfl⟩
  | ethFrameRx port t frame => rw [exec, execEthFrameRx]; exact ⟨_, rfl⟩
  | ethTx port => rw [exec, execEthTx]; exact ⟨_, rfl⟩
  | ethLinkChange port up anDone remoteFault txLat rxLat => rw [exec, execEthLinkChange]; exact ⟨_, rfl⟩
  | ctrEnable on => rw [exec, execCtrEnable]; exact ⟨_, rfl⟩
  | ctgEnable group on => rw [exec, execCtgEnable]; exact ⟨_, rfl⟩
  | opDispatch t => rw [exec, execOpDispatch]; exact ⟨_, rfl⟩
  | legEnd d => rw [exec, execLegEnd]; exact ⟨_, rfl⟩
  | waitMet d => rw [exec, execWaitMet]; exact ⟨_, rfl⟩
  | waitTmo due => rw [exec, execWaitTmo]; exact ⟨_, rfl⟩
  | opComplete d => rw [exec, execOpComplete]; exact ⟨_, rfl⟩
  | cancel idx => rw [exec, execCancel]; exact ⟨_, rfl⟩
  | run on => rw [exec, execRun]; exact ⟨_, rfl⟩
  | xcopy d => rw [exec, execXcopy]; exact ⟨_, rfl⟩
  | wsum d => rw [exec, execWsum]; exact ⟨_, rfl⟩
  | mul d => rw [exec, execMul]; exact ⟨_, rfl⟩
  | pi d => rw [exec, execPi]; exact ⟨_, rfl⟩
  | piRs d => rw [exec, execPiRs]; exact ⟨_, rfl⟩
  | ramp d => rw [exec, execRamp]; exact ⟨_, rfl⟩
  | lpf1 d => rw [exec, execLpf1]; exact ⟨_, rfl⟩
  | biq2 d => rw [exec, execBiq2]; exact ⟨_, rfl⟩
  | clarke d => rw [exec, execClarke]; exact ⟨_, rfl⟩
  | iclarke d => rw [exec, execIclarke]; exact ⟨_, rfl⟩
  | park d => rw [exec, execPark]; exact ⟨_, rfl⟩
  | ipark d => rw [exec, execIpark]; exact ⟨_, rfl⟩
  | seq d => rw [exec, execSeq]; exact ⟨_, rfl⟩
  | pll d => rw [exec, execPll]; exact ⟨_, rfl⟩
  | lim d => rw [exec, execLim]; exact ⟨_, rfl⟩
  | rlim d => rw [exec, execRlim]; exact ⟨_, rfl⟩
  | lut d => rw [exec, execLut]; exact ⟨_, rfl⟩
  | ccsc d => rw [exec, execCcsc]; exact ⟨_, rfl⟩
  | min d => rw [exec, execMin]; exact ⟨_, rfl⟩
  | max d => rw [exec, execMax]; exact ⟨_, rfl⟩
  | med d => rw [exec, execMed]; exact ⟨_, rfl⟩
  | gear d => rw [exec, execGear]; exact ⟨_, rfl⟩
  | cmp d => rw [exec, execCmp]; exact ⟨_, rfl⟩
  | stopreq d => rw [exec, execStopreq]; exact ⟨_, rfl⟩
  | coefWr d => rw [exec, execCoefWr]; exact ⟨_, rfl⟩
  | coefDataWrite value collides => rw [exec, execCoefDataWrite]; exact ⟨_, rfl⟩
  | push axis => rw [exec, execPush]; exact ⟨_, rfl⟩
  | pushResume axis => rw [exec, execPushResume]; exact ⟨_, rfl⟩
  | replace axis => rw [exec, execReplace]; exact ⟨_, rfl⟩
  | stop axis => rw [exec, execStop]; exact ⟨_, rfl⟩
  | flush axis => rw [exec, execFlush]; exact ⟨_, rfl⟩
  | gearIn axis => rw [exec, execGearIn]; exact ⟨_, rfl⟩
  | gearOut axis => rw [exec, execGearOut]; exact ⟨_, rfl⟩
  | fblClr axis => rw [exec, execFblClr]; exact ⟨_, rfl⟩
  | encoderEdge f a b at_ => rw [exec, execEncoderEdge]; exact ⟨_, rfl⟩
  | hallChange f u v w at_ => rw [exec, execHallChange]; exact ⟨_, rfl⟩
  | hallInvalid f => rw [exec, execHallInvalid]; exact ⟨_, rfl⟩
  | index f at_ => rw [exec, execIndex]; exact ⟨_, rfl⟩
  | lineFault f input low => rw [exec, execLineFault]; exact ⟨_, rfl⟩
  | ssiReadStart f => rw [exec, execSsiReadStart]; exact ⟨_, rfl⟩
  | ssiReadDone f resp ack back t => rw [exec, execSsiReadDone]; exact ⟨_, rfl⟩
  | fbkValid f => rw [exec, execFbkValid]; exact ⟨_, rfl⟩
  | datumArm axis value => rw [exec, execDatumArm]; exact ⟨_, rfl⟩
  | datumSet axis => rw [exec, execDatumSet]; exact ⟨_, rfl⟩
  | latch n rising at_ => rw [exec, execLatch]; exact ⟨_, rfl⟩
  | swLatch axis => rw [exec, execSwLatch]; exact ⟨_, rfl⟩
  | latchPop axis => rw [exec, execLatchPop]; exact ⟨_, rfl⟩
  | cmpArm axis c value => rw [exec, execCmpArm]; exact ⟨_, rfl⟩
  | startEvent k t => rw [exec, execStartEvent]; exact ⟨_, rfl⟩
  | converterStart sel => rw [exec, execConverterStart]; exact ⟨_, rfl⟩
  | cniWindowClose ch code side t collides => rw [exec, execCniWindowClose]; exact ⟨_, rfl⟩
  | scanDone res => rw [exec, execScanDone]; exact ⟨_, rfl⟩
  | calStep ok ofs gain skew => rw [exec, execCalStep]; exact ⟨_, rfl⟩
  | frozen ch => rw [exec, execFrozen]; exact ⟨_, rfl⟩
  | sliceFrozen ch slice => rw [exec, execSliceFrozen]; exact ⟨_, rfl⟩
  | svLost stream => rw [exec, execSvLost]; exact ⟨_, rfl⟩
  | pmuReport est ago late => rw [exec, execPmuReport]; exact ⟨_, rfl⟩
  | pmuIntRecord est => rw [exec, execPmuIntRecord]; exact ⟨_, rfl⟩
  | segmentFree mask => rw [exec, execSegmentFree]; exact ⟨_, rfl⟩
  | levelTrigger ch words t sample => rw [exec, execLevelTrigger]; exact ⟨_, rfl⟩
  | slopeTrigger ch words t sample => rw [exec, execSlopeTrigger]; exact ⟨_, rfl⟩
  | patternTrigger inputs t sample => rw [exec, execPatternTrigger]; exact ⟨_, rfl⟩
  | groupWritten t raw frozen fifo => rw [exec, execGroupWritten]; exact ⟨_, rfl⟩
  | svyRdData words => rw [exec, execSvyRdData]; exact ⟨_, rfl⟩
  | front det a b t quiet => rw [exec, execFront]; exact ⟨_, rfl⟩
  | strideFrame lane t data => rw [exec, execStrideFrame]; exact ⟨_, rfl⟩
  | ringDig lane data => rw [exec, execRingDig]; exact ⟨_, rfl⟩
  | lateFrame lane data => rw [exec, execLateFrame]; exact ⟨_, rfl⟩
  | mirrorFrame lane data => rw [exec, execMirrorFrame]; exact ⟨_, rfl⟩
  | stateFrame lane data => rw [exec, execStateFrame]; exact ⟨_, rfl⟩
  | clrEnable on => rw [exec, execClrEnable]; exact ⟨_, rfl⟩
  | safetyCycle len overrun selfBad changes moves high low dark => rw [exec, execSafetyCycle]; exact ⟨_, rfl⟩
  | supFault bad => rw [exec, execSupFault]; exact ⟨_, rfl⟩
  | connLost conn => rw [exec, execConnLost]; exact ⟨_, rfl⟩
  | netLost conn net => rw [exec, execNetLost]; exact ⟨_, rfl⟩
  | claimCmd len => rw [exec, execClaimCmd]; exact ⟨_, rfl⟩
  | attest len => rw [exec, execAttest]; exact ⟨_, rfl⟩
  | endorse len => rw [exec, execEndorse]; exact ⟨_, rfl⟩
  | dbgChallenge len => rw [exec, execDbgChallenge]; exact ⟨_, rfl⟩
  | dbgResponse len => rw [exec, execDbgResponse]; exact ⟨_, rfl⟩
  | keyLoad len => rw [exec, execKeyLoad]; exact ⟨_, rfl⟩
  | keyErase len => rw [exec, execKeyErase]; exact ⟨_, rfl⟩
  | rollFwd len => rw [exec, execRollFwd]; exact ⟨_, rfl⟩
  | rekeyNow ring => rw [exec, execRekeyNow]; exact ⟨_, rfl⟩
  | rekeyStart ring => rw [exec, execRekeyStart]; exact ⟨_, rfl⟩
  | keyExpired ring => rw [exec, execKeyExpired]; exact ⟨_, rfl⟩
  | suspectClr cell => rw [exec, execSuspectClr]; exact ⟨_, rfl⟩
  | priorityRequest island => rw [exec, execPriorityRequest]; exact ⟨_, rfl⟩
  | islandRelease island => rw [exec, execIslandRelease]; exact ⟨_, rfl⟩
  | budgetWrite value => rw [exec, execBudgetWrite]; exact ⟨_, rfl⟩
  | clkOutWrite out value => rw [exec, execClkOutWrite]; exact ⟨_, rfl⟩
  | supSample mv gate => rw [exec, execSupSample]; exact ⟨_, rfl⟩
  | dormantRequest key => rw [exec, execDormantRequest]; exact ⟨_, rfl⟩
  | wakeEvent comparator change => simp [ownShell] at h
  | pcieLinkChange up speed width msix => rw [exec, execPcieLinkChange]; exact ⟨_, rfl⟩
  | bar2Write ofs data ties => simp [ownShell] at h
  | scrubPass singles doubles => rw [exec, execScrubPass]; exact ⟨_, rfl⟩
  | hostRingPiWrite ring value => rw [exec, execHostRingPiWrite]; exact ⟨_, rfl⟩
  | ringWriteResume ring => rw [exec, execRingWriteResume]; exact ⟨_, rfl⟩
  | dmaHostToSram engine data collides => rw [exec, execDmaHostToSram]; exact ⟨_, rfl⟩
  | dmaSramToHost engine taken => rw [exec, execDmaSramToHost]; exact ⟨_, rfl⟩
  | dmaNoTransfer engine => rw [exec, execDmaNoTransfer]; exact ⟨_, rfl⟩
  | dmaComplete engine => rw [exec, execDmaComplete]; exact ⟨_, rfl⟩
  | evtPendWrite page bits => rw [exec, execEvtPendWrite]; exact ⟨_, rfl⟩
  | evtRawWrite page bits => rw [exec, execEvtRawWrite]; exact ⟨_, rfl⟩
  | evtForce page mask => rw [exec, execEvtForce]; exact ⟨_, rfl⟩
  | spiWrite addr data frame => rw [exec, execSpiWrite]; exact ⟨_, rfl⟩
  | spiRead addr frame => rw [exec, execSpiRead]; exact ⟨_, rfl⟩
  | qspiStart value => rw [exec, execQspiStart]; exact ⟨_, rfl⟩
  | qspiDone data => rw [exec, execQspiDone]; exact ⟨_, rfl⟩
  | pageLock page => rw [exec, execPageLock]; exact ⟨_, rfl⟩
  | pageUnlock page => rw [exec, execPageUnlock]; exact ⟨_, rfl⟩
  | softReset page => rw [exec, execSoftReset]; exact ⟨_, rfl⟩
  | softResetDone page => rw [exec, execSoftResetDone]; exact ⟨_, rfl⟩
  | freeze page on => rw [exec, execFreeze]; exact ⟨_, rfl⟩
  | rcFieldRead at_ size => rw [exec, execRcFieldRead]; exact ⟨_, rfl⟩
  | gpioEdge inputs => rw [exec, execGpioEdge]; exact ⟨_, rfl⟩
  | tempHigh t => rw [exec, execTempHigh]; exact ⟨_, rfl⟩
  | registerWrite bar page ofs value size => rw [exec, execRegisterWrite]; exact ⟨_, rfl⟩
  | serdesLock quad => rw [exec, execSerdesLock]; exact ⟨_, rfl⟩
  | plotBist mask => rw [exec, execPlotBist]; exact ⟨_, rfl⟩
  | frozenEnd ch => rw [exec, execFrozenEnd]; exact ⟨_, rfl⟩
  | electricalCompareFire axis t => rw [exec, execElectricalCompareFire]; exact ⟨_, rfl⟩
  | pllLock => rw [exec, execPllLock]; exact ⟨_, rfl⟩
  | pllUnlock => rw [exec, execPllUnlock]; exact ⟨_, rfl⟩
  | msynLock => rw [exec, execMsynLock]; exact ⟨_, rfl⟩
  | msynUnlock => rw [exec, execMsynUnlock]; exact ⟨_, rfl⟩
  | bootDone => rw [exec, execBootDone]; exact ⟨_, rfl⟩
  | bootGo => rw [exec, execBootGo]; exact ⟨_, rfl⟩
  | chartStart => rw [exec, execChartStart]; exact ⟨_, rfl⟩
  | sortStageStart => rw [exec, execSortStageStart]; exact ⟨_, rfl⟩
  | sortStageDone => rw [exec, execSortStageDone]; exact ⟨_, rfl⟩
  | chartDeadline => rw [exec, execChartDeadline]; exact ⟨_, rfl⟩
  | edgeStageStart => rw [exec, execEdgeStageStart]; exact ⟨_, rfl⟩
  | edgeStageDone => rw [exec, execEdgeStageDone]; exact ⟨_, rfl⟩
  | flagDeadline => rw [exec, execFlagDeadline]; exact ⟨_, rfl⟩
  | orphanTimeout => rw [exec, execOrphanTimeout]; exact ⟨_, rfl⟩
  | bptPulse => rw [exec, execBptPulse]; exact ⟨_, rfl⟩
  | bootWindowExpiry => rw [exec, execBootWindowExpiry]; exact ⟨_, rfl⟩
  | imageVerifyDone => rw [exec, execImageVerifyDone]; exact ⟨_, rfl⟩
  | bootRetry => rw [exec, execBootRetry]; exact ⟨_, rfl⟩
  | ov2 => rw [exec, execOv2]; exact ⟨_, rfl⟩
  | edgeAction => rw [exec, execEdgeAction]; exact ⟨_, rfl⟩
  | lcPeriodBoundary => rw [exec, execLcPeriodBoundary]; exact ⟨_, rfl⟩
  | commit => rw [exec, execCommit]; exact ⟨_, rfl⟩
  | accountUpdate => rw [exec, execAccountUpdate]; exact ⟨_, rfl⟩
  | forcedRefill => rw [exec, execForcedRefill]; exact ⟨_, rfl⟩
  | genLow => rw [exec, execGenLow]; exact ⟨_, rfl⟩
  | genClear => rw [exec, execGenClear]; exact ⟨_, rfl⟩
  | empty => rw [exec, execEmpty]; exact ⟨_, rfl⟩
  | regRd => rw [exec, execRegRd]; exact ⟨_, rfl⟩
  | regWr => rw [exec, execRegWr]; exact ⟨_, rfl⟩
  | regRsp => rw [exec, execRegRsp]; exact ⟨_, rfl⟩
  | bootData => rw [exec, execBootData]; exact ⟨_, rfl⟩
  | bootEnd => rw [exec, execBootEnd]; exact ⟨_, rfl⟩
  | enum => rw [exec, execEnum]; exact ⟨_, rfl⟩
  | digest => rw [exec, execDigest]; exact ⟨_, rfl⟩
  | bootStreamStart => rw [exec, execBootStreamStart]; exact ⟨_, rfl⟩
  | bootStreamStop => rw [exec, execBootStreamStop]; exact ⟨_, rfl⟩
  | reanchor => rw [exec, execReanchor]; exact ⟨_, rfl⟩
  | switchReq => rw [exec, execSwitchReq]; exact ⟨_, rfl⟩
  | stepApply => rw [exec, execStepApply]; exact ⟨_, rfl⟩
  | ppsMissing => rw [exec, execPpsMissing]; exact ⟨_, rfl⟩
  | ppsOutPulse => rw [exec, execPpsOutPulse]; exact ⟨_, rfl⟩
  | holdoverUpdate => rw [exec, execHoldoverUpdate]; exact ⟨_, rfl⟩
  | snapshotRead => rw [exec, execSnapshotRead]; exact ⟨_, rfl⟩
  | timingApply => rw [exec, execTimingApply]; exact ⟨_, rfl⟩
  | stage => rw [exec, execStage]; exact ⟨_, rfl⟩
  | stageCheckDone => rw [exec, execStageCheckDone]; exact ⟨_, rfl⟩
  | swap => rw [exec, execSwap]; exact ⟨_, rfl⟩
  | swapCancel => rw [exec, execSwapCancel]; exact ⟨_, rfl⟩
  | coefWriteResume => rw [exec, execCoefWriteResume]; exact ⟨_, rfl⟩
  | cflClear => rw [exec, execCflClear]; exact ⟨_, rfl⟩
  | scanStart => rw [exec, execScanStart]; exact ⟨_, rfl⟩
  | svyArm => rw [exec, execSvyArm]; exact ⟨_, rfl⟩
  | disarm => rw [exec, execDisarm]; exact ⟨_, rfl⟩
  | force => rw [exec, execForce]; exact ⟨_, rfl⟩
  | logRateDown => rw [exec, execLogRateDown]; exact ⟨_, rfl⟩
  | peerResend => rw [exec, execPeerResend]; exact ⟨_, rfl⟩
  | noMatch => rw [exec, execNoMatch]; exact ⟨_, rfl⟩
  | frontPop => rw [exec, execFrontPop]; exact ⟨_, rfl⟩
  | mirrorApply => rw [exec, execMirrorApply]; exact ⟨_, rfl⟩
  | mirrorWriteResume => rw [exec, execMirrorWriteResume]; exact ⟨_, rfl⟩
  | aloneTimeout => rw [exec, execAloneTimeout]; exact ⟨_, rfl⟩
  | handover => rw [exec, execHandover]; exact ⟨_, rfl⟩
  | drill => rw [exec, execDrill]; exact ⟨_, rfl⟩
  | prefReturn => rw [exec, execPrefReturn]; exact ⟨_, rfl⟩
  | faultClr => rw [exec, execFaultClr]; exact ⟨_, rfl⟩
  | resyncTransfer => rw [exec, execResyncTransfer]; exact ⟨_, rfl⟩
  | resyncDone => rw [exec, execResyncDone]; exact ⟨_, rfl⟩
  | degrTimeout => rw [exec, execDegrTimeout]; exact ⟨_, rfl⟩
  | faultAck => rw [exec, execFaultAck]; exact ⟨_, rfl⟩
  | safReset => rw [exec, execSafReset]; exact ⟨_, rfl⟩
  | cmdDone => simp [ownShell] at h
  | entropyFail => rw [exec, execEntropyFail]; exact ⟨_, rfl⟩
  | arbiterCycle => rw [exec, execArbiterCycle]; exact ⟨_, rfl⟩
  | heldAccessResume => rw [exec, execHeldAccessResume]; exact ⟨_, rfl⟩
  | pwrenLow => simp [ownShell] at h
  | pcieReset => rw [exec, execPcieReset]; exact ⟨_, rfl⟩
  | spiStatus => rw [exec, execSpiStatus]; exact ⟨_, rfl⟩
  | regParity => rw [exec, execRegParity]; exact ⟨_, rfl⟩
  | keyAgreeOperationDone => rw [exec, execKeyAgreeOperationDone]; exact ⟨_, rfl⟩
  | entropyOk => simp [ownShell] at h

theorem exec_cmdDone_shell (s : State) : ∃ eff, exec .cmdDone s = s.liveBurn eff := by
  rw [exec, execCmdDone]; exact ⟨_, rfl⟩

theorem exec_entropyOk_shell (s : State) : ∃ eff, exec .entropyOk s = s.liveBurn eff := by
  rw [exec, execEntropyOk]; exact ⟨_, rfl⟩

/-- BAR2_WRITE faults beyond the SRAM and runs under `live` within it (R20). -/
theorem exec_bar2Write_shell (ofs : Nat) (data : Bytes) (ties : StoreTies) (s : State) :
    (0x1000000 < ofs + data.length ∧ exec (.bar2Write ofs data ties) s = .fault (.outsideSram (ofs + data.length)))
    ∨ (ofs + data.length ≤ 0x1000000 ∧ ∃ eff, exec (.bar2Write ofs data ties) s = s.live eff) := by
  by_cases h : 0x1000000 < ofs + data.length
  · exact .inl ⟨h, by simp [exec, execBar2Write, h]⟩
  · refine .inr ⟨by omega, ?_⟩
    simp only [exec, execBar2Write, if_neg h]
    exact ⟨_, rfl⟩

end Sys2Proof.Machine
end

