-- ==== Sys2Proof/Tests/Slice0.lean ====
section
/-! SUPPORT. Tests of the model: ill-formed terms that each check refuses, values worked out from the spec, and for every statement states and
operands that meet its hypotheses. -/

namespace Sys2Proof.Tests

set_option Elab.async false
set_option linter.unusedTactic false
set_option linter.unreachableTactic false
set_option linter.unnecessarySeqFocus false

open Sys2Proof Sys2Proof.Machine

/-- What holds of every value of an empty option. -/
theorem no_some {α : Type} {P : α → Prop} {o : Option α} (h : o.isNone = true) : ∀ b, o = some b → P b := by
  intro b e
  rw [e] at h
  cases h

/-- a field, page instance, index, value -/
def put (s : State) (l : List (RegField × Nat × Nat × Nat)) : State :=
  { s with regs := l.foldl (fun r x => regsPut r x.1 x.2.1 x.2.2.1 x.2.2.2) s.regs }
/-- A hub after reset with every island active and its boot done (SYS_BOOT.STATE 4). -/
def hub : State := { State.reset with regs := [
    (640, 96), (2176, 1), (2304, 4), (135168, 2), (135296, 2), (135424, 2), (135552, 2), (135680, 2), (135808, 2), (135936, 2), (136064, 2),
    (136192, 2), (136320, 2), (136448, 2), (136576, 2), (136704, 2), (136832, 2), (136960, 2), (137088, 2), (137216, 2), (137344, 2),
    (137472, 2), (137600, 2), (137728, 2), (137856, 2), (137984, 2), (138112, 2), (138240, 2), (138368, 2), (138496, 2), (138624, 2),
    (138752, 2), (138880, 2), (139008, 2), (139136, 2), (139264, 2), (139392, 2), (265216, 5), (265344, 10), (265472, 10), (265600, 16),
    (265728, 10), (265856, 16), (265984, 20), (266112, 32), (395648, 855), (395664, 945), (395776, 1710), (395792, 1890), (395904, 1710),
    (395920, 1890), (1050759, 1), (1312768, 2)] }
/-- A cell with every island active, RUNNING. -/
def cell : State := { State.afterPor ⟨0, 0, 0, 0, 0⟩ with regs := [
    (640, 96), (133504, 40), (135168, 2), (135296, 2), (135424, 2), (135552, 2), (135680, 2), (135808, 2), (135936, 2), (136064, 2),
    (136192, 2), (136320, 2), (136448, 2), (136576, 2), (136704, 2), (136832, 2), (136960, 2), (137088, 2), (137216, 2), (137344, 2),
    (137472, 2), (137600, 2), (137728, 2), (137856, 2), (137984, 2), (138112, 2), (138240, 2), (138368, 2), (138496, 2), (138624, 2),
    (138752, 2), (138880, 2), (139008, 2), (139136, 2), (139264, 2), (139392, 2), (265216, 5), (265344, 10), (265472, 10), (265600, 16),
    (265728, 10), (265856, 16), (265984, 20), (266112, 32), (395648, 855), (395664, 945), (395776, 1710), (395792, 1890), (395904, 1710),
    (395920, 1890), (1312768, 2), (11798656, 4), (16779264, 1), (17827968, 3)] }
/-- SRAM bytes -/
def mem (s : State) (a : Nat) (bs : Bytes) : State := s.memPut a bs
def legHead (start seq flags count : Nat) : Bytes :=
  let b := leBytes 8 start ++ leBytes 2 seq ++ leBytes 1 flags ++ leBytes 1 count ++ [0, 0]
  b ++ leBytes 2 (crc16 b)
/-- ring 0 of TOPO 1 with its west port 0 and east port 1, in a state -/
def ringed (s : State) (st n : Nat) : State :=
  put s [(BNC.RING_TBL_TOPO,0,0,1),(BNC.RING_TBL_WEST_PORT,0,0,0),(BNC.RING_TBL_EAST_PORT,0,0,1),(BNC.RING_TBL_STATE,0,0,st),(BNC.RING_TBL_N,0,0,n)]
def dmaEntry (op len host ofs : Nat) : Bytes := leBytes 4 op ++ leBytes 4 len ++ leBytes 8 host ++ leBytes 4 ofs ++ List.replicate 44 0
def dmaHub (e : Bytes) : State := mem (put hub [(HIF.DMA_EN,0,1,1),(HIF.HST_USE,0,15,3),(HIF.HST_PI,0,15,1)]) (hstSlot 15 0) e
def withPen (s : State) (typ : Nat) (rest : Bytes) : State :=
  { s with pens := [⟨0, 0, 0, 0, true, 0, leBytes 1 typ ++ rest ++ List.replicate (63 - rest.length) 0⟩] }
def pen0 (typ : Nat) (rest : Bytes) : HeldPen := ⟨0, 0, 0, 0, true, 0, leBytes 1 typ ++ rest ++ List.replicate (63 - rest.length) 0⟩
/-- an operation's record -/
def opR (st left : Nat) : OpRun := ⟨st, 0, false, false, false, false, false, 0, 0, 0, left, 0, none, none⟩
def descB (op prio deps flags wkind warg wtmo : Nat) (ins outs : List Nat) (param : Nat) : Bytes :=
  leBytes 2 op ++ leBytes 1 prio ++ leBytes 1 deps ++ leBytes 1 flags ++ leBytes 1 wkind ++ leBytes 2 warg ++ leBytes 4 wtmo ++ leBytes 8 0 ++
  (ins ++ List.replicate (8 - ins.length) 0xFFFF).flatMap (leBytes 2) ++ (outs ++ List.replicate (4 - outs.length) 0xFFFF).flatMap (leBytes 2) ++
  leBytes 4 0 ++ leBytes 4 0 ++ leBytes 4 param ++ List.replicate 8 0
def chart (s : State) (ops : List OpRun) (ds : List Bytes) : State :=
  mem (mem { s with graph := { s.graph with ops := ops } } 20 (leBytes 4 256)) 256 ds.flatten
def sgn (s : State) (i bits : Nat) : State := mem s (sigAddr i) (leBytes 8 bits ++ [1, 0])
def f0 : Nat := 0
def fh : Nat := 0x3F000000
def f1 : Nat := 0x3F800000
def f2 : Nat := 0x40000000
def f3 : Nat := 0x40400000
def fm2 : Nat := 0xC0000000
/-- one operation that starts: opcode, the signals 1 to n that it reads, PARAM, coefficients -/
def starter (op n param : Nat) (vals coefs : List Nat) : State :=
  let s := chart hub [opR 2 30] [descB op 0 0 0 0 0 0 ((List.range n).map (· + 1)) ((List.range 4).map (· + 100)) param]
  let s := (List.range vals.length).foldl (fun s i => sgn s (i + 1) (vals.getD i 0)) s
  mem s (s.coefBank) (coefs.flatMap (leBytes 4))

def wit1 : State := { hub with pending := [.stage, .swap] }
def wit2 : State := { hub with por := true }
def wit3 : State := put hub [(SAF.STAT_SPB,0,0,1)]
def wit4 : State := { hub with pwr := { hub.pwr with dormant := some 5, wakeLatched := none } }
def wit5 : State := put { hub with pwr := { hub.pwr with dormant := some 5, pwren := false } } [(PWR.WAKE_WAKE_EN,0,0,1)]
def wit6 : State := put { hub with pwr := { hub.pwr with dormant := some 5, pwren := false } } [(PWR.WAKE_CMP_EN,0,0,1)]
def wit7 : State := put hub [(CLK.STAT_PLL_LOCK,0,0,1),(PWR.ISL_STATE,0,33,3)]
def wit8 : State := put { hub with pwr := { hub.pwr with islands := List.replicate 34 ⟨50, 0, 0, false⟩ } } [(PWR.ISL_STATE,0,33,3)]
def wit9 : State := put hub [(PG.LOCKED,1,0,1)]
def held : State := { hub with graph := { hub.graph with coefHeld := [⟨0, 1, none, 0⟩] } }
def wit10 : State := { hub with pwr := { hub.pwr with held := [⟨0x60, 0x044, 0, false, 0⟩] } }
def wit11 : State := put hub [(PG.EVT_PEND,0x60,0,0xF)]
def wit12 : State := put hub [(PG.EVT_RAW,0x60,0,0xF)]
def wit13 : State := put hub [(PG.EVT_EN,0x60,0,0xFF)]
def wit14 : State := put hub [(PG.LOCKED,0x48,0,1)]
def wit15 : State := { hub with pwr := { hub.pwr with resetting := [0x48] } }
def wit16 : State := put hub [(PG.ERR_OFFSET,0x60,0,0x44),(PG.ERR_CODE,0x60,0,4),(PG.ERR_COUNT,0x60,0,3)]
def wit17 : State := { hub with pending := [.registerWrite 0 0x60 0x014 3 4] }
def wit18 : State := { hub with hif := { hub.hif with flash := true } }
def wit19 : State := put hub [(AUX.TEMP_HIGH,0,0,100)]
def wit20 : State := put hub [(GRF.STAT_ACTIVE_VALID,0,0,1)]
def wit21 : State := put hub [(HIF.HST_USE,0,15,1)]
def wit22 : State := put hub [(HIF.HST_USE,0,15,4)]
def wit23 : State := { hub with hif := { hub.hif with waits := List.replicate 16 [List.replicate 64 7] } }
def wit24 : State := dmaHub (dmaEntry 1 2 0 0xFFFFFE)
def wit25 : State := dmaHub (dmaEntry 2 4 0x1000 0x500000)
def wit26 : State := dmaHub (dmaEntry 3 0 0 0)
def wit27 : State := { hub with hif := { hub.hif with dma := [none, some ⟨dmaEntry 3 0 0 0, 4, 0⟩] } }
def wit28 : State := put hub [(SYS.BOOT_STATE,0,0,0),(SYS.STRAP_BOOTSRC,0,0,1),(CLK.STAT_PLL_LOCK,0,0,1)]
def wit29 : State := put hub [(SYS.BOOT_STATE,0,0,0),(SYS.STRAP_BOOTSRC,0,0,0),(CLK.STAT_PLL_LOCK,0,0,1)]
def wit30 : State := put hub [(SYS.BOOT_STATE,0,0,2),(SYS.BOOT_SRC,0,0,2),(HIF.BOOT_LEN,0,0,255),(CLK.STAT_PLL_LOCK,0,0,1)]
def wit31 : State := put hub [(SYS.BOOT_STATE,0,0,3),(CLK.STAT_PLL_LOCK,0,0,1)]
def wit32 : State := put hub [(SYS.BOOT_STATE,0,0,2),(SYS.STRAP_BOOTSRC,0,0,0),(SYS.BOOT_RES_A,0,0,1),(SYS.BOOT_RES_B,0,0,1),(SYS.BOOT_SRC,0,0,1),(CLK.STAT_PLL_LOCK,0,0,1)]
def wit33 : State := put hub [(SYS.BOOT_STATE,0,0,6),(CLK.STAT_PLL_LOCK,0,0,1)]
def wit34 : State := put hub [(SYS.BOOT_STATE,0,0,4),(CLK.STAT_PLL_LOCK,0,0,1)]
def wit35 : State := put cell [(CEL.STAT_LIFE,0,0,0)]
def wit36 : State := withPen (put cell [(CEL.STAT_LIFE,0,0,1)]) 0x10 [0, 0, 0, 9]
def wit37 : State := withPen (put cell [(CEL.STAT_LIFE,0,0,2)]) 0x11 [0, 0, 0, 2, 0, 0, 0, 60]
def wit38 : State := put cell [(CEL.STAT_LIFE,0,0,3)]
def imaged : State := put { cell with cell := { cell.cell with bootEnd := some (5, 256), chunks := (List.range 5).map fun i => (i, List.replicate 58 1) } } [(CEL.STAT_LIFE,0,0,3)]
def wit39 : State := put { cell with cell := { cell.cell with keyIdx := 1 } } [(CEL.STAT_LIFE,0,0,5)]
def wit40 : State := put cell [(CEL.STAT_LIFE,0,0,0)]
def wit41 : State := { cell with cell := { cell.cell with orphanAt := some 3 } }
def wit42 : State := put { cell with cell := { cell.cell with bypassAt := some 3 } } [(CEL.HB_BPT_EN,0,0,1),(CEL.HB_BPT_HOLD,0,0,1)]
def wit43 : State := put cell [(CEL.OV1_THR,0,0,1),(CEL.STAT_OV1,0,0,1),(CEL.OV1_HYST,0,0,0)]
def wit44 : State := put cell [(CEL.OV2_N,0,0,0)]
def wit45 : State := put cell [(CEL.STAT_OT_TRIP,0,0,1)]
def passed : State := put cell [(SYS.STRAP_LGCY,0,0,1)]
def flg : RxFlag := ⟨0, 0, 0, 0, true, 7, true⟩
def flagged : State := { cell with cell := { cell.cell with flags := [flg] } }
def wit46 : State := { hub with mer := { hub.mer with stepDelta := some 5 } }
def wit47 : State := put hub [(CTR.STAT_ACTIVE,0,0,1),(PG.ENABLE,0x54,0,1)]
def wit48 : State := put { hub with ctr := { hub.ctr with sortStarted := true } } [(CTR.STAT_ACTIVE,0,0,1)]
def wit49 : State := put { hub with ctr := { hub.ctr with sorted := true } } [(CTR.STAT_ACTIVE,0,0,1)]
def wit50 : State := { hub with ctr := { hub.ctr with edgeStarted := true } }
def wit51 : State := { hub with strideT := 0 }
def wit52 : State := put hub [(PWR.BUDGET,0,0,0xFFFF)]
def wit53 : State := put hub [(PG.ENABLE,0x48,0,1)]
def wit54 : State := put hub [(CTG.CELLS_COUNT,11,0,1024),(CTG.CELLS_BASE,11,0,7168)]
def wit55 : State := put hub [(CTG.CELLS_COUNT,11,0,2),(CTG.CELLS_BASE,11,0,8191)]
def wit56 : State := put { hub with strideT := 0 } [(CTG.CELLS_COUNT,0,0,1)]
def wit57 : State := put (ringed hub 5 1) [(SYS.STRAP_LGCY,0,0,1)]
def paired2 : State := put hub [(PG.ENABLE,0x90,0,1),(SYS.STRAP_ROLE,0,0,1),(CLR.STAT_STATE,0,0,3),(BNC.RING_TBL_TOPO,0,0,2),(BNC.RING_TBL_EAST_PORT,0,0,1),(BNC.RING_TBL_WEST_REMOTE,0,0,1)]
def wit58 : State := put hub [(PG.ENABLE,0x90,0,1)]
def wit59 : State := put (ringed hub 5 1) [(BNC.CTL_RUN,0,0,1),(BNC.CTL_SILENT_N,0,0,1)]
def wit60 : State := put hub [(BNT.PORT_STAT_RETRAINING,47,0,1)]
def wit61 : State := put hub [(BNT.PORT_STAT_RETRAINING,47,0,1),(BNT.PORT_STAT_RETRAIN_CNT,47,0,255)]
def wit62 : State := put (ringed hub 0 0) [(BNT.PORT_CTL_USE,0,0,1)]
def upRing : State := put (ringed hub 0 0) [(BNT.PORT_CTL_EN,0,0,1),(BNT.PORT_CTL_EN,1,0,1),(BNC.RING_TBL_CELL_BASE,0,0,8191)]
def wit63 : State := ringed hub 5 1
def wit64 : State := (ringed hub 5 1).modRing 0 fun x => { x with splitDue := true }
def wit65 : State := put hub [(BNC.BOOT_CTL_ACTIVE,0,0,1)]
def wit66 : State := put hub [(SYS.STRAP_ROLE,0,0,2)]
def wit67 : State := put hub [(SYS.STRAP_ROLE,0,0,1)]
def trunkHub (u : Nat) : State := { put hub [(SYS.STRAP_ROLE,0,0,if u = 3 then 2 else 1),(BNT.PORT_CTL_EN,5,0,1),(BNT.PORT_CTL_USE,5,0,u),(BNC.TRUNK_UP_PORT,0,0,5),(BNT.PORT_CTL_EN,6,0,1),(BNT.PORT_CTL_USE,6,0,2)] with trunk := { hub.trunk with service := true } }
def wit68 : State := trunkHub 2
def wit69 : State := trunkHub 3
def fullRing : State := (ringed hub 5 1).modPort 1 fun x => { x with entries := List.replicate 128 (.timeout 0 0) }
def txn1 : PenTxn := ⟨0, 1, 0, 0, 1⟩
def wit70 : State := { withPen (ringed hub 5 1) 3 [0, 1, 0, 0, 0, 0, 1] with txns := [txn1] }
def wit71 : State := put { ringed hub 5 1 with txns := [txn1] } [(BNC.CTL_PEN_TMO,0,0,0)]
def wit72 : State := withPen cell 0 []
def wit73 : State := withPen (put cell [(MER.LAT_W_LAT,0,0,100)]) 0x30 [0,0,0, 0,0,0,0, 255,255,255,255]
def wit74 : State := withPen cell 0x31 [0,0,0, 1,0]
def wit75 : State := withPen cell 0x31 [0,0,0, 0,0]
def wit76 : State := withPen cell 0x32 []
def wit77 : State := withPen cell 0x38 [0,0,0, 255, 0]
def rep0 : StrideRep := ⟨0,0,0,0,0,0,0,0,0,1,0,0,0,[]⟩
def wit78 : State := { withPen hub 0x40 [] with pair := { hub.pair with owns := [rep0] } }
def wit79 : State := withPen cell 0x20 [0,0,0, 1, 1, 8, 0]
def wit80 : State := (ringed hub 3 1).modRing 0 fun x => { x with eph := [1] }
def wit81 : State := withPen (ringed hub 3 1) 0x20 [0,1,0, 2, 1, 4, 0]
def wit82 : State := { cell with cell := { cell.cell with credDue := some 1 } }
def wit83 : State := withPen cell 0x20 [0,1,0, 3, 1]
def wit84 : State := (ringed hub 5 1).modRing 0 fun x => { x with pairs := [(1, [7])], wrapDue := [1], nextIdx := 1 }
def wit85 : State := withPen hub 0x20 [0,1,0, 4, 0]
def wit86 : State := (withPen (ringed hub 5 1) 0x20 [0,1,0, 4, 1]).modRing 0 fun x => { x with nextIdx := 1, wrapDue := [1] }
def wit87 : State := { cell with cell := { cell.cell with ackDue := some 1 } }
def wit88 : State := (ringed hub 5 1).modRing 0 fun x => { x with keyIdx := 255 }
def wit89 : State := hub.modRing 47 fun x => { x with keyIdx := 1, nextIdx := 2 }
def wit90 : State := hub.modRing 47 fun x => { x with keyIdx := 255, served := 2 ^ 30 }
def wit91 : State := hub.modRing 47 fun x => { x with keyIdx := 255, served := 2 ^ 31 }
def wit92 : State := { hub with security := { hub.security with ops := [(.hubStart 0, 3), (.cellCred 1, 4)] } }
def wit93 : State := { hub with security := { hub.security with ops := [(.hubStart 47, 3)] } }
def eth (p : Nat) : State := put hub [(PG.ENABLE,0xA8+p,0,1)]
def wit94 : State := eth 3
def eth0 : State := put hub [(PG.ENABLE,0xA8+3,0,1)]
def txf (p e : Nat) (d : Bytes) : TxFrame := ⟨p, e, d, none⟩
def qd : State := { eth0 with txq := [txf 2 0 [], txf 3 2 [2], txf 3 1 [1]] }
def rsp : TxFrame := ⟨3, 1, [], some ⟨false, 0, 4, 1000⟩⟩
def qr : State := { eth0 with txq := [rsp] }
def wit95 : State := put cell [(EDG.TRIP_CFG_MASK3,0,0,15)]
def wit96 : State := put cell [(EDG.TRIP_STAT_IN,0,0,15)]
def wit97 : State := put cell [(EDG.TRIP_STAT_SUPP_PEND,0,0,15)]
def wit98 : State := put cell [(EDG.TRIP_STAT_IN,0,0,1),(EDG.TRIP_CFG_MASK0,0,0,8)]
def cellOn : State := (cell.modChan 0 fun x => { x with on := true }).modChan 3 fun x => { x with on := true }
def wit99 : State := put (cell.modEdge fun e => { e with lcAt := some 1000, lcPerNext := some 7, lcDutyNext := some 3 }) [(EDG.STAT_COMMIT_PEND,0,0,1)]
def wit100 : State := put cell [(EDG.LC_CTL_PAIRED,0,0,1),(EDG.LC_PER,0,0,7),(EDG.LC_DUTY,0,0,3)]
def wit101 : State := put (cell.modEdge fun e => { e with lcLast := some 0 }) [(EDG.LC_CTL_PAIRED,0,0,1),(EDG.LC_PER,0,0,7),(EDG.LC_DUTY,0,0,3)]
def wit102 : State := put cell [(EDG.TEV_ARM,0,3,1)]
def wit103 : State := put cell [(EDG.TEV_ARM,0,3,1),(EDG.TEV_PERIOD,0,3,5)]
def wit104 : State := cell.modChan 1 fun x => { x with on := true, due := [⟨false, 100, 200, false⟩] }
def act : State := put hub [(GRF.STAT_ACTIVE_VALID,0,0,1)]
def cellLive : State := put cell [(GDR.CTL_GATE_EN,0,0,1),(GDR.CTL_CH_EN,0,0,15),(GDR.STAT_ENABLED,0,0,1),(GDR.STAT_GEN_LVL,0,0,1)]
def wit105 : State := cellLive.modChan 1 fun x => { x with due := [⟨true, 10 ^ 9, 10 ^ 9, false⟩] }
def wit106 : State := cell.modChan 3 fun x => { x with on := true, phase := 2, prof := [0,0,0,0,0,0] }
def wit107 : State := cell.modChan 1 fun x => { x with phase := 2 }
def decked : State := put cell [(GDR.CTL_GATE_EN,0,0,1),(GDR.CTL_CH_EN,0,0,15),(GDR.STAT_GEN_LVL,0,0,1)]
def wit108 : State := { decked with gate := { decked.gate with pumpAt := [none, some 77] } }
def reflS : State := { put decked [(GDR.STAT_DECK_ST1,0,0,1),(GDR.CTL_DECK1,0,0,1),(GDR.BS_Q_CRIT,0,1,255),(GDR.BS_Q_FULL,0,1,255)] with gate := { decked.gate with refillWait := [false, true] } }
def wit109 : State := reflS.modChan 2 fun x => { x with on := true }
def wit110 : State := put decked [(GDR.STAT_VGP_LOW,0,0,1)]
def wit111 : State := put cell [(GDR.STAT_VDDF_LOW,0,0,1)]
def wit112 : State := { decked with mer := { decked.mer with mer := 10 ^ 9 } }.modChan 3 fun x => { x with on := true }
def wit113 : State := { decked with gate := { decked.gate with genLow := some 0 }, mer := { decked.mer with uptime := 4 * us } }
def wit114 : State := { decked with gate := { decked.gate with genLow := some 0 }, mer := { decked.mer with uptime := 4 * us - 1 } }
def wit115 : State := put hub [(SAF.STAT_STATE,0,0,1),(SAF.STAT_PERMIT,0,0,255)]
def wit116 : State := { hub with saf := { hub.saf with supBad := true } }
def degr : State := put hub [(SAF.STAT_STATE,0,0,2),(SAF.SI_FLT_SI_HALF,0,0,1)]
def wit117 : State := degr.advanceUp (degr.saf.degrAt + degr.rd SAF.DEGR_T_DEGR * sec)
def conn : State := put hub [(SEM.CTL_EN,0,0,1),(SEM.CONN_EN,0,7,1),(SEM.STAT_CONN_UP,0,0,255)]
def wit118 : State := conn.advanceUp ((conn.semConn 7).okAt + conn.rdA SEM.CONN_WDOG 0 7 * ms)
def safeLk : State := put hub [(SAF.STAT_STATE,0,0,3),(SAF.STAT_FAULT,0,0,3),(PG.LOCKED,0x98,0,1),(PG.LOCKED,0x99,0,1)]
def wit119 : State := put hub [(SAF.STAT_STATE,0,0,3),(SAF.STAT_FAULT,0,0,3)]
def wit120 : State := put hub [(SAF.SPB_RST_SRC,0,0,16)]
def axs (k : Nat) : State := put hub [(PG.ENABLE,0x68+15,0,1),(AXS.CFG_KIND,15,0,k),(AXS.VMAX,15,0,0x3F800000),(AXS.AMAX,15,0,0x3F800000),(AXS.DMAX,15,0,0x3F800000),(AXS.JMAX,15,0,0x3F800000)]
def wit121 : State := axs 3
def wit122 : State := axs 1
def wit123 : State := put (axs 1) [(PG.ENABLE,0x68,0,1),(AXS.CFG_KIND,0,0,1),(AXS.GEAR_SRC,15,0,1),(AXS.GEAR_MASTER,15,0,0),(AXS.GEAR_NUM,15,0,1),(AXS.GEAR_DEN,15,0,1)]
def wit124 : State := put (axs 1) [(AXS.STAT_GEAR,15,0,2)]
def wit125 : State := put (axs 1) [(AXS.STAT_FBL,15,0,2),(AXS.CFG_FBK,15,0,7),(FBK.STAT_STATE,7,0,0),(AXS.VEL_STAT_STALE,15,0,0)]
def wit126 : State := put (axs 1) [(AXS.STAT_FBL,15,0,3),(AXS.VEL_STAT_STALE,15,0,1)]
def wit127 : State := let s := axs 1; { s with axes := s.axes.set 15 { s.axis 15 with held := [s.staged 15] } }
def fbk (ty : Nat) : State := put hub [(PG.ENABLE,0x7F,0,1),(FBK.CFG_TYPE,7,0,ty)]
def wit128 : State := fbk 1
def wit129 : State := fbk 2
def wit130 : State := put (fbk 1) [(FBK.CFG_LF_EN,7,0,1)]
def wit131 : State := put (fbk 1) [(FBK.STAT_STATE,7,0,2)]
def wit132 : State := put (fbk 3) [(FBK.SSI_T_LEAD,7,0,100)]
def ssi : State := let s := put (fbk 3) [(FBK.SSI_T_LEAD,7,0,100),(FBK.SSI_POS_BITS,7,0,8),(FBK.SSI_CRC_BITS,7,0,0),(FBK.SSI_ERR_BITS,7,0,0)]; { s with fbk := s.fbk.set 7 { s.fb 7 with reading := some 5000 } }
def wit133 : State := put (axs 1) [(AXS.LT_CFG_LT_EN,15,0,255),(AXS.LT_CFG_LT_EDGE,15,0,2)]
def wit134 : State := put (axs 1) [(AXS.DATUM_CTL_PENDING,15,0,1),(AXS.DATUM_CTL_SRC,15,0,1)]
def wit135 : State := let s := axs 2; { s with axes := s.axes.set 15 { s.axis 15 with drive := some ⟨0,0,0,true,0⟩ } }
def cni (md src : Nat) : State := put hub [(PG.ENABLE,0x80,0,1),(CNI.CTL_EN,0,0,0xFFFF),(CNI.CH_MODE,0,15,md),(CNI.CH_START_SRC,0,15,src)]
def wit136 : State := let s := cni 2 3; { s with meas := { s.meas with events := [(1000, [3, 15])] } }
def wit137 : State := let s := cni 2 3; { s with meas := { s.meas with starts := s.meas.starts.set 15 [1, 2, 3, 4], events := [(1000, [3, 15])] } }
def wit138 : State := let s := cni 2 3; { s with meas := { s.meas with starts := s.meas.starts.set 15 [1] } }
def wit139 : State := cni 0 0
def scan : State := let s := put hub [(PG.ENABLE,0x81,0,1),(CNF.CTL_EN,0,0,255)]; { s with meas := { s.meas with scan := true, due := s.meas.due.set 16 (some 7), scanAt := none } }
def wit140 : State := { scan with meas := { scan.meas with scanAt := some 7 } }
def cal : State := put hub [(PG.ENABLE,0x81,0,1),(CNF.CTL_EN,0,0,255),(CNF.CTL_CAL_HOLD,0,0,0),(CNF.CH_ACTIVE,0,1,15)]
def wit141 : State := put cal [(CNF.STAT_FROZEN,0,0,255)]
def wit142 : State := put hub [(PG.ENABLE,0x82,0,1),(SVS.CTL_EN,0,0,0xFFFF)]
def pmu : State := put hub [(PG.ENABLE,0x83,0,1),(PG.ENABLE,0xAB,0,1),(PMU.CTL_RUN,0,0,1),(PMU.CFG_PORT,0,0,3),(MER.STAT_STATE,0,0,1)]
def wit143 : State := put (put pmu [(PMU.CFG_INT_RATE,0,0,1)]) ((List.range 16).map fun k => (PMU.CH_SIG_BASE, 0, k, if k = 15 then 4092 else 0xFFFF))
def wit144 : State := put hub [(SVY.LEN_POST,0,0,10),(SVY.LEN_PRE,0,0,10)]
def wit145 : State := put hub [(SVY.LEN_POST,0,0,10),(SVY.LEN_PRE,0,0,10),(SVY.CFG_NREC,0,0,3),(SVY.REC_FULL,0,0,255)]
def armd : State := put hub [(SVY.STAT_STATE,0,0,1)]
def wit146 : State := let s := put hub [(SVY.STAT_STATE,0,0,2)]; { s with mer := { s.mer with mer := 10 ^ 6 } }
def wit147 : State := put hub [(SVY.REC_FULL,0,0,255)]
def wit148 : State := put armd [(SVY.LVL_EN_HI,0,7,1),(SVY.LVL_FIRE,0,7,1),(SVY.LVL_HI,0,7,100),(CNF.CH_POLARITY,0,7,0)]
def wit149 : State := put armd [(SVY.SLP_EN_POS,0,7,1),(SVY.SLP_FIRE,0,7,1),(SVY.SLP_DELTA,0,7,100),(SVY.SLP_SPAN,0,7,1)]
def wit150 : State := let s := put armd [(SVY.PAT_EN,0,0,1),(SVY.PAT_MASK_HI,0,0,1),(SVY.PAT_VALUE_HI,0,0,1)]; { s with svy := { s.svy with patReady := true } }
def wit151 : State := put armd [(SVY.CFG_CH_EN,0,0,1)]
def wit152 : State := put hub [(SVY.CTL_MODE,0,0,1),(SVY.STAT_DEC,0,0,3)]
def wit153 : State := put hub [(SVY.RD_ADDR_AUTOINC,0,0,1),(SVY.RD_ADDR,0,0,0x7FFFFC)]
def tri : State := put hub [(PG.ENABLE,0x89,0,1),(TRI.CTL_EN,0,0,1),(TRI.DET_POL_NEG,0,7,1),(TRI.DET_POL_POS,0,7,1),(TRI.DET_THR,0,7,100)]
def wit154 : State := put tri [(TRI.DET_SPAN,0,7,1)]
def wit155 : State := { put tri [(PG.ENABLE,0xAB,0,1)] with tri := { tri.tri with again := [(7, 2, 3, [1])] } }
def wit156 : State := { tri with tri := { tri.tri with waits := [(1, 2)] } }
def wit157 : State := let s := put hub [(CLR.STAT_STATE,0,0,2)]; { s with pair := { s.pair with transfer := true } }
def wit158 : State := put hub [(PG.ENABLE,0x90,0,1),(PG.ENABLE,0x41,0,1),(TWN.CTL_LANE_EN,0,0,3)]
def pr (st : Nat) : State := put hub [(PG.ENABLE,0x90,0,1),(PG.ENABLE,0x41,0,1),(TWN.CTL_LANE_EN,0,0,3),(CLR.STAT_STATE,0,0,st)]
def wit159 : State := pr 4
def wit160 : State := put (pr 1) [(BNC.RING_TBL_STATE,0,47,5)]
def wit161 : State := put (pr 4) [(CLR.CFG_DRILL_H,0,0,1)]
def wit162 : State := let s := put (pr 4) [(CLR.CFG_PREF,0,0,2)]; { s with pair := { s.pair with standby := some 0 } }
def wit163 : State := pr 5
def wit164 : State := let s := pr 2; { s with pair := { s.pair with transfer := true, items := [(4, 0, 0, [])] } }
def wit165 : State := let s := pr 2; { s with pair := { s.pair with adopted := true, goodRun := 16 } }
def wit166 : State := let s := pr 4; { s with pair := { s.pair with waiting := [⟨0, 0, false, 0, [], 0⟩] } }
def sent (s : State) : Bytes := (s.out.findSome? fun o => match o with | .hoist _ _ d => some d | _ => none).getD []
def wit167 : State := withPen cell 1 [0, 4, 0, 0xFF, 0, 0, 1]
def wit168 : State := withPen cell 1 [0, 4, 0, 0, 0, 0, 12]
def wit169 : State := withPen (put cell [(PWR.ISL_STATE,0,5,0)]) 1 [0, 4, 0, 0x58, 0x40, 0, 1]
def wit170 : State := withPen cell 2 [0, 8, 0, 0x58, 0x14, 0, 1, 0x3F, 0, 0, 0]
def wit171 : State := { hub with pair := { hub.pair with mirrors := [({ b := 0, page := 8, bar2 := false, ofs := 0x014, data := [3,0,0,0], unit := 1 } : Mirror)] } }
def wit172 : State := starter 0x01 4 1 [f1,f2,f3,f1] []
def wit173 : State := starter 0x08 2 0 [f1,f2] [f1,f2,f0,f0,f0,f0,f0,f0,f3]
def wit174 : State := starter 0x08 3 0 [f1,f2] []
def wit175 : State := starter 0x09 2 1 [f1,f2] [f3]
def wit176 : State := starter 0x09 2 0 [f1] [f3]
def wit177 : State := starter 0x58 8 0 [f1,f2,f3] []
def wit178 : State := starter 0x59 8 0 [f1,f2,f3] []
def wit179 : State := starter 0x5A 8 0 [f1,f2,f3] [3]
def wit180 : State := starter 0x5A 8 0 [] [3]
def wit181 : State := starter 0x40 3 0 [f3,f1,f2] []
def wit182 : State := starter 0x41 1 0 [f3] [f1,f1]
def wit183 : State := starter 0x41 1 0 [] [f1,f1]
def wit184 : State := starter 0x48 1 0 [f1] [1]
def wit185 : State := starter 0x48 1 0 [fh] [2,f1,f2,f3,f1]
def wit186 : State := starter 0x60 1 0 [f3] [2,3]
def wit187 : State := starter 0x60 1 0 [f3] [2]
def wit188 : State := starter 0x68 1 0 [f3] [f1,fh]
def wit189 : State := starter 0x69 1 0 [f3] []
def wit190 : State := starter 0x78 1 5 [f3] []
def wit191 : State := starter 0x20 1 0 [f3] [fh]
def wit192 : State := starter 0x20 1 0 [] [fh]
def wit193 : State := starter 0x10 2 0 [f3,f1] [f1,f1,fm2,f2,fm2,f2]
def wit194 : State := put (starter 0x10 2 0 [f3] []) [(GRF.FBL_HOLD,0,0,0)]
def wit195 : State := put (starter 0x10 2 0 [f3] []) [(GRF.FBL_HOLD,0,0,1)]
def wit196 : State := starter 0x11 5 0 [f3,f1,f1,f0,f2] [f1,f1,fm2,f2,fm2,f2]
def wit197 : State := starter 0x18 3 0 [f3,f2,f0] [f1,f1]
def wit198 : State := starter 0x18 3 0 [f3,f2,f1] [f1,f1]
def rampNo : State := mem (starter 0x18 3 0 [f3,f2,f1] [f1,f1]) (sigAddr 2 + 8) [0]
def rampOn : State := mem (starter 0x18 3 0 [f3,f2,f1] [f1,f1]) (scratchBase + 8) [1]
def wit199 : State := starter 0x21 1 0 [f3] [f1,f2,f3,fh,fh]
def wit200 : State := starter 0x21 1 0 [] [f1,f2,f3,fh,fh]
def wit201 : State := starter 0x30 2 0 [f3,f1] []
def wit202 : State := starter 0x31 3 0 [f3,f1,f2] []
def wit203 : State := starter 0x32 4 3 [f3,f1,f2,f1] []
def wit204 : State := starter 0x33 4 3 [f3,f1,f2,f1] []
def wit205 : State := starter 0x33 4 3 [f3,f1] []
def wit206 : State := starter 0x34 3 0 [f3,f1] []
def wit207 : State := starter 0x34 3 0 [f3,f1,f2] [fh]
def wit208 : State := starter 0x38 2 0 [f3,f1] [f1,f1,f1,f0,f3,fh]
def wit209 : State := put (starter 0x38 2 0 [f3] []) [(GRF.FBL_HOLD,0,0,0)]
def wit210 : State := starter 0x50 8 0 [f3,f1,f1,f1,f1,f1,f1,f0] []
def wit211 : State := starter 0x50 7 0 [f3,f1,f1,f1,f1,f1,f1] [f1,f1,f1]
def busy (s : State) : State := { s with graph := { s.graph with plot := List.replicate 16 (some 9) } }
def one (r : OpRun) (flags wkind warg wtmo : Nat) : State := chart hub [r] [descB 0x20 3 0 flags wkind warg wtmo [1] [7] 0]
def d1 : State := busy (one (opR 1 20) 0 0 0 0)
def t1 : Nat := 10 ^ 6
def wit212 : State := d1.advanceTo t1
def rdy (s : State) (l m : List Nat) : State := { s with graph := { s.graph with ready := l, resume := m } }
def d2 : State := rdy (one (opR 1 20) 0 0 0 0) [0] []
def wit213 : State := d2.advanceTo t1
def d3 : State := rdy (one (opR 1 20) 8 2 0 100) [0] []
def wit214 : State := d3.advanceTo t1
def d4 : State := rdy (one { opR 3 20 with resume := true } 8 2 0 100) [] [0]
def wit215 : State := d4.advanceTo t1
def two (k : Nat) : State := let s := rdy (busy (chart hub ([opR 2 300, opR 1 20] ++ List.replicate k (opR 3 5)) [descB 0x20 3 0 0 0 0 0 [1] [7] 0, descB 0x20 4 0 0 0 0 0 [1] [8] 0])) [1] []; { s with graph := { s.graph with plot := s.graph.plot.set 0 (some 0) } }
def wit216 : State := two 0
def lege (s : State) : State := s.advanceTo (s.after (s.op 0) legCycles)
def wit217 : State := lege (two 0)
def wit218 : State := two 128
def wit219 : State := lege (two 128)
def d6 : State := one (opR 2 300) 0 0 0 0
def wit220 : State := lege d6
def d7 : State := let s := one (opR 3 20) 8 2 5 100; { s with graph := { s.graph with samples := s.graph.samples.set 5 1 } }
def tm (s : State) : State := s.advanceTo (s.op 0).waitEnd
def wit221 : State := tm d7
def d9 : State := one (opR 3 20) 8 2 5 100
def wit222 : State := tm d9
def d9b : State := one (opR 3 20) 24 2 5 100
def wit223 : State := tm d9b
def res0 : OpRes := { outs := [some (.val f3 true false)], st := [0x1122334455667788, 5], faults := 0, cfl := false, event := false, stop := none, coef := none, axis := none }
def d10 : State := one { opR 2 20 with res := some res0 } 0 0 0 0
def c1 : State := one (opR 0 0) 0 0 0 0
def d11 : State := rdy (one (opR 7 0) 0 0 0 0) [0] []
def c4 : State := rdy (one { opR 3 20 with resume := true } 8 2 5 100) [] [0]
def d12 : State := put d11 [(GRF.STAT_RUNNING,0,0,1)]
def d14 : State := { d6 with graph := { d6.graph with started := true } }
def wit224 : State := put act [(GRF.CTL_RUN,0,0,1)]
def wit225 : State := put hub [(GRF.STAT_STAGED,0,0,2)]
def late : State := let s := put hub [(GRF.STAT_STAGED,0,0,2)]; { s with mer := { s.mer with mer := 1000 * ns, lastS := 1000 * ns } }
def wit226 : State := put hub [(GRF.STAT_STAGED,0,0,3)]
def ats (n : Nat) : State := put hub [(GRF.STAT_STAGED,0,0,2),(GRF.CTL_AT_SEQ,0,0,1),(GRF.SWAP_SEQ,0,0,n)]
def wit227 : State := ats 0
def wit228 : State := ats (2 ^ 31 - 1)
def wit229 : State := put hub [(GRF.STAT_SWAP_PEND,0,0,1)]
def stg : State := put hub [(GRF.STAT_STAGED,0,0,1)]
def wit230 : State := { stg with graph := { stg.graph with opened := true } }
def img : Bytes :=
  let h := leBytes 4 0x48435647 ++ leBytes 2 1 ++ leBytes 2 0x40 ++ leBytes 4 128 ++ leBytes 4 0 ++ leBytes 2 0 ++ leBytes 2 1 ++ leBytes 4 64 ++ List.replicate 36 0
  h ++ leBytes 4 (crc32 h) ++ leBytes 2 1 ++ List.replicate 12 0 ++ leBytes 2 0xFFFF ++ leBytes 4 0 ++ List.replicate 24 0xFF ++ List.replicate 20 0
def wit231 : State := mem { stg with graph := { stg.graph with opened := true } } 0x100000 img
def wit232 : State := put hub [(GRF.COEF_ADDR_WORD,0,0,65535),(GRF.COEF_ADDR_AUTOINC,0,0,1)]
def wit233 : State := put late [(GRF.COEF_ADDR_WORD,0,0,65535),(GRF.COEF_STAT_APPLIED,0,0,15)]
def full (e : CoefEntry) : State := { hub with graph := { hub.graph with coefs := List.replicate 256 e } }
def wit234 : State := full ⟨0, 1, none, 0⟩
def wit235 : State := full ⟨0, 1, some 2, 0⟩
def wit236 : State := { full ⟨0, 1, none, 0⟩ with graph := { (full ⟨0, 1, none, 0⟩).graph with coefHeld := [⟨0, 1, none, 0⟩] } }
def wit237 : State := put hub [(GRF.FBL_STAT_CFL,0,0,1)]
def wit238 : State := put hub [(PG.ENABLE,10,0,1)]
def wit239 : State := put hub [(PG.ENABLE,10,0,1),(PTP.CNT_ANN_TMO,1,0,255)]
def timely : State := { put hub [(PG.ENABLE,10,0,1)] with ptp := modAt hub.ptp 1 fun e => { e with lastSync := some 5, lastAnn := some 6 } }
def wit240 : State := { put hub [(MER.PPS_CTL_IN_EN,0,0,1)] with pps := { hub.pps with armed := true } }
def wit241 : State := { hub with pps := { hub.pps with last := some 5 } }
def wit242 : State := put hub [(MER.PPS_CTL_OUT_EN,0,0,1)]
def anch : State := put hub [(MER.STAT_STATE,0,0,1),(MER.STAT_SRC,0,0,1),(PTP.STAT_QUALIFIED,1,0,1)]
def wit243 : State := (anch.used 0x08).afterDue
def unanch : State := put hub [(MER.STAT_STATE,0,0,2)]
def wit244 : State := (unanch.used 0x08).afterDue
def both : State := put hub [(MER.STAT_STATE,0,0,1),(MER.STAT_SRC,0,0,0),(PTP.STAT_QUALIFIED,1,0,1),(PG.ENABLE,10,0,1)]
def wit245 : State := (both.used 0x08).afterDue
def wit246 : State := put hub [(MER.STAT_STATE,0,0,2)]
def wit247 : State := put hub [(CLK.STAT_PLL_LOCK,0,0,1),(CLK.CTL_LOCKSEL,0,0,0)]
def wit248 : State := put hub [(CLK.STAT_MSYN_LOCK,0,0,1)]
def wit249 : State := { hub with pwr := { hub.pwr with refBad := 1 } }
def wit250 : State := { hub with pwr := { hub.pwr with refGood := 1 } }
def wit251 : State := { hub with pwr := { hub.pwr with islands := List.replicate 34 ⟨0, 1, 0, false⟩ } }
def wit252 : State := put hub [(CLK.STAT_ETH_LOCK,0,0,1)]
def wit253 : State := put hub [(PWR.ISL_STATE,0,32,1)]
def wit254 : State := put hub [(PWR.ISL_STATE,0,32,2)]
def wit255 : State := put hub [(SEC.STAT_BUSY,0,0,1)]
def wit256 : State := { hub with security := { hub.security with cmd := some (9, [], 5) } }
def wit257 : State := put { hub with security := { hub.security with cmd := some (6, [15, 2, 1] ++ List.replicate 37 9, 5) } } [(SEC.STAT_ID_OK,0,0,1)]
def wit258 : State := put { hub with security := { hub.security with cmd := some (7, [15], 5), slots := [(15, ⟨2,1,0,[]⟩)] } } [(SEC.STAT_ID_OK,0,0,1)]
def wit259 : State := put { hub with security := { hub.security with cmd := some (8, [64], 5), bootSvn := 64 } } [(SEC.STAT_ID_OK,0,0,1)]

/-! Ill-formed terms: one for each named check of `wellFormed` (an operand one past its range). -/

theorem test_ill_formed_pins : wellFormed (.porRelease 4 0 0 0 0 0 true true) = false ∧ wellFormed (.porRelease 0 2 0 0 0 0 true true) = false ∧
    wellFormed (.porRelease 0 0 0 0 0 256 true true) = false ∧ wellFormed (.pcieLinkChange true 0 8 false) = false := by decide +kernel

theorem test_ill_formed_words : wellFormed (.sysReset (2 ^ 32)) = false ∧ wellFormed (.cniMonitorMean (2 ^ 24) none) = false ∧
    wellFormed (.delayLineCal 256) = false ∧ wellFormed (.selftestDone ⟨true, 256⟩) = false ∧ wellFormed (.claimCmd 2048) = false ∧ wellFormed (.spiRead (2 ^ 24) ⟨true, false⟩) = false := by decide +kernel

theorem test_ill_formed_links : wellFormed (.hopDown 48) = false ∧ wellFormed (.blockLockLoss 50) = false ∧ wellFormed (.ethTx 4) = false ∧
    wellFormed (.ringTakeDown 48) = false ∧ wellFormed (.hubCred 49) = false ∧ wellFormed (.penTmo 0 257 0) = false ∧
    wellFormed (.penTmo 0 1 8) = false ∧ wellFormed (.hopRelease 0 258) = false ∧ wellFormed (.suspectClr 8192) = false ∧
    wellFormed (.serdesLock 13) = false ∧ wellFormed (.ringDig 2 []) = false := by decide +kernel

theorem test_ill_formed_pages : wellFormed (.pageLock 256) = false ∧ wellFormed (.rcFieldRead ⟨0, 0, 4096⟩ 4) = false ∧
    wellFormed (.registerWrite 2 0 0 0 4) = false ∧ wellFormed (.hostRingPiWrite 16 0) = false ∧ wellFormed (.ringWriteResume 31) = false ∧
    wellFormed (.bar2Write 0xFFFFFF [0, 0] ⟨[], 0, 0⟩) = false := by decide +kernel

theorem test_ill_formed_units : wellFormed (.ctgEnable 12 true) = false ∧ wellFormed (.push 16) = false ∧ wellFormed (.xcopy 4096) = false ∧
    wellFormed (.hallInvalid 8) = false ∧ wellFormed (.tevFire 4) = false ∧ wellFormed (.connLost 8) = false ∧
    wellFormed (.priorityRequest 34) = false ∧ wellFormed (.clkOutWrite 8 0) = false ∧ wellFormed (.svLost 16) = false ∧
    wellFormed (.front 8 [] [] 0 0) = false ∧ wellFormed (.millerTmo 4) = false ∧ wellFormed (.tripActive 4 ⟨true, 0⟩) = false ∧
    wellFormed (.gateSupplyLow ⟨3, 0, 0⟩) = false ∧ wellFormed (.latch 8 true ⟨0, 0⟩) = false ∧ wellFormed (.cniWindowClose 16 0 0 0 false) = false ∧
    wellFormed (.cniWindowClose 0 0 3 0 false) = false ∧ wellFormed (.frozen 8) = false ∧ wellFormed (.cellBoundary [] false false 0 0 []) = false ∧
    wellFormed (.cellBoundary [0] false false 3 0 []) = false ∧ wellFormed (.strideBoundary [⟨8, [0], 0⟩]) = false ∧ wellFormed (.sliceFrozen 0 5) = false ∧
    wellFormed (.levelTrigger 8 [] 0 0) = false ∧ wellFormed (.levelTrigger 0 [] 0 64) = false := by decide +kernel

theorem test_well_formed : wellFormed (.porRelease 3 1 1 1 3 255 true true) = true ∧ wellFormed (.bar2Write 0xFFFFFE [0, 0] ⟨[], 0, 0⟩) = true ∧
    wellFormed (.sliceFrozen 7 4) = true := by decide +kernel

/-! Values worked out from the spec. -/

/-- The state after a command; the state before where it has none. -/
def after (c : Instr) (s : State) : State := match exec c s with | .next t => t | _ => s

/-- The result of an operation on descriptor 0. -/
def outs (c : Instr) (s : State) : List (Option OutV) := ((((after c s).op 0).res).map fun r => r.outs).getD []

/-- The check value of the CRC-32 of R104: the digits 1 to 9. -/
theorem test_crc32 : crc32 [0x31, 0x32, 0x33, 0x34, 0x35, 0x36, 0x37, 0x38, 0x39] = 0xCBF43926 := by decide +kernel

/-- The table gives no bits (spec/opcode_table.json). -/
theorem test_no_word_decodes : decodeTableWord 32 0 = none ∧ hub.withFetchWord 32 0 = hub := ⟨rfl, rfl⟩

/-- Reset: the stride is 1000 × 10 ns, the gates are off, the twin is off. -/
theorem test_reset : State.reset.rd CTR.TIMING_STRIDE = 1000 ∧ State.reset.on GDR.CTL_GATE_EN = false ∧ State.reset.clr = 0 := by decide +kernel

/-- R630, R631: an event forced stands in EVT_RAW; a one written to EVT_RAW clears it. -/
theorem test_evtForce : (after (.evtForce 0x08 2) hub).bitI PG.EVT_RAW 0x08 1 = true := by decide +kernel
theorem test_evtRawWrite : (after (.evtRawWrite 0x08 ⟨2, 0⟩) (after (.evtForce 0x08 6) hub)).rdI PG.EVT_RAW 0x08 = 4 := by decide +kernel

/-- R20: the last byte of the SRAM is written, the next faults. -/
theorem test_bar2Write : (after (.bar2Write 0xFFFFFF [7] ⟨[], 0, 0⟩) hub).byte 0xFFFFFF = 7 := by decide +kernel
theorem test_bar2Write_beyond : (match exec (.bar2Write 0xFFFFFF [7, 8] ⟨[], 0, 0⟩) hub with | .fault (.outsideSram a) => a | _ => 0) = 0x1000001 := by decide +kernel

/-- R334: 3 × 1 × 2 is 6 and 3 × 1 / 2 is 1.5 in binary32. -/
theorem test_mul : outs (.mul 0) (starter 0x09 2 0 [f1, f2] [f3]) = [some (.val 0x40C00000 true false)] := by decide +kernel
theorem test_mul_divides : outs (.mul 0) (starter 0x09 2 1 [f1, f2] [f3]) = [some (.val 0x3FC00000 true false)] := by decide +kernel

/-- R334: 1 × 1 + 2 × 2 + 3 is 8. -/
theorem test_wsum : outs (.wsum 0) (starter 0x08 2 0 [f1, f2] [f1, f2, 0, 0, 0, 0, 0, 0, f3]) = [some (.val 0x41000000 true false)] := by decide +kernel

/-- R336: 3 limited to 1 … 2 is 2; R335: the middle of 3, 1, 2 is 2, of three inputs. -/
theorem test_lim : (outs (.lim 0) (starter 0x40 3 0 [f3, f1, f2] [])).head? = some (some (.val f2 true false)) := by decide +kernel
theorem test_med : outs (.med 0) (starter 0x5A 8 0 [f3, f1, f2] [1]) = [some (.val f2 true false), some (.val f3 true false)] := by decide +kernel

/-- R339: 3 × 2 / 3 is 2 with integer factors. -/
theorem test_gear : outs (.gear 0) (starter 0x60 1 0 [f3] [2, 3]) = [some (.val f2 true false)] := by decide +kernel

/-- R345: a = 3, b = c = 0 gives α = 2, β = 0, zero = 1. -/
theorem test_clarke : outs (.clarke 0) (starter 0x30 3 0 [f3, f0, f0] []) =
    [some (.val f2 true false), some (.val f0 true false), some (.val f1 true false)] := by decide +kernel

/-- R346: at an angle of 0, d = α and q = β. -/
theorem test_park : outs (.park 0) (starter 0x32 3 1 [f3, f2, f0] []) = [some (.val f3 true false), some (.val f2 true false)] := by decide +kernel

/-- R352: 3 lies above 1 + 0.5; the output becomes 1. -/
theorem test_cmp : outs (.cmp 0) (starter 0x68 1 0 [f3] [f1, fh]) = [some (.val f1 true false)] := by decide +kernel

/-- R401: A leading B counts up, B alone down from 0, 0; R402: an interface shows the code of U and W. -/
theorem test_encoderEdge : (after (.encoderEdge 7 true false ⟨5, 10 * ns⟩) (fbk 1)).rdI FBK.RAW 7 = 1 := by decide +kernel
theorem test_encoderEdge_down : (after (.encoderEdge 7 false true ⟨5, 10 * ns⟩) (fbk 1)).rdI FBK.RAW 7 = 0xFFFFFFFF := by decide +kernel
theorem test_hallChange : (after (.hallChange 7 true false true ⟨5, 10 * ns⟩) (fbk 2)).rdI FBK.STAT_HALL 7 = 5 := by decide +kernel

/-- R89: the low second count of a snapshot. -/
theorem test_snapshotRead : (after .snapshotRead { hub with mer := { hub.mer with mer := 3 * sec + 5 * ns } }).out.head? = some (.readData 0x08 0x048 3) := by
  decide +kernel

/-- R222: 16 failing calibrations in a row leave the taps; 24 taps are within the range, 23 are not. -/
theorem test_delayLineCal : (after (.delayLineCal 23) cell).rd EDG.CAL_CAL_FAULT = 1 ∧ (after (.delayLineCal 24) cell).rd EDG.CAL_TAPS = 24 := by decide +kernel

/-- R322: a swap without a valid staged half is refused with SWAP_REFUSED, event 4. -/
theorem test_swap : (after .swap hub).bitI PG.EVT_RAW 0x60 4 = true := by decide +kernel

/-- R378: the queue takes the staged move, and QDEPTH shows it. -/
theorem test_push : (after (.push 15) (axs 3)).rdI AXS.STAT_QDEPTH 15 = 1 := by decide +kernel


/-- States and operands that meet the hypotheses of StepRunsFrontCommand, clause by clause. -/
theorem witness_StepRunsFrontCommand :
    (wit1.pending = [Instr.stage, Instr.swap]) := by
  and_intros <;> decide +kernel

/-- States and operands that meet the hypotheses of IdleStepIsOneMeridianCycle, clause by clause. -/
theorem witness_IdleStepIsOneMeridianCycle :
    (hub.pending = []) := by
  and_intros <;> decide +kernel

/-- States and operands that meet the hypotheses of PowerOnResetAssertsAndReleases, clause by clause. -/
theorem witness_PowerOnResetAssertsAndReleases :
    (wit2.por = true ∧ 3 < 4 ∧ 1 < 2 ∧ 1 < 2 ∧ 1 < 2 ∧ 3 < 4) ∧
    (WriteReaches hub 0 80) := by
  unfold WriteReaches; and_intros <;> decide +kernel

/-- States and operands that meet the hypotheses of DormantStateIsEnteredAndLeft, clause by clause. -/
theorem witness_DormantStateIsEnteredAndLeft :
    (WriteReaches wit3 1 68 ∧ wit3.isCell = false ∧ wit3.on SAF.STAT_SPB = true) ∧
    (WriteReaches hub 1 68 ∧ 209 ≠ 208) ∧
    (wit4.pwr.dormant = some 5 ∧ wit4.pwr.wakeLatched = none) ∧
    (wit5.pwr.dormant.isSome = true ∧ wit5.por = false ∧ wit5.pwr.pwren = false ∧ wit5.on PWR.WAKE_WAKE_EN = true ∧ (if wit5.on PWR.WAKE_WAKE_POL = true then 0 ≠ 0 ∧ 1 = 0 else 0 = 0 ∧ 1 ≠ 0)) ∧
    (wit6.pwr.dormant.isSome = true ∧ wit6.por = false ∧ wit6.pwr.pwren = false ∧ wit6.on PWR.WAKE_CMP_EN = true ∧ wit6.wakeCross 0 4000 = true) := by
  unfold WriteReaches; and_intros <;> decide +kernel

/-- States and operands that meet the hypotheses of ArbiterGrantsAndReleasesIslands, clause by clause. -/
theorem witness_ArbiterGrantsAndReleasesIslands :
    (wit7.awake = true ∧ wit7.arbiterRuns = true ∧ (∀ (j : ℕ), Instr.islandRelease j ∉ wit7.pending) ∧ wit7.arbiterChoice = some 33) ∧
    (wit8.awake = true ∧ wit8.isl 33 = 3 ∧ wit8.pwr.islands[33]? = some (Island.mk 50 0 0 false) ∧ 50 ≤ (Island.mk 50 0 0 false).waited) ∧
    (hub.awake = true ∧ hub.isl 6 = 2 ∧ hub.keeps 6 = false ∧ Instr.islandRelease 6 ∉ hub.served) ∧
    (hub.awake = true ∧ WriteReaches hub 1 76 ∧ hub.onI PG.LOCKED 1 = false) ∧
    (wit9.awake = true ∧ WriteReaches wit9 1 76 ∧ wit9.onI PG.LOCKED 1 = true) ∧
    (wit10.awake = true ∧ wit10.pwr.held = [Held.mk 96 68 0 false 0] ∧ (Held.mk 96 68 0 false 0).write = false ∧ (Held.mk 96 68 0 false 0).src = 0 ∧ wit10.busVerdict (Held.mk 96 68 0 false 0).page (Held.mk 96 68 0 false 0).ofs false = BusVerdict.perform) := by
  unfold WriteReaches; and_intros <;> first | decide +kernel | (intros; exact List.not_mem_nil) | (intro _ h; exact absurd h List.not_mem_nil) | exact no_some (by decide +kernel)

/-- States and operands that meet the hypotheses of EventRegistersClearAndForce, clause by clause. -/
theorem witness_EventRegistersClearAndForce :
    (WriteReaches wit11 96 24 ∧ 255 < 2 ^ eventsOf 96) ∧
    (WriteReaches wit12 96 16 ∧ 255 < 2 ^ eventsOf 96) ∧
    (WriteReaches wit13 96 28 ∧ 7 < eventsOf 96) := by
  unfold WriteReaches; and_intros <;> decide +kernel

/-- States and operands that meet the hypotheses of PageHeaderLocksResetsAndFreezes, clause by clause. -/
theorem witness_PageHeaderLocksResetsAndFreezes :
    (WriteReaches hub 72 32) ∧
    (WriteReaches wit14 72 32 ∧ 72 ≠ 152 ∧ 72 ≠ 153) ∧
    (WriteReaches hub 72 8 ∧ hub.onI PG.LOCKED 72 = false) ∧
    (WriteReaches wit14 72 8 ∧ wit14.onI PG.LOCKED 72 = true) ∧
    (wit15.awake = true ∧ wit15.pwr.resetting.contains 72 = true) ∧
    (WriteReaches hub 72 8) := by
  unfold WriteReaches; and_intros <;> decide +kernel

/-- States and operands that meet the hypotheses of RegisterAccessesReadAndWrite, clause by clause. -/
theorem witness_RegisterAccessesReadAndWrite :
    (hub.served = [] ∧ WriteReaches hub 96 20 ∧ 255 < 2 ^ eventsOf 96) ∧
    (hub.served = [] ∧ hub.awake = true ∧ 8 ≠ 4) ∧
    (hub.served = [] ∧ hub.awake = true ∧ hub.isHub = true ∧ 1020 < 1024 ∧ 1020 % 4 = 0) ∧
    (wit16.served = [] ∧ wit16.awake = true ∧ wit16.busVerdict 96 36 false = BusVerdict.perform) := by
  unfold WriteReaches; and_intros <;> decide +kernel

/-- States and operands that meet the hypotheses of SerialPortsAccessRegistersAndFlash, clause by clause. -/
theorem witness_SerialPortsAccessRegistersAndFlash :
    (hub.awake = true ∧ hub.isHub = true ∧ 96 < 256 ∧ WriteReaches hub 96 20 ∧ 255 < 2 ^ eventsOf 96) ∧
    (wit17.awake = true ∧ wit17.isHub = true ∧ 96 < 256 ∧ WriteReaches wit17 96 20 ∧ 255 < 2 ^ eventsOf 96 ∧ wit17.pending = [Instr.registerWrite 0 96 20 3 4]) ∧
    (hub.awake = true ∧ hub.isHub = true ∧ 178 < 256 ∧ hub.busVerdict 178 20 false = BusVerdict.perform) ∧
    (hub.awake = true ∧ hub.isHub = true ∧ 393282 % 4 ≠ 0) ∧
    (hub.awake = true ∧ hub.isHub = true) ∧
    (hub.awake = true ∧ hub.isHub = true ∧ WriteReaches hub 176 80 ∧ hub.rd SYS.BOOT_STATE = 4 ∧ hub.hif.flash = false) ∧
    (wit18.awake = true ∧ wit18.isHub = true ∧ wit18.hif.flash = true) := by
  unfold WriteReaches; and_intros <;> decide +kernel

/-- States and operands that meet the hypotheses of PinsSensorsAndSelfTestsReport, clause by clause. -/
theorem witness_PinsSensorsAndSelfTestsReport :
    (hub.awake = true ∧ hub.isHub = true) ∧
    (wit19.awake = true ∧ wit19.isHub = true ∧ -2048 ≤ 400 ∧ 400 < 2048 ∧ wit19.rdS AUX.TEMP_T 0 < 4 * wit19.rdS AUX.TEMP_HIGH 0 ∧ 4 * wit19.rdS AUX.TEMP_HIGH 0 ≤ 400) ∧
    (hub.awake = true ∧ hub.isHub = true ∧ 0 < 1) ∧
    (hub.awake = true ∧ hub.isHub = true ∧ hub.sramWord 5242880 = true) ∧
    (hub.awake = true ∧ hub.isHub = true ∧ 0 < 65535 ∧ 65535 < 2 ^ 16) := by
  and_intros <;> decide +kernel

/-- States and operands that meet the hypotheses of HostWritesReachTheSram, clause by clause. -/
theorem witness_HostWritesReachTheSram :
    (hub.awake = true ∧ hub.isHub = true ∧ 5242880 ≤ 16777214 ∧ 16777214 + [1, 2].length ≤ 16777216) ∧
    (wit20.awake = true ∧ wit20.isHub = true ∧ wit20.activePart 0 = true ∧ [1].length = 1) ∧
    (hub.awake = true ∧ hub.isHub = true ∧ 5242880 ≤ 16777214 ∧ 16777214 + [1, 2].length ≤ 16777216 ∧ 0 < 1) ∧
    (16777216 < 16777216 + [1].length) := by
  and_intros <;> decide +kernel

/-- States and operands that meet the hypotheses of HostRingsAdvanceAndResume, clause by clause. -/
theorem witness_HostRingsAdvanceAndResume :
    (15 < 16 ∧ WriteReaches wit21 176 (260 + 16 * 15) ∧ wit21.rdA HIF.HST_USE 0 15 < 4 ∧ wit21.hif.piWaits = [] ∧ 512 < 65536 ∧ (512 + 65536 - wit21.rdA HIF.HST_PI 0 15) % 65536 ≤ 512 ∧ (512 + 65536 - wit21.rdA HIF.HST_CI 0 15) % 65536 ≤ 512) ∧
    (15 < 16 ∧ WriteReaches wit22 176 (260 + 16 * 15) ∧ (wit22.rdA HIF.HST_USE 0 15 = 4 ∨ wit22.rdA HIF.HST_USE 0 15 = 5)) ∧
    (15 < 16 ∧ wit23.awake = true ∧ wit23.hif.waits[15]? = some [List.replicate 64 7] ∧ wit23.hstCount 15 < 512) := by
  unfold WriteReaches; and_intros <;> decide +kernel

/-- States and operands that meet the hypotheses of DmaEnginesTakeCommandsAndComplete, clause by clause. -/
theorem witness_DmaEnginesTakeCommandsAndComplete :
    (wit24.awake = true ∧ 1 < 2 ∧ 15 < 16 ∧ wit24.hif.dma.length = 2 ∧ wit24.dmaNext 1 = some (15, dmaEntry 1 2 0 16777214) ∧ leAt (dmaEntry 1 2 0 16777214) 0 1 = 1 ∧ wit24.dmaCheck (dmaEntry 1 2 0 16777214) [5, 6] = 0 ∧ 5242880 ≤ leAt (dmaEntry 1 2 0 16777214) 16 4 ∧ [5, 6].length = leAt (dmaEntry 1 2 0 16777214) 4 4) ∧
    (wit25.awake = true ∧ 1 < 2 ∧ 15 < 16 ∧ wit25.hif.dma.length = 2 ∧ wit25.dmaNext 1 = some (15, dmaEntry 2 4 4096 5242880) ∧ leAt (dmaEntry 2 4 4096 5242880) 0 1 = 2 ∧ wit25.dmaCheck (dmaEntry 2 4 4096 5242880) [] = 0) ∧
    (wit26.awake = true ∧ 1 < 2 ∧ 15 < 16 ∧ wit26.hif.dma.length = 2 ∧ wit26.dmaNext 1 = some (15, dmaEntry 3 0 0 0) ∧ leAt (dmaEntry 3 0 0 0) 0 1 = 3) ∧
    (wit27.awake = true ∧ 1 < 2 ∧ 15 < 16 ∧ wit27.hif.dma.length = 2 ∧ wit27.hif.dma[1]? = some (some (DmaRun.mk (dmaEntry 3 0 0 0) 4 0))) := by
  and_intros <;> decide +kernel

/-- States and operands that meet the hypotheses of PcieEndpointFollowsItsLink, clause by clause. -/
theorem witness_PcieEndpointFollowsItsLink :
    (hub.awake = true ∧ hub.isHub = true ∧ 3 < 4 ∧ 7 < 8) ∧
    (hub.awake = true ∧ hub.isHub = true) := by
  and_intros <;> decide +kernel

/-- States and operands that meet the hypotheses of HubBootTriesItsSources, clause by clause. -/
theorem witness_HubBootTriesItsSources :
    (wit28.awake = true ∧ wit28.isHub = true ∧ wit28.arbiterRuns = true ∧ wit28.rd SYS.BOOT_STATE = 0 ∧ wit28.rd SYS.STRAP_BOOTSRC = 1) ∧
    (wit29.awake = true ∧ wit29.isHub = true ∧ wit29.arbiterRuns = true ∧ wit29.rd SYS.BOOT_STATE = 0 ∧ wit29.rd SYS.STRAP_BOOTSRC = 0 ∧ wit29.on SEC.STAT_ID_OK = false) ∧
    (wit29.awake = true ∧ wit29.isHub = true ∧ wit29.arbiterRuns = true ∧ wit29.rd SYS.BOOT_STATE = 0 ∧ wit29.rd SYS.STRAP_BOOTSRC = 0) ∧
    (wit30.awake = true ∧ wit30.isHub = true ∧ wit30.arbiterRuns = true ∧ wit30.rd SYS.BOOT_STATE = 2 ∧ wit30.rd SYS.BOOT_SRC = 2 ∧ wit30.rd SYS.BOOT_RES_HOST = 0 ∧ wit30.rd HIF.BOOT_LEN < 256) ∧
    (wit31.awake = true ∧ wit31.isHub = true ∧ wit31.arbiterRuns = true ∧ wit31.rd SYS.BOOT_STATE = 3) ∧
    (wit32.awake = true ∧ wit32.isHub = true ∧ wit32.arbiterRuns = true ∧ wit32.rd SYS.BOOT_STATE ≠ 3 ∧ wit32.bootOver = true) ∧
    (wit33.awake = true ∧ wit33.isHub = true ∧ wit33.arbiterRuns = true ∧ WriteReaches wit33 176 68 ∧ wit33.rd SYS.BOOT_STATE = 6) ∧
    (wit34.awake = true ∧ wit34.isHub = true ∧ wit34.arbiterRuns = true ∧ WriteReaches wit34 176 68 ∧ wit34.rd SYS.BOOT_STATE ≠ 6) := by
  unfold WriteReaches; and_intros <;> decide +kernel

/-- States and operands that meet the hypotheses of CellLifeFollowsBootAndTimers, clause by clause. -/
theorem witness_CellLifeFollowsBootAndTimers :
    (wit35.awake = true ∧ wit35.isCell = true ∧ wit35.life = 0) ∧
    (wit35.awake = true ∧ wit35.isCell = true ∧ wit35.life = 0 ∧ 24 ≤ 24 ∧ 24 ≤ 64) ∧
    (wit36.awake = true ∧ wit36.isCell = true ∧ (List.find? (fun p => leAt p.data 0 1 == 16) wit36.pens = some (pen0 16 [0, 0, 0, 9])) ∧ (pen0 16 [0, 0, 0, 9]).tcrcOk = true ∧ (wit36.life = 1 ∨ wit36.life = 2)) ∧
    (wit37.awake = true ∧ wit37.isCell = true ∧ (List.find? (fun p => leAt p.data 0 1 == 17) wit37.pens = some (pen0 17 [0, 0, 0, 2, 0, 0, 0, 60])) ∧ (wit37.life = 1 ∨ wit37.life = 2)) ∧
    (wit38.awake = true ∧ wit38.isCell = true ∧ wit38.life = 3 ∧ List.length wit38.cellImage < 256) ∧
    (imaged.awake = true ∧ imaged.isCell = true ∧ imaged.life = 3 ∧ 256 ≤ List.length imaged.cellImage) ∧
    (wit39.awake = true ∧ wit39.isCell = true ∧ wit39.life = 5 ∧ wit39.cellKeyed = true ∧ WriteReaches wit39 90 108) ∧
    (wit40.awake = true ∧ wit40.isCell = true ∧ wit40.life ∈ [0, 1, 2, 3, 5]) ∧
    (wit41.awake = true ∧ wit41.isCell = true ∧ wit41.cell.orphanAt = some 3 ∧ wit41.life = 4 ∧ (∀ (side at_ : ℕ) (data : Bytes), Instr.hoistPass side at_ data ∉ wit41.pending)) ∧
    (wit42.awake = true ∧ wit42.isCell = true ∧ wit42.cell.bypassAt = some 3 ∧ wit42.on CEL.HB_BPT_EN = true ∧ wit42.cell.pulses * (50 * us) < wit42.rd CEL.HB_BPT_HOLD * ms) := by
  unfold WriteReaches; and_intros <;> first | decide +kernel | (intros; exact List.not_mem_nil) | (intro _ h; exact absurd h List.not_mem_nil) | exact no_some (by decide +kernel)

/-- States and operands that meet the hypotheses of CellProtectionReacts, clause by clause. -/
theorem witness_CellProtectionReacts :
    (cell.awake = true ∧ cell.isCell = true ∧ cell.rd CEL.OV1_THR < cell.rd CEL.OV1_THR + 1 ∧ cell.on CEL.STAT_OV1 = false) ∧
    (wit43.awake = true ∧ wit43.isCell = true ∧ 0 + wit43.rd CEL.OV1_HYST * 4096 < wit43.rd CEL.OV1_THR) ∧
    (cell.awake = true ∧ cell.isCell = true ∧ cell.rd CEL.OV2_THR < cell.rd CEL.OV2_THR + 1) ∧
    (cell.awake = true ∧ cell.isCell = true ∧ cell.rd CEL.OV2_THR ≤ cell.rd CEL.OV2_THR) ∧
    (wit44.awake = true ∧ wit44.isCell = true ∧ wit44.on CEL.STAT_OV2 = false ∧ wit44.rd CEL.OV2_N ≤ wit44.cell.ov2Run ∧ wit44.life < 6) ∧
    (cell.awake = true ∧ cell.isCell = true ∧ -128 ≤ 127 ∧ 127 < 128 ∧ cell.rdS CEL.TEMP_OT_WARN 0 ≤ 127 ∧ cell.on CEL.STAT_OT_WARN = false) ∧
    (cell.awake = true ∧ cell.isCell = true ∧ -128 ≤ 127 ∧ 127 < 128 ∧ cell.rdS CEL.TEMP_OT_TRIP 0 ≤ 127 ∧ cell.on CEL.STAT_OT_TRIP = false) ∧
    (wit45.awake = true ∧ wit45.isCell = true ∧ -128 ≤ -128 ∧ -128 < 128 ∧ -128 ≤ wit45.rdS CEL.TEMP_OT_TRIP 0 - 10) := by
  and_intros <;> decide +kernel

/-- States and operands that meet the hypotheses of CellFollowsHoistsAndBoundaries, clause by clause. -/
theorem witness_CellFollowsHoistsAndBoundaries :
    (passed.awake = true ∧ passed.isCell = true ∧ 1 < 2 ∧ passed.life ≠ 0 ∧ passed.life ≠ 7 ∧ headOk (passed.legacySide 1) (keyNamed passed.cell.key passed.cell.keyIdx passed.cell.nextKey passed.cell.nextIdx) passed.mer.seq (List.replicate 48 0) = none ∧ passed.onI BNT.PORT_STAT_UNRELEASED 1 = false) ∧
    (passed.awake = true ∧ passed.isCell = true ∧ 1 < 2 ∧ passed.life ≠ 0 ∧ passed.life ≠ 7 ∧ headOk (passed.legacySide 1) (keyNamed passed.cell.key passed.cell.keyIdx passed.cell.nextKey passed.cell.nextIdx) passed.mer.seq (legHead 0 0 2 0 ++ List.replicate 36 0) = some (Head.mk 0 0 0 0 2 0 0 0) ∧ (Head.mk 0 0 0 0 2 0 0 0).dir = 1 ∧ passed.onI BNT.PORT_STAT_UNRELEASED 1 = false ∧ (Head.mk 0 0 0 0 2 0 0 0).enum = false) ∧
    (flagged.awake = true ∧ flagged.isCell = true ∧ flagged.cell.dual = false ∧ flagged.takeSplit.chooseSingle flagged.flagSeq = some (flg, false)) ∧
    (cell.awake = true ∧ cell.isCell = true) := by
  and_intros <;> decide +kernel

/-- States and operands that meet the hypotheses of HubStrideRunsItsStages, clause by clause. -/
theorem witness_HubStrideRunsItsStages :
    (hub.awake = true ∧ hub.isHub = true) ∧
    (wit46.awake = true ∧ wit46.isHub = true ∧ wit46.mer.stepDelta = some 5) ∧
    (wit47.awake = true ∧ wit47.isHub = true ∧ 11 < 12 ∧ wit47.groups.length = 12 ∧ wit47.on CTR.STAT_ACTIVE = true ∧ wit47.ctr.sortStarted = false) ∧
    (wit48.awake = true ∧ wit48.isHub = true ∧ wit48.on CTR.STAT_ACTIVE = true ∧ wit48.ctr.sortStarted = true ∧ wit48.ctr.sorted = false) ∧
    (wit49.awake = true ∧ wit49.isHub = true ∧ wit49.on CTR.STAT_ACTIVE = true ∧ wit49.ctr.sorted = true ∧ wit49.ctr.edgeStarted = false) ∧
    (wit50.awake = true ∧ wit50.isHub = true ∧ wit50.ctr.edgeStarted = true ∧ wit50.ctr.edgeDone = false) ∧
    (hub.awake = true ∧ hub.isHub = true ∧ hub.ctr.built = false ∧ (hub.ctr.edgeDone = true ∨ hub.ctr.sortStarted = false)) := by
  and_intros <;> decide +kernel

/-- States and operands that meet the hypotheses of ContourIsEnabledWithinItsBudget, clause by clause. -/
theorem witness_ContourIsEnabledWithinItsBudget :
    (WriteReaches wit51 72 8 ∧ wit51.onI PG.ENABLE 72 = false ∧ budgetOk wit51.nTotal wit51.stride10 wit51.ctr.dl = false) ∧
    (WriteReaches wit52 72 8 ∧ wit52.onI PG.ENABLE 72 = false ∧ budgetOk wit52.nTotal wit52.stride10 wit52.ctr.dl = true ∧ (wit52.wrI PG.ENABLE 72 1).granted ≤ wit52.rd PWR.BUDGET) ∧
    (WriteReaches wit53 72 8) ∧
    (11 < 12 ∧ WriteReaches wit54 (73 + 11) 8 ∧ wit54.onI PG.ENABLE (73 + 11) = false ∧ wit54.groupOverlap 11 = false ∧ 1 ≤ wit54.rdI CTG.CELLS_COUNT 11 ∧ wit54.rdI CTG.CELLS_COUNT 11 ≤ 1024 ∧ budgetOk (wit54.nTotal + wit54.rdI CTG.CELLS_COUNT 11) wit54.stride10 wit54.ctr.dl = true) ∧
    (11 < 12 ∧ WriteReaches wit55 (73 + 11) 8 ∧ wit55.onI PG.ENABLE (73 + 11) = false ∧ wit55.groupOverlap 11 = true) ∧
    (11 < 12 ∧ WriteReaches hub (73 + 11) 8 ∧ hub.onI PG.ENABLE (73 + 11) = false ∧ hub.groupInvalid 11 = true) ∧
    (0 < 12 ∧ WriteReaches wit56 (73 + 0) 8 ∧ wit56.onI PG.ENABLE (73 + 0) = false ∧ wit56.groupOverlap 0 = false ∧ wit56.groupInvalid 0 = false ∧ budgetOk (wit56.nTotal + wit56.rdI CTG.CELLS_COUNT 0) wit56.stride10 wit56.ctr.dl = false) ∧
    (11 < 12 ∧ WriteReaches hub (73 + 11) 8) ∧
    (WriteReaches hub 72 64) := by
  unfold WriteReaches; and_intros <;> decide +kernel

/-- States and operands that meet the hypotheses of HoistsReturnOrExpire, clause by clause. -/
theorem witness_HoistsReturnOrExpire :
    (wit57.awake = true ∧ wit57.isHub = true ∧ wit57.portRing 1 = some (0, 1) ∧ wit57.ringSt 0 ≠ 0 ∧ wit57.ringSt 0 ≠ 7 ∧ headOk (wit57.legacyRing 0) (wit57.ring 0).keyOf wit57.mer.seq (List.replicate 48 0) = none) ∧
    (wit57.awake = true ∧ wit57.isHub = true ∧ wit57.portRing 1 = some (0, 1) ∧ wit57.ringSt 0 ≠ 0 ∧ wit57.ringSt 0 ≠ 7 ∧ headOk (wit57.legacyRing 0) (wit57.ring 0).keyOf wit57.mer.seq (legHead 0 0 0 1 ++ List.replicate 68 0) = some (Head.mk 0 0 0 0 0 0 0 1) ∧ (Head.mk 0 0 0 0 0 0 0 1).enum = false) ∧
    (paired2.awake = true ∧ paired2.isHub = true ∧ paired2.portRing 1 = some (0, 1) ∧ paired2.paired = true ∧ paired2.topo 0 = 2 ∧ paired2.clr = 3 ∧ sameCycle cyc400 (10 ^ 9) paired2.mer.lastS = false) ∧
    (hub.awake = true ∧ hub.isHub = true) ∧
    (wit58.awake = true ∧ wit58.isHub = true ∧ wit58.ctr.cut = false) ∧
    (wit58.awake = true ∧ wit58.isHub = true ∧ wit58.ctr.cut = false ∧ wit58.paired = true) ∧
    (wit59.awake = true ∧ wit59.isHub = true ∧ 0 < 48 ∧ wit59.ctr.cut = false ∧ (∀ q < 48, wit59.launches q = true → q = 0) ∧ wit59.launches 0 = true ∧ wit59.inService 0 = true ∧ wit59.ringN 0 = 1 ∧ bitOf 0 0 = false ∧ wit59.ringRetrains 0 = false ∧ (wit59.cellAux (wit59.entryOf 0 1)).fresh = false ∧ (wit59.cellAux (wit59.entryOf 0 1)).silent = false ∧ max 1 (wit59.rd BNC.CTL_SILENT_N) ≤ (wit59.cellAux (wit59.entryOf 0 1)).silentCnt + 1) := by
  and_intros <;> first | decide +kernel | (intros; exact List.not_mem_nil) | (intro _ h; exact absurd h List.not_mem_nil) | exact no_some (by decide +kernel)

/-- States and operands that meet the hypotheses of PortsRetrainAndRecover, clause by clause. -/
theorem witness_PortsRetrainAndRecover :
    (hub.awake = true ∧ hub.trains = true ∧ 47 < 48) ∧
    (hub.awake = true ∧ hub.trains = true ∧ 1 < 2) ∧
    (wit60.awake = true ∧ wit60.trains = true ∧ 47 < 48 ∧ wit60.onI BNT.PORT_STAT_RETRAINING 47 = true) ∧
    (wit61.awake = true ∧ wit61.trains = true ∧ 47 < 48 ∧ wit61.onI BNT.PORT_STAT_RETRAINING 47 = true ∧ wit61.onI BNT.PORT_STAT_HOP_DOWN 47 = false ∧ wit61.rdI BNT.RETRAIN_BUDGET 47 ≤ wit61.rdI BNT.PORT_STAT_RETRAIN_CNT 47) := by
  and_intros <;> decide +kernel

/-- States and operands that meet the hypotheses of RingsComeUpAndGoDown, clause by clause. -/
theorem witness_RingsComeUpAndGoDown :
    (0 < 48 ∧ WriteReaches wit62 64 (256 + 16 * 0) ∧ wit62.topo 0 ≠ 0 ∧ (List.find? (fun e => !wit62.useAgrees 0 e.2) (wit62.ends 0) = some (0, 0))) ∧
    (0 < 48 ∧ WriteReaches upRing 64 (256 + 16 * 0) ∧ upRing.topo 0 ≠ 0 ∧ (((upRing.ends 0).all fun e => upRing.useAgrees 0 e.2) = true) ∧ (((upRing.ends 0).all fun e => upRing.onI BNT.PORT_CTL_EN e.2) = true) ∧ upRing.sharesPort 0 = false ∧ upRing.westHere 0 = true) ∧
    (0 < 48 ∧ WriteReaches wit63 64 (256 + 16 * 0)) ∧
    (wit64.awake = true ∧ (wit64.ring 0).splitDue = true ∧ wit64.portRing (wit64.homePort 0) = some (0, 0) ∧ (wit64.port (wit64.homePort 0)).entries.length < 128 ∧ (wit64.port (wit64.homePort 0)).held = []) ∧
    (WriteReaches hub 64 120) ∧
    (WriteReaches wit65 64 120 ∧ wit65.on BNC.BOOT_CTL_ACTIVE = true) ∧
    (wit66.awake = true ∧ wit66.isBranch = true ∧ sumNat (hopDelays (List.map hopTwice [HopMarks.mk 0 0 0 0, HopMarks.mk 9 1 9 1]) 0) + 28 * ns = sumNat (hopDelays (List.map hopTwice [HopMarks.mk 0 0 0 0, HopMarks.mk 9 1 9 1]) 0) + ([HopMarks.mk 0 0 0 0, HopMarks.mk 9 1 9 1].length - 1) * 28 * ns) ∧
    (wit67.awake = true ∧ wit67.isHub = true ∧ wit67.isBranch = false) ∧
    (wit68.awake = true ∧ wit68.isHub = true ∧ (wit68.isBranch = false ∨ wit68.upPort ≠ some 5) ∧ 5 ∈ wit68.downPorts ∧ wit68.trunk.service = true) ∧
    (wit69.awake = true ∧ wit69.isHub = true ∧ wit69.isBranch = true ∧ wit69.upPort = some 5) := by
  unfold WriteReaches; and_intros <;> decide +kernel

/-- States and operands that meet the hypotheses of PennantRequestsEndWithTheirTransactions, clause by clause. -/
theorem witness_PennantRequestsEndWithTheirTransactions :
    (wit63.awake = true ∧ wit63.isHub = true ∧ wit63.portRing 1 = some (0, 1) ∧ wit63.penTooLong 0 (PenReq.mk 49 0 [1, 2, 0, 6]) = false ∧ (wit63.port 1).entries.length < 128 ∧ (wit63.port 1).held = []) ∧
    (fullRing.awake = true ∧ fullRing.isHub = true ∧ fullRing.portRing 1 = some (0, 1) ∧ fullRing.penTooLong 0 (PenReq.mk 2 1 [1, 2, 0, 12]) = false ∧ 128 ≤ (fullRing.port 1).entries.length) ∧
    (wit70.awake = true ∧ wit70.isHub = true ∧ (List.find? (fun p => p.isType 3) wit70.pens = some (pen0 3 [0, 1, 0, 0, 0, 0, 1])) ∧ wit70.portRing (pen0 3 [0, 1, 0, 0, 0, 0, 1]).port = some (0, 0) ∧ wit70.topo 0 ≠ 2 ∧ (List.find? (fun x => x.ring == 0 && x.target == leAt (pen0 3 [0, 1, 0, 0, 0, 0, 1]).data 2 2 && x.txn == leAt (pen0 3 [0, 1, 0, 0, 0, 0, 1]).data 1 1 % 8) wit70.txns = some txn1) ∧ (wit70.port txn1.port).entries.length < 128 ∧ (wit70.port txn1.port).held = []) ∧
    (wit71.awake = true ∧ wit71.isHub = true ∧ (List.find? (fun x => x.ring == 0 && x.target == 1 && x.txn == 0) wit71.txns = some txn1) ∧ wit71.rspHeld txn1 = false ∧ wit71.rd BNC.CTL_PEN_TMO ≤ (wit71.mer.seq + 2 ^ 32 - txn1.seq) % 2 ^ 32 ∧ (wit71.port txn1.port).entries.length < 128 ∧ (wit71.port txn1.port).held = []) := by
  and_intros <;> decide +kernel

/-- States and operands that meet the hypotheses of PennantsHaveTheirEffect, clause by clause. -/
theorem witness_PennantsHaveTheirEffect :
    (wit72.awake = true ∧ (List.find? (fun p => p.isType 0) wit72.pens = some (pen0 0 []))) ∧
    (wit73.awake = true ∧ (List.find? (fun p => p.isType 48) wit73.pens = some (pen0 48 [0, 0, 0, 0, 0, 0, 0, 255, 255, 255, 255])) ∧ leAt (pen0 48 [0, 0, 0, 0, 0, 0, 0, 255, 255, 255, 255]).data 6 1 = 0 ∧ leAt (pen0 48 [0, 0, 0, 0, 0, 0, 0, 255, 255, 255, 255]).data 4 2 ≤ wit73.rd BNC.CELL_INDEX) ∧
    (wit74.awake = true ∧ (List.find? (fun p => p.isType 49) wit74.pens = some (pen0 49 [0, 0, 0, 1, 0])) ∧ wit74.rd BNC.CELL_INDEX + 1 = leAt (pen0 49 [0, 0, 0, 1, 0]).data 4 2) ∧
    (wit75.awake = true ∧ (List.find? (fun p => p.isType 49) wit75.pens = some (pen0 49 [0, 0, 0, 0, 0])) ∧ wit75.rd BNC.CELL_INDEX = leAt (pen0 49 [0, 0, 0, 0, 0]).data 4 2) ∧
    (wit63.awake = true ∧ (List.find? (fun p => p.isType 49) wit63.pens = none) ∧ wit63.isHub = true ∧ ((List.map (fun x => x.2) (wit63.ends 0)).Nodup)) ∧
    (wit76.awake = true ∧ (List.find? (fun p => p.isType 50) wit76.pens = some (pen0 50 []))) ∧
    (wit63.awake = true ∧ (List.find? (fun p => p.isType 50) wit63.pens = none) ∧ wit63.isHub = true ∧ wit63.portRing (wit63.homePort 0) = some (0, 0) ∧ (wit63.port (wit63.homePort 0)).entries.length < 128 ∧ (wit63.port (wit63.homePort 0)).held = []) ∧
    (wit77.awake = true ∧ (List.find? (fun p => p.isType 56) wit77.pens = some (pen0 56 [0, 0, 0, 255, 0])) ∧ leAt (pen0 56 [0, 0, 0, 255, 0]).data 4 2 < 256) ∧
    (wit78.awake = true ∧ (List.find? (fun p => p.isType 64) wit78.pens = some (pen0 64 [])) ∧ (List.find? (fun o => o.seq == leAt (pen0 64 []).data 4 4) wit78.pair.owns = some rep0) ∧ rep0.inDig ≠ leAt (pen0 64 []).data 12 4) := by
  and_intros <;> decide +kernel

/-- States and operands that meet the hypotheses of KeyMessagesCarryTheRingKey, clause by clause. -/
theorem witness_KeyMessagesCarryTheRingKey :
    (wit79.awake = true ∧ (List.find? (fun p => p.isKey 1) wit79.pens = some (pen0 32 [0, 0, 0, 1, 1, 8, 0])) ∧ wit79.keyCell = true) ∧
    (wit80.awake = true ∧ (List.find? (fun p => p.isKey 1) wit80.pens = none) ∧ wit80.isHub = true ∧ (wit80.ring 0).eph ≠ [] ∧ wit80.ringSt 0 = 3 ∧ 0 < 48 ∧ wit80.portRing (wit80.homePort 0) = some (0, 0) ∧ (wit80.port (wit80.homePort 0)).held = [] ∧ (wit80.port (wit80.homePort 0)).entries.length ≤ 119) ∧
    (wit81.awake = true ∧ (List.find? (fun p => p.isKey 2) wit81.pens = some (pen0 32 [0, 1, 0, 2, 1, 4, 0]))) ∧
    (wit82.awake = true ∧ (List.find? (fun p => p.isKey 2) wit82.pens = none) ∧ wit82.isCell = true ∧ wit82.cell.credDue = some 1) ∧
    (wit83.awake = true ∧ (List.find? (fun p => p.isKey 3) wit83.pens = some (pen0 32 [0, 1, 0, 3, 1])) ∧ wit83.keyCell = true ∧ wit83.on SEC.STAT_DBG_OPEN = false ∧ leAt (pen0 32 [0, 1, 0, 3, 1]).data 5 1 ≠ wit83.cell.keyIdx) ∧
    (wit84.awake = true ∧ (List.find? (fun p => p.isKey 3) wit84.pens = none) ∧ wit84.isHub = true ∧ wit84.on SEC.STAT_DBG_OPEN = false ∧ 0 < 48 ∧ Sparse.get (wit84.ring 0).pairs 1 = some [7] ∧ 1 ∈ (wit84.ring 0).wrapDue ∧ wit84.portRing (wit84.homePort 0) = some (0, 0) ∧ (wit84.port (wit84.homePort 0)).held = [] ∧ (wit84.port (wit84.homePort 0)).entries.length < 128) ∧
    (wit85.awake = true ∧ (List.find? (fun p => p.isKey 4) wit85.pens = some (pen0 32 [0, 1, 0, 4, 0])) ∧ leAt (pen0 32 [0, 1, 0, 4, 0]).data 5 1 = 0) ∧
    (wit86.awake = true ∧ (List.find? (fun p => p.isKey 4) wit86.pens = some (pen0 32 [0, 1, 0, 4, 1])) ∧ leAt (pen0 32 [0, 1, 0, 4, 1]).data 5 1 = (wit86.ring 0).nextIdx ∧ (wit86.ring 0).nextIdx ≠ 0) ∧
    (wit87.awake = true ∧ (List.find? (fun p => p.isKey 4) wit87.pens = none) ∧ wit87.isCell = true ∧ wit87.cell.ackDue = some 1) := by
  and_intros <;> decide +kernel

/-- States and operands that meet the hypotheses of RingKeysAreRenewed, clause by clause. -/
theorem witness_RingKeysAreRenewed :
    (0 < 48 ∧ WriteReaches wit88 160 72 ∧ wit88.keyedByPeer 0 = false ∧ (wit88.ring 0).rekeying = false ∧ (wit88.ring 0).keyIdx ≠ 0 ∧ wit88.security.entropyBad = false) ∧
    (47 < 48 ∧ WriteReaches wit89 160 72 ∧ wit89.keyedByPeer 47 = false ∧ (wit89.ring 47).rekeying = true) ∧
    (wit90.awake = true ∧ wit90.keyedByPeer 47 = false ∧ (wit90.ring 47).keyIdx ≠ 0 ∧ (wit90.ring 47).rekeying = false ∧ 2 ^ wit90.rd SEC.RING_REKEY_LOG ≤ (wit90.ring 47).served ∧ wit90.security.entropyBad = false) ∧
    (wit91.awake = true ∧ (wit91.ring 47).keyIdx ≠ 0 ∧ 2 ^ 31 ≤ (wit91.ring 47).served ∧ ((wit91.ring 47).rekeying = true ∨ wit91.keyedByPeer 47 = false)) ∧
    (8191 < 8192 ∧ WriteReaches hub 160 76 ∧ (hub.atCutoff = false ∨ (hub.cellAux 8191).utagLast = false)) ∧
    (wit92.awake = true ∧ wit92.security.ops = [(SecOp.hubStart 0, 3), (SecOp.cellCred 1, 4)]) ∧
    (wit93.awake = true ∧ wit93.security.ops = [(SecOp.hubStart 47, 3)] ∧ wit93.on SEC.STAT_DBG_OPEN = false ∧ wit93.security.entropyBad = false) := by
  unfold WriteReaches; and_intros <;> decide +kernel

/-- States and operands that meet the hypotheses of EthernetPortsReceiveAndSend, clause by clause. -/
theorem witness_EthernetPortsReceiveAndSend :
    (wit94.awake = true ∧ wit94.isHub = true ∧ 3 < 4 ∧ wit94.onI PG.ENABLE (168 + 3) = true ∧ wit94.pageActive (168 + 3) = true) ∧
    (wit94.awake = true ∧ wit94.isHub = true ∧ 3 < 4 ∧ wit94.onI PG.ENABLE (168 + 3) = true ∧ wit94.pageActive (168 + 3) = true ∧ (List.replicate 1518 0).length ≤ 1518 ∧ (wit94.advanceTo (10 ^ 9)).etherTake 3 (wit94.rxStamp 3 (10 ^ 9)) (EthFrame.raw (List.replicate 1518 0)) = none) ∧
    (qd.awake = true ∧ qd.isHub = true ∧ 3 < 4 ∧ nextFrame qd.txq 3 = some (txf 3 1 [1]) ∧ (txf 3 1 [1]).resp = none) ∧
    (qr.awake = true ∧ qr.isHub = true ∧ 3 < 4 ∧ nextFrame qr.txq 3 = some rsp ∧ rsp.resp = some (PdResp.mk false 0 4 1000) ∧ (PdResp.mk false 0 4 1000).twoStep = false ∧ (qr.advanceUp (qr.txBusy.getD 3 0)).txStamp 3 = (qr.advanceUp (qr.txBusy.getD 3 0)).txStamp 3) ∧
    (wit94.awake = true ∧ wit94.isHub = true ∧ 3 < 4) := by
  and_intros <;> decide +kernel

/-- States and operands that meet the hypotheses of EdgeSchedulerActs, clause by clause. -/
theorem witness_EdgeSchedulerActs :
    (cell.isCell = true ∧ cell.awake = true ∧ 24 ≤ 24 ∧ 24 ≤ 64) ∧
    (cell.isCell = true ∧ cell.awake = true ∧ (65 < 24 ∨ 64 < 65)) ∧
    (wit95.isCell = true ∧ 3 < 4 ∧ wit95.awake = true ∧ wit95.tripLevel 3 true = true ∧ wit95.bit EDG.TRIP_STAT_IN 3 = false) ∧
    (wit96.isCell = true ∧ 3 < 4 ∧ wit96.awake = true ∧ wit96.tripLevel 3 false = false) ∧
    (wit97.isCell = true ∧ 3 < 4 ∧ WriteReaches wit97 88 100 ∧ wit97.tripOn 3 = false ∧ wit97.tripSoon 3 wit97.mer.mer = false) ∧
    (wit98.isCell = true ∧ 3 < 4 ∧ WriteReaches wit98 88 100 ∧ (wit98.tripOn 3 = true ∨ wit98.tripSoon 3 wit98.mer.mer = true)) ∧
    (cell.isCell = true ∧ WriteReaches cell 88 84 ∧ cell.legIdle 0 = true ∧ cell.legIdle 1 = true) ∧
    (cellOn.isCell = true ∧ WriteReaches cellOn 88 88 ∧ cellOn.legIdle 0 = false ∧ cellOn.legIdle 1 = false) ∧
    (wit99.isCell = true ∧ wit99.awake = true ∧ wit99.edge.lcAt = some 1000 ∧ (∀ (b : ℕ), wit99.lcCut = some b → 1000 < b)) ∧
    (wit100.isCell = true ∧ WriteReaches wit100 88 124 ∧ wit100.on EDG.LC_CTL_PAIRED = true ∧ (∀ (e : ℕ), wit100.edge.lcLast = some e → sameCycle cyc500 e wit100.mer.mer = false)) ∧
    (wit101.isCell = true ∧ WriteReaches wit101 88 124 ∧ wit101.on EDG.LC_CTL_PAIRED = true ∧ wit101.edge.lcLast = some 0 ∧ sameCycle cyc500 0 wit101.mer.mer = true) ∧
    (wit102.isCell = true ∧ 3 < 4 ∧ wit102.awake = true ∧ wit102.onA EDG.TEV_ARM 0 3 = true ∧ wit102.rdA EDG.TEV_PERIOD 0 3 = 0) ∧
    (wit103.isCell = true ∧ 3 < 4 ∧ wit103.awake = true ∧ wit103.onA EDG.TEV_ARM 0 3 = true ∧ wit103.rdA EDG.TEV_PERIOD 0 3 ≠ 0) ∧
    (wit104.isCell = true ∧ wit104.awake = true ∧ earliest wit104.edgeEvents = some (200, EdgeEvent.act 1) ∧ (wit104.chan 1).due = [ChanAct.mk false 100 200 false] ∧ (ChanAct.mk false 100 200 false).on = false) ∧
    (wit105.isCell = true ∧ wit105.awake = true ∧ earliest wit105.edgeEvents = some (10 ^ 9, EdgeEvent.act 1) ∧ (wit105.chan 1).due = [ChanAct.mk true (10 ^ 9) (10 ^ 9) false] ∧ (ChanAct.mk true (10 ^ 9) (10 ^ 9) false).on = true ∧ (wit105.chan 0).on = false ∧ (wit105.chan 0).von = false ∧ (wit105.chan 0).offAt = none ∧ wit105.bit EDG.TRIP_STAT_SUPP_PEND 1 = false ∧ wit105.tripOn 1 = false ∧ wit105.tripSoon 1 (ChanAct.mk true (10 ^ 9) (10 ^ 9) false).t = false ∧ wit105.gateFault = false ∧ wit105.bit EDG.TRIP_STAT_LATCH 1 = false ∧ wit105.bit GDR.CTL_CH_EN 1 = true ∧ wit105.on GDR.STAT_ENABLED = true) := by
  unfold WriteReaches; and_intros <;> first | decide +kernel | (intros; exact List.not_mem_nil) | (intro _ h; exact absurd h List.not_mem_nil) | exact no_some (by decide +kernel)

/-- States and operands that meet the hypotheses of GateDrivesRunTheirPhases, clause by clause. -/
theorem witness_GateDrivesRunTheirPhases :
    (wit106.awake = true ∧ wit106.isCell = true ∧ 3 < 4 ∧ 3 % 2 = 1 ∧ (wit106.chan 3).phase = 2 ∧ pastExit (wit106.chan 3) 5 = true) ∧
    (wit107.awake = true ∧ wit107.isCell = true ∧ 1 < 4 ∧ 1 % 2 = 1 ∧ (wit107.chan 1).phase = 2) ∧
    (cellOn.awake = true ∧ cellOn.isCell = true ∧ 0 < 2) ∧
    (cell.awake = true ∧ cell.isCell = true ∧ 1 < 2 ∧ 1 < cell.gate.badFrames.length) ∧
    (decked.awake = true ∧ decked.isCell = true ∧ 1 < 2 ∧ 1 < decked.gate.badFrames.length ∧ decked.deckSt 1 = 0 ∧ decked.deckLive 1 = true ∧ decked.trickle 1 = false) ∧
    (wit108.awake = true ∧ wit108.isCell = true ∧ 1 < 2 ∧ wit108.gate.pumpAt.getD 1 none = some 77 ∧ wit108.startRuns 1 = true ∧ wit108.deckLive 1 = true) ∧
    (decked.awake = true ∧ decked.isCell = true) ∧
    (wit109.awake = true ∧ wit109.isCell = true ∧ wit109.refillNext = some 1 ∧ wit109.refillFree = true ∧ wit109.edge.legs.length = 2) := by
  and_intros <;> decide +kernel

/-- States and operands that meet the hypotheses of GateFaultsHoldTheChannelsOff, clause by clause. -/
theorem witness_GateFaultsHoldTheChannelsOff :
    (decked.isCell = true ∧ 0 < 3 ∧ decked.awake = true ∧ decked.supplyBeyond 0 7999 = true ∧ decked.supplyIsLow 0 = false) ∧
    (wit110.isCell = true ∧ 0 < 3 ∧ wit110.awake = true ∧ wit110.supplyPast 0 13000 = true ∧ wit110.supplyIsLow 0 = true) ∧
    (decked.isCell = true ∧ WriteReaches decked 89 64 ∧ (bitOf 0 0 = false ∨ decked.supplyLow = false)) ∧
    (wit111.isCell = true ∧ WriteReaches wit111 89 64 ∧ bitOf 1 0 = true ∧ wit111.supplyLow = true) ∧
    (wit112.isCell = true ∧ 1 < 2 ∧ wit112.awake = true ∧ (wit112.chan (2 * 1 + 1)).on = true ∧ wit112.desatThr < 20000) ∧
    (decked.isCell = true ∧ decked.awake = true) ∧
    (wit113.isCell = true ∧ wit113.awake = true ∧ wit113.gate.genLow = some 0 ∧ 0 + 4 * us ≤ wit113.mer.uptime) ∧
    (wit114.isCell = true ∧ wit114.awake = true ∧ wit114.gate.genLow = some 0 ∧ wit114.mer.uptime < 0 + 4 * us) := by
  unfold WriteReaches; and_intros <;> decide +kernel

/-- States and operands that meet the hypotheses of SafetyIslandReachesSafe, clause by clause. -/
theorem witness_SafetyIslandReachesSafe :
    (hub.awake = true ∧ hub.rd SYS.STRAP_ROLE ≠ 3) ∧
    (wit115.awake = true ∧ wit115.isHub = true ∧ wit115.saf.supBad = false ∧ wit115.rd SAF.STAT_STATE ≠ 3) ∧
    (cell.awake = true ∧ cell.isCell = true ∧ cell.saf.supBad = false ∧ cell.life < 6) ∧
    (wit116.awake = true) ∧
    (degr.advanceUp (degr.saf.degrAt + degr.rd SAF.DEGR_T_DEGR * sec) = wit117 ∧ degr.awake = true ∧ degr.isHub = true ∧ degr.rd SAF.STAT_STATE = 2 ∧ degr.classD = true ∧ ((degr.pending.find? fun i => wit117.degrClears i || i matches .safetyCycle ..).any wit117.degrClears = false)) ∧
    (7 < 8 ∧ conn.advanceUp ((conn.semConn 7).okAt + conn.rdA SEM.CONN_WDOG 0 7 * ms) = wit118 ∧ conn.awake = true ∧ conn.consumes 7 = true ∧ conn.bit SEM.STAT_CONN_UP 7 = true ∧ (∀ i ∈ conn.pending, ∀ (v : State), wit118.safAhead i = some v → (v.semConn 7).okAt = (wit118.semConn 7).okAt)) ∧
    (7 < 8 ∧ 1 < 2 ∧ conn.awake = true ∧ conn.consumes 7 = true ∧ conn.bit SEM.STAT_CONN_UP 7 = true ∧ conn.bit (if 1 = 0 then SEM.STAT_NET0_LOST else SEM.STAT_NET2_LOST) 7 = false ∧ (conn.semConn 7).netAt.getD 1 0 ≤ (conn.semConn 7).netAt.getD (1 - 1) 0 ∧ conn.mer.uptime ≤ (conn.semConn 7).netAt.getD (1 - 1) 0 + conn.rdA SEM.CONN_WDOG 0 7 * ms) ∧
    (WriteReaches safeLk 152 64 ∧ safeLk.isHub = true ∧ safeLk.rd SAF.STAT_STATE = 3 ∧ ((safeLk.used 152).storeWord 152 64 (safeLk.rawWord 152 64 ||| 2)).classSStands = false) ∧
    (WriteReaches wit119 152 64 ∧ wit119.isHub = true ∧ wit119.rd SAF.STAT_STATE = 3 ∧ ((wit119.used 152).storeWord 152 64 (wit119.rawWord 152 64 ||| 2)).classSStands = true) ∧
    (WriteReaches wit120 152 64 ∧ wit120.isHub = true ∧ wit120.rd SAF.SPB_RST_SRC = 16) := by
  unfold WriteReaches; and_intros <;> first | decide +kernel | (intros; exact List.not_mem_nil) | (intro _ h; exact absurd h List.not_mem_nil) | exact no_some (by decide +kernel)

/-- States and operands that meet the hypotheses of AxisCommandsDriveTheQueue, clause by clause. -/
theorem witness_AxisCommandsDriveTheQueue :
    (15 < 16 ∧ wit121.axes.length = 16 ∧ WriteReaches wit121 (axisPage 15) 72 ∧ wit121.noMoves 15 = false ∧ wit121.rdI AXS.STAT_GEAR 15 = 0 ∧ (wit121.staged 15).mode ≠ 3 ∧ (wit121.axis 15).queue.length < 16 ∧ (wit121.axis 15).held = []) ∧
    (15 < 16 ∧ hub.axes.length = 16 ∧ WriteReaches hub (axisPage 15) 72 ∧ hub.noMoves 15 = true) ∧
    (15 < 16 ∧ wit122.axes.length = 16 ∧ WriteReaches wit122 (axisPage 15) 72 ∧ wit122.noMoves 15 = false ∧ wit122.rdI AXS.STAT_GEAR 15 = 0 ∧ (wit122.staged 15).mode ≠ 3) ∧
    (15 < 16 ∧ wit122.axes.length = 16 ∧ WriteReaches wit122 (axisPage 15) 72) ∧
    (15 < 16 ∧ wit123.axes.length = 16 ∧ WriteReaches wit123 (axisPage 15) 72 ∧ wit123.noMoves 15 = false ∧ wit123.kind (wit123.rdI AXS.GEAR_MASTER 15) ≠ 0 ∧ wit123.rdI AXS.GEAR_MASTER 15 ≠ 15 ∧ wit123.onI AXS.GEAR_SRC 15 = true ∧ (goodLim ((wit123.num AXS.VMAX 15).sub (wit123.gearSpeed 15 (wit123.master 15 false fun b => (wit123.axis b).unw).2).abs) = true)) ∧
    (15 < 16 ∧ wit124.axes.length = 16 ∧ WriteReaches wit124 (axisPage 15) 72 ∧ wit124.rdI AXS.STAT_GEAR 15 ≠ 0) ∧
    (15 < 16 ∧ wit125.axes.length = 16 ∧ WriteReaches wit125 (axisPage 15) 72 ∧ 2 ≤ wit125.rdI AXS.STAT_FBL 15 ∧ wit125.fbOk 15 = true) ∧
    (15 < 16 ∧ wit126.axes.length = 16 ∧ WriteReaches wit126 (axisPage 15) 72 ∧ 2 ≤ wit126.rdI AXS.STAT_FBL 15 ∧ wit126.fbOk 15 = false) ∧
    (15 < 16 ∧ wit127.axes.length = 16 ∧ wit127.awake = true ∧ (wit127.axis 15).held = [(axs 1).staged 15] ∧ (wit127.axis 15).queue.length < 16) := by
  unfold WriteReaches; and_intros <;> decide +kernel

/-- States and operands that meet the hypotheses of FeedbackInterfacesDecode, clause by clause. -/
theorem witness_FeedbackInterfacesDecode :
    (wit128.awake = true ∧ 7 < 8 ∧ wit128.fbk.length = 8 ∧ wit128.fbkOn 7 1 = true ∧ (wit128.fb 7).levA ≠ true ∧ (wit128.fb 7).levB ≠ true ∧ wit128.accepted 7 0 (10 * ns) = true ∧ wit128.accepted 7 1 (10 * ns) = true ∧ Instr.encoderEdge 7 true true (InputMark.mk (10 ^ 9) (10 * ns)) ∉ wit128.served ∧ wit128.tiedEvents 16384 (10 ^ 9) = []) ∧
    (wit128.awake = true ∧ 7 < 8 ∧ wit128.fbk.length = 8 ∧ wit128.fbkOn 7 1 = true ∧ wit128.accepted 7 0 (10 * ns) = true ∧ Instr.encoderEdge 7 true (wit128.fb 7).levB (InputMark.mk (10 ^ 9) (10 * ns)) ∉ wit128.served ∧ wit128.tiedEvents 16384 (10 ^ 9) = [] ∧ quadCount (wit128.rdI FBK.CFG_QMODE 7) (wit128.invert 7 0 (wit128.fb 7).levA) (wit128.invert 7 1 (wit128.fb 7).levB) (wit128.invert 7 0 true) (wit128.invert 7 1 (wit128.fb 7).levB) = some 1) ∧
    (wit129.awake = true ∧ 7 < 8 ∧ wit129.fbk.length = 8 ∧ wit129.fbkOn 7 2 = true ∧ wit129.accepted 7 0 (10 * ns) = true ∧ wit129.accepted 7 1 (10 * ns) = true ∧ wit129.accepted 7 2 (10 * ns) = true ∧ Instr.hallChange 7 true false true (InputMark.mk (10 ^ 9) (10 * ns)) ∉ wit129.served ∧ wit129.tiedEvents 16384 (10 ^ 9) = []) ∧
    (wit129.awake = true ∧ 7 < 8 ∧ wit129.fbk.length = 8 ∧ wit129.fbkOn 7 2 = true ∧ hallSeq.contains (wit129.hallCode 7) = false) ∧
    (wit130.awake = true ∧ 7 < 8 ∧ wit130.fbk.length = 8 ∧ wit130.fbkOn 7 1 = true ∧ wit130.onI FBK.CFG_LF_EN 7 = true ∧ 2 < 3 ∧ bitOf (wit130.fb 7).lows 2 = false) ∧
    (wit131.awake = true ∧ 7 < 8 ∧ wit131.fbk.length = 8 ∧ wit131.rdI FBK.STAT_STATE 7 = 2 ∧ wit131.rdI FBK.CFG_TYPE 7 ≠ 3 ∧ wit131.onI FBK.STAT_LINE_FAULT 7 = false ∧ (wit131.fb 7).hallBad = false) ∧
    (wit132.awake = true ∧ 7 < 8 ∧ wit132.fbk.length = 8 ∧ wit132.fbkOn 7 3 = true) ∧
    (ssi.awake = true ∧ 7 < 8 ∧ ssi.fbk.length = 8 ∧ ssi.fbkOn 7 3 = true ∧ (ssi.fb 7).reading = some 5000 ∧ (ssi.rdI FBK.SSI_T_ACK_TMO 7 < 6 ∨ 20000 < 20000 ∨ ssi.ssiBad 7 0 = true)) ∧
    (ssi.awake = true ∧ 7 < 8 ∧ ssi.fbk.length = 8 ∧ ssi.fbkOn 7 3 = true ∧ (ssi.fb 7).reading = some 5000 ∧ 4 ≤ ssi.rdI FBK.SSI_T_ACK_TMO 7 ∧ 20000 ≤ 20000 ∧ ssi.ssiBad 7 171 = false ∧ 5000 + 100 * ns ≤ 5000 + ssi.ssiLead 7) := by
  and_intros <;> decide +kernel

/-- States and operands that meet the hypotheses of AxesLatchAndCompare, clause by clause. -/
theorem witness_AxesLatchAndCompare :
    (15 < 16 ∧ wit128.axes.length = 16 ∧ 7 < 8 ∧ wit128.awake = true ∧ wit128.fbkOn 7 1 = true ∧ wit128.rdI FBK.CFG_Z_GATE 7 = 0 ∧ wit128.accepted 7 2 (100 * ns) = true ∧ Instr.index 7 (InputMark.mk (10 ^ 9) (100 * ns)) ∉ wit128.served ∧ wit128.tiedEvents 16384 (10 ^ 9) = []) ∧
    (15 < 16 ∧ wit133.axes.length = 16 ∧ 7 < 8 ∧ 20 * ns ≤ 20 * ns ∧ Instr.latch 7 true (InputMark.mk (10 ^ 9) (20 * ns)) ∉ wit133.served ∧ wit133.tiedEvents 16384 (10 ^ 9) = [] ∧ wit133.awake = true ∧ wit133.hasBearing 15 = true ∧ wit133.kind 15 = 1 ∧ wit133.rdI FBK.CFG_TYPE (wit133.rdI AXS.CFG_FBK 15) ≠ 3 ∧ wit133.bitI AXS.LT_CFG_LT_EN 15 7 = true ∧ edgeFits (wit133.rdI AXS.LT_CFG_LT_EDGE 15) true = true ∧ (wit133.axis 15).fifo.length < 16) ∧
    (15 < 16 ∧ wit122.axes.length = 16 ∧ WriteReaches wit122 (axisPage 15) 200 ∧ wit122.hasBearing 15 = true ∧ wit122.kind 15 = 1 ∧ (wit122.axis 15).fifo.length < 16) ∧
    (15 < 16 ∧ wit122.axes.length = 16 ∧ wit122.awake = true ∧ wit122.busVerdict (axisPage 15) 220 false = BusVerdict.perform) ∧
    (15 < 16 ∧ wit122.axes.length = 16 ∧ WriteReaches wit122 (axisPage 15) 196 ∧ bitOf 64 6 = true) ∧
    (15 < 16 ∧ wit134.axes.length = 16 ∧ wit134.awake = true ∧ wit134.hasBearing 15 = true ∧ wit134.onI AXS.DATUM_CTL_PENDING 15 = true ∧ wit134.rdI AXS.DATUM_CTL_SRC 15 = 1) ∧
    (15 < 16 ∧ wit122.axes.length = 16 ∧ 1 < 2 ∧ WriteReaches wit122 (axisPage 15) (232 + 16 * 1) ∧ wit122.hasBearing 15 = true ∧ wit122.kind 15 = 1 ∧ bitOf 1 0 = true ∧ bitOf 1 3 = false) ∧
    (15 < 16 ∧ wit135.axes.length = 16 ∧ wit135.awake = true ∧ wit135.hasBearing 15 = true ∧ wit135.kind 15 = 2 ∧ wit135.onI AXS.CFG_ESRC 15 = false ∧ (wit135.axis 15).evalAt ≤ 10 ^ 6 / (5 * ns) * (5 * ns) ∧ (wit135.axis 15).drive.isSome = true) := by
  unfold WriteReaches; and_intros <;> decide +kernel

/-- States and operands that meet the hypotheses of ConvertersStartCloseAndCalibrate, clause by clause. -/
theorem witness_ConvertersStartCloseAndCalibrate :
    (wit136.awake = true ∧ 15 < 16 ∧ wit136.meas.events = [(1000, [3, 15])] ∧ 15 ∈ [3, 15] ∧ wit136.meas.starts.length = 17 ∧ (wit136.meas.starts.getD 15 []).length < 4) ∧
    (wit137.awake = true ∧ 15 < 16 ∧ wit137.meas.events = [(1000, [3, 15])] ∧ 15 ∈ [3, 15] ∧ 4 ≤ (wit137.meas.starts.getD 15 []).length) ∧
    (wit138.awake = true ∧ 15 < 16 ∧ wit138.meas.starts.getD 15 [] = [1] ∧ wit138.meas.starts.length = 17 ∧ wit138.meas.due.length = 17) ∧
    (wit139.awake = true ∧ 15 < 16 ∧ wit139.pageOn 128 = true ∧ wit139.bit CNI.CTL_EN 15 = true ∧ wit139.cniClose 15 (10 ^ 6) = some (0, false) ∧ wit139.meas.closed.getD 15 none = none ∧ wit139.meas.closed.length = 16 ∧ Instr.cniWindowClose 15 (2 ^ 24) 0 (10 ^ 6) 0 ∉ wit139.served) ∧
    (scan.awake = true ∧ scan.meas.due.getD 16 none = some 7 ∧ scan.on CNF.STAT_SCAN_BUSY = false ∧ scan.cnfScan = true ∧ scan.pageOn 129 = true ∧ scan.meas.due.length = 17) ∧
    (wit140.awake = true ∧ wit140.meas.scanAt = some 7) ∧
    (cal.awake = true ∧ cal.on CNF.CTL_CAL_HOLD = false ∧ cal.pageOn 129 = true ∧ cal.calNext = some 1 ∧ cal.spare 1 = some 4 ∧ (cal.meas.slices.getD 1 []).head? = some 0) ∧
    (cal.awake = true ∧ cal.cnfStream 7 = true ∧ cal.bit CNF.STAT_FROZEN 7 = false) ∧
    (wit141.awake = true ∧ 7 < 8) ∧
    (cal.awake = true ∧ 3 < 5 ∧ cal.cnfStream 1 = true ∧ cal.bit CNF.STAT_FROZEN 1 = false ∧ bitOf (cal.rdA CNF.CH_ACTIVE 0 1) 3 = true ∧ bitOf (cal.rdA CNF.CH_FAILED 0 1) 3 = false) := by
  and_intros <;> decide +kernel

/-- States and operands that meet the hypotheses of StreamsAndPhasorsReport, clause by clause. -/
theorem witness_StreamsAndPhasorsReport :
    (wit142.awake = true ∧ 15 < 16 ∧ wit142.pageOn 130 = true ∧ wit142.bit SVS.CTL_EN 15 = true ∧ wit142.bit SVS.STAT_LOST 15 = false ∧ (∀ (p at_ : ℕ) (f : EthFrame), Instr.ethFrameRx p at_ f ∉ wit142.pending)) ∧
    (pmu.awake = true ∧ pmu.pageOn 131 = true ∧ pmu.on PMU.CTL_RUN = true ∧ pmu.rd MER.STAT_STATE ≠ 0 ∧ pmu.onI PG.ENABLE (168 + pmu.rd PMU.CFG_PORT) = true) ∧
    (wit143.awake = true ∧ wit143.pageOn 131 = true ∧ wit143.rd PMU.CFG_INT_RATE ≠ 0 ∧ 15 < 16 ∧ wit143.rdA PMU.CH_SIG_BASE 0 15 < 4093 ∧ (∀ d < 16, d ≠ 15 → wit143.rdA PMU.CH_SIG_BASE 0 d = 65535) ∧ wit143.sramBad = []) := by
  and_intros <;> first | decide +kernel | (intros; exact List.not_mem_nil) | (intro _ h; exact absurd h List.not_mem_nil) | exact no_some (by decide +kernel)

/-- States and operands that meet the hypotheses of SurveyCapturesItsRecord, clause by clause. -/
theorem witness_SurveyCapturesItsRecord :
    (WriteReaches wit144 136 64 ∧ wit144.rd SVY.STAT_STATE = 0 ∧ wit144.svyLog = false ∧ wit144.rd SVY.LEN_PRE + wit144.rd SVY.LEN_POST + 1 ≤ wit144.svyGmax ∧ (List.find? (fun k => !bitOf (wit144.rd SVY.REC_FULL) k) (List.range wit144.svySegs) = some 0)) ∧
    (WriteReaches wit145 136 64 ∧ wit145.rd SVY.STAT_STATE = 0 ∧ wit145.svyLog = false ∧ wit145.rd SVY.LEN_PRE + wit145.rd SVY.LEN_POST + 1 ≤ wit145.svyGmax ∧ (List.find? (fun k => !bitOf (wit145.rd SVY.REC_FULL) k) (List.range wit145.svySegs) = none)) ∧
    (WriteReaches armd 136 64 ∧ armd.rd SVY.STAT_STATE = 1 ∧ armd.svyLog = false) ∧
    (WriteReaches wit146 136 64 ∧ wit146.rd SVY.STAT_STATE = 2 ∧ wit146.svyLog = false ∧ sameCycle cyc250 wit146.mer.mer wit146.svy.time = false) ∧
    (WriteReaches wit147 136 92 ∧ 7 < 8 ∧ bitOf 128 7 = true) ∧
    (7 < 8 ∧ wit148.awake = true ∧ wit148.svyStream 7 = true ∧ wit148.levelTrue 7 [101, 99] = true ∧ wit148.levelTrue 7 [101, 99].tail = false ∧ wit148.onA SVY.LVL_FIRE 0 7 = true ∧ wit148.rd SVY.STAT_STATE = 1 ∧ wit148.svyLog = false) ∧
    (7 < 8 ∧ wit149.awake = true ∧ wit149.svyStream 7 = true ∧ wit149.slopeTrue 7 [201, 100, 100] = true ∧ wit149.slopeTrue 7 [201, 100, 100].tail = false ∧ wit149.onA SVY.SLP_FIRE 0 7 = true ∧ wit149.rd SVY.STAT_STATE = 1 ∧ wit149.svyLog = false) ∧
    (wit150.awake = true ∧ wit150.patInputs (2 ^ 32 + 5) &&& wit150.rd SVY.PAT_MASK_LO + 2 ^ 32 * wit150.rd SVY.PAT_MASK_HI = wit150.rd SVY.PAT_VALUE_LO + 2 ^ 32 * wit150.rd SVY.PAT_VALUE_HI &&& wit150.rd SVY.PAT_MASK_LO + 2 ^ 32 * wit150.rd SVY.PAT_MASK_HI ∧ wit150.on SVY.PAT_EN = true ∧ wit150.svy.patReady = true ∧ wit150.svyStream 0 = true ∧ wit150.rd SVY.STAT_STATE = 1 ∧ wit150.svyLog = false) ∧
    (wit151.awake = true ∧ wit151.cnfScan = false ∧ wit151.rd SVY.STAT_STATE = 1 ∧ wit151.svyLog = false ∧ 4 < 65536 ∧ wit151.sramBad = []) ∧
    (wit152.awake = true ∧ wit152.svyLog = true ∧ 4 * ((wit152.rd SVY.LOG_WR + max 1 wit152.svyGmax - wit152.rd SVY.LOG_RD % max 1 wit152.svyGmax) % max 1 wit152.svyGmax) < max 1 wit152.svyGmax ∧ wit152.rd SVY.CTL_DEC_MIN < wit152.rd SVY.STAT_DEC) ∧
    (wit153.awake = true ∧ wit153.busVerdict 136 320 false = BusVerdict.perform ∧ wit153.on SVY.RD_ADDR_AUTOINC = true) ∧
    (WriteReaches armd 136 64) := by
  unfold WriteReaches; and_intros <;> decide +kernel

/-- States and operands that meet the hypotheses of TriangulationKeepsItsFronts, clause by clause. -/
theorem witness_TriangulationKeepsItsFronts :
    (wit154.awake = true ∧ 7 < 8 ∧ wit154.pageOn 137 = true ∧ wit154.on TRI.CTL_EN = true ∧ wit154.cnfScan = false ∧ wit154.rdA TRI.DET_MODE 0 7 = 0 ∧ wit154.bit CNF.STAT_FROZEN (wit154.rdA TRI.DET_CH_A 0 7) = false ∧ wit154.tri.fifo.length < 64 ∧ (((List.take (wit154.rdA TRI.DET_SPAN 0 7 + 2) [0, 0, 200, 200, 200]).any fun w => bitOf w 14) = false) ∧ wit154.onA TRI.DET_POL_NEG 0 7 = true ∧ wit154.onA TRI.DET_POL_POS 0 7 = true ∧ wit154.rdA TRI.DET_QUIET 0 7 ≤ 1000 ∧ wit154.rdA TRI.DET_THR 0 7 < ((wit154.detInput 7 [0, 0, 200, 200, 200] []).getD (1 + wit154.rdA TRI.DET_SPAN 0 7) 0 - (wit154.detInput 7 [0, 0, 200, 200, 200] []).getD 1 0).natAbs ∧ ((wit154.detInput 7 [0, 0, 200, 200, 200] []).getD (0 + wit154.rdA TRI.DET_SPAN 0 7) 0 - (wit154.detInput 7 [0, 0, 200, 200, 200] []).getD 0 0).natAbs ≤ wit154.rdA TRI.DET_THR 0 7) ∧
    (tri.awake = true ∧ tri.busVerdict 137 268 false = BusVerdict.perform) ∧
    (wit155.awake = true ∧ wit155.tri.again = [(7, 2, 3, [1])] ∧ wit155.onI PG.ENABLE (168 + 3) = true) ∧
    (wit156.awake = true ∧ wit156.tri.waits = [(1, 2)] ∧ (∀ (p at_ : ℕ) (f : EthFrame), Instr.ethFrameRx p at_ f ∉ wit156.pending)) := by
  and_intros <;> first | decide +kernel | (intros; exact List.not_mem_nil) | (intro _ h; exact absurd h List.not_mem_nil) | exact no_some (by decide +kernel)

/-- States and operands that meet the hypotheses of TwinFramesAreTakenOrCounted, clause by clause. -/
theorem witness_TwinFramesAreTakenOrCounted :
    (hub.awake = true) ∧
    (wit157.awake = true ∧ wit157.clr = 2 ∧ wit157.pair.transfer = true ∧ leAt [] 16 2 ≠ 32512) ∧
    (wit158.awake = true ∧ wit158.paired = true ∧ wit158.pageOn41 = true ∧ bitOf (wit158.rd TWN.CTL_LANE_EN) 0 = true ∧ tcrcOk (List.replicate 28 0) = false) := by
  and_intros <;> decide +kernel

/-- States and operands that meet the hypotheses of PairChangesItsHolder, clause by clause. -/
theorem witness_PairChangesItsHolder :
    (WriteReaches hub 144 8 ∧ hub.isHub = true ∧ hub.isBranch = false ∧ hub.onI PG.ENABLE 144 = false) ∧
    (WriteReaches wit159 144 8 ∧ wit159.isHub = true ∧ wit159.isBranch = false ∧ wit159.onI PG.ENABLE 144 = true) ∧
    (wit160.awake = true ∧ wit160.paired = true ∧ wit160.clr = 1 ∧ wit160.on TWN.STAT_BUDGET_FAIL = false ∧ (List.range 48).any wit160.inService = true) ∧
    (WriteReaches wit159 144 68 ∧ wit159.paired = true ∧ wit159.clr = 4 ∧ wit159.pair.hoB = none) ∧
    (wit161.awake = true ∧ wit161.paired = true ∧ wit161.clr = 4 ∧ wit161.rd CLR.CFG_DRILL_H ≠ 0 ∧ wit161.pair.hoB = none) ∧
    (wit162.awake = true ∧ wit162.pair.standby = some 0 ∧ wit162.paired = true ∧ wit162.clr = 4 ∧ wit162.rd CLR.CFG_PREF = wit162.peerUnit + 1 ∧ wit162.pair.hoB = none) ∧
    (WriteReaches wit163 144 68 ∧ wit163.paired = true ∧ wit163.clr = 5) ∧
    (wit164.awake = true ∧ wit164.paired = true ∧ wit164.clr = 2 ∧ wit164.pair.transfer = true ∧ ((wit164.pair.items.any fun x => x.1 == 4) = true)) ∧
    (wit165.awake = true ∧ wit165.paired = true ∧ wit165.clr = 2 ∧ wit165.pair.adopted = true ∧ 16 ≤ wit165.pair.goodRun) ∧
    (wit166.awake = true ∧ wit166.pair.waiting = [Mirror.mk 0 0 false 0 [] 0] ∧ wit166.pair.sent < 32) := by
  unfold WriteReaches; and_intros <;> decide +kernel

/-- States and operands that meet the hypotheses of PennantAndMirrorAccessesReachRegisters, clause by clause. -/
theorem witness_PennantAndMirrorAccessesReachRegisters :
    (wit167.awake = true ∧ wit167.isCell = true ∧ wit167.regPens = [pen0 1 [0, 4, 0, 255, 0, 0, 1]] ∧ (pen0 1 [0, 4, 0, 255, 0, 0, 1]).isType 1 = true ∧ leAt (pen0 1 [0, 4, 0, 255, 0, 0, 1]).data 2 2 ≠ 0 ∧ wit167.pagePresent (leAt (pen0 1 [0, 4, 0, 255, 0, 0, 1]).data 4 1) = false) ∧
    (wit168.awake = true ∧ wit168.isCell = true ∧ wit168.regPens = [pen0 1 [0, 4, 0, 0, 0, 0, 12]] ∧ (pen0 1 [0, 4, 0, 0, 0, 0, 12]).isType 1 = true ∧ leAt (pen0 1 [0, 4, 0, 0, 0, 0, 12]).data 2 2 ≠ 0 ∧ wit168.pagePresent (leAt (pen0 1 [0, 4, 0, 0, 0, 0, 12]).data 4 1) = true ∧ penBad (pen0 1 [0, 4, 0, 0, 0, 0, 12]) = false ∧ wit168.penWaits (pen0 1 [0, 4, 0, 0, 0, 0, 12]) false = false) ∧
    (wit169.awake = true ∧ wit169.isCell = true ∧ wit169.regPens = [pen0 1 [0, 4, 0, 88, 64, 0, 1]] ∧ (pen0 1 [0, 4, 0, 88, 64, 0, 1]).isType 1 = true ∧ leAt (pen0 1 [0, 4, 0, 88, 64, 0, 1]).data 2 2 ≠ 0 ∧ wit169.pagePresent (leAt (pen0 1 [0, 4, 0, 88, 64, 0, 1]).data 4 1) = true ∧ penBad (pen0 1 [0, 4, 0, 88, 64, 0, 1]) = false ∧ wit169.penWaits (pen0 1 [0, 4, 0, 88, 64, 0, 1]) false = true) ∧
    (wit170.awake = true ∧ wit170.isCell = true ∧ wit170.regPens = [pen0 2 [0, 8, 0, 88, 20, 0, 1, 63, 0, 0, 0]] ∧ (pen0 2 [0, 8, 0, 88, 20, 0, 1, 63, 0, 0, 0]).isType 2 = true ∧ leAt (pen0 2 [0, 8, 0, 88, 20, 0, 1, 63, 0, 0, 0]).data 2 2 ≠ 0 ∧ wit170.pagePresent (leAt (pen0 2 [0, 8, 0, 88, 20, 0, 1, 63, 0, 0, 0]).data 4 1) = true ∧ leAt (pen0 2 [0, 8, 0, 88, 20, 0, 1, 63, 0, 0, 0]).data 7 1 = 1 ∧ leAt (pen0 2 [0, 8, 0, 88, 20, 0, 1, 63, 0, 0, 0]).data 5 2 = 20 ∧ wit170.penWaits (pen0 2 [0, 8, 0, 88, 20, 0, 1, 63, 0, 0, 0]) true = false ∧ leAt (pen0 2 [0, 8, 0, 88, 20, 0, 1, 63, 0, 0, 0]).data 8 4 < 2 ^ eventsOf (leAt (pen0 2 [0, 8, 0, 88, 20, 0, 1, 63, 0, 0, 0]).data 4 1) ∧ wit170.penLocked (pen0 2 [0, 8, 0, 88, 20, 0, 1, 63, 0, 0, 0]) = none) ∧
    (wit171.awake = true ∧ wit171.mirrorsDue = [Mirror.mk 0 8 false 20 [3, 0, 0, 0] 1] ∧ (Mirror.mk 0 8 false 20 [3, 0, 0, 0] 1).bar2 = false ∧ (Mirror.mk 0 8 false 20 [3, 0, 0, 0] 1).ofs = 20 ∧ wit171.busVerdict (Mirror.mk 0 8 false 20 [3, 0, 0, 0] 1).page 20 true = BusVerdict.perform ∧ ofLe (Mirror.mk 0 8 false 20 [3, 0, 0, 0] 1).data < 2 ^ eventsOf (Mirror.mk 0 8 false 20 [3, 0, 0, 0] 1).page) := by
  and_intros <;> decide +kernel

/-- States and operands that meet the hypotheses of SelectingOperationsFollowTheirLaws, clause by clause. -/
theorem witness_SelectingOperationsFollowTheirLaws :
    (wit172.starts 0 1) ∧
    (wit173.starts 0 8 ∧ ((starter 8 2 0 [f1, f2] [f1, f2, f0, f0, f0, f0, f0, f0, f3]).inputs 0).usedIn ≠ [] ∧ ((starter 8 2 0 [f1, f2] [f1, f2, f0, f0, f0, f0, f0, f0, f3]).inputs 0).fit ((starter 8 2 0 [f1, f2] [f1, f2, f0, f0, f0, f0, f0, f0, f3]).inputs 0).usedIn [] = true) ∧
    (wit174.starts 0 8 ∧ ((starter 8 3 0 [f1, f2] []).inputs 0).fit ((starter 8 3 0 [f1, f2] []).inputs 0).usedIn [] = false) ∧
    (wit175.starts 0 9 ∧ ((starter 9 2 1 [f1, f2] [f3]).inputs 0).fit [0, 1] [] = true) ∧
    (wit176.starts 0 9 ∧ ((starter 9 2 0 [f1] [f3]).inputs 0).fit [0, 1] [] = false) ∧
    (wit177.starts 0 88 ∧ ((starter 88 8 0 [f1, f2, f3] []).inputs 0).usableIn ≠ []) ∧
    (wit178.starts 0 89 ∧ ((starter 89 8 0 [f1, f2, f3] []).inputs 0).usableIn ≠ []) ∧
    (wit179.starts 0 90 ∧ ((starter 90 8 0 [f1, f2, f3] [3]).inputs 0).bad = false ∧ ((starter 90 8 0 [f1, f2, f3] [3]).inputs 0).usableIn.length % 2 = 1 ∧ ((starter 90 8 0 [f1, f2, f3] [3]).inputs 0).kInt 0 ≤ ↑((starter 90 8 0 [f1, f2, f3] [3]).inputs 0).usableIn.length) ∧
    (wit180.starts 0 90 ∧ ((starter 90 8 0 [] [3]).inputs 0).usableIn = []) ∧
    (wit181.starts 0 64 ∧ ((starter 64 3 0 [f3, f1, f2] []).inputs 0).fit [0] [1, 2] = true) ∧
    (wit182.starts 0 65 ∧ ((starter 65 1 0 [f3] [f1, f1]).inputs 0).fit [0] [] = true ∧ bitOf (((starter 65 1 0 [f3] [f1, f1]).inputs 0).w 0) 32 = false) ∧
    (wit183.starts 0 65 ∧ ((starter 65 1 0 [] [f1, f1]).inputs 0).fit [0] [] = false) ∧
    (wit184.starts 0 72 ∧ ((starter 72 1 0 [f1] [1]).inputs 0).fit [0] [] = true ∧ (((starter 72 1 0 [f1] [1]).inputs 0).kInt 0 < 2 ∨ 1024 < ((starter 72 1 0 [f1] [1]).inputs 0).kInt 0)) ∧
    (wit185.starts 0 72 ∧ ((starter 72 1 0 [fh] [2, f1, f2, f3, f1]).inputs 0).fit [0] [] = true ∧ 2 ≤ ((starter 72 1 0 [fh] [2, f1, f2, f3, f1]).inputs 0).kInt 0 ∧ ((starter 72 1 0 [fh] [2, f1, f2, f3, f1]).inputs 0).kInt 0 ≤ 1024 ∧ 1 + 2 * (((starter 72 1 0 [fh] [2, f1, f2, f3, f1]).inputs 0).kInt 0).toNat ≤ ((starter 72 1 0 [fh] [2, f1, f2, f3, f1]).inputs 0).room ∧ ((starter 72 1 0 [fh] [2, f1, f2, f3, f1]).inputs 0).p 0 = false ∧ (∀ i < (((starter 72 1 0 [fh] [2, f1, f2, f3, f1]).inputs 0).kInt 0).toNat, (((starter 72 1 0 [fh] [2, f1, f2, f3, f1]).inputs 0).k (1 + i)).le (((starter 72 1 0 [fh] [2, f1, f2, f3, f1]).inputs 0).val 0) = false)) ∧
    (wit186.starts 0 96 ∧ ((starter 96 1 0 [f3] [2, 3]).inputs 0).fit [0] [] = true ∧ ((starter 96 1 0 [f3] [2, 3]).inputs 0).kInt 1 ≠ 0 ∧ ((starter 96 1 0 [f3] [2, 3]).inputs 0).p 0 = false) ∧
    (wit187.starts 0 96 ∧ ((starter 96 1 0 [f3] [2]).inputs 0).fit [0] [] = true ∧ ((starter 96 1 0 [f3] [2]).inputs 0).kInt 1 = 0) ∧
    (wit188.starts 0 104 ∧ ((starter 104 1 0 [f3] [f1, fh]).inputs 0).fit [0] [1] = true ∧ ((starter 104 1 0 [f3] [f1, fh]).inputs 0).p 0 = false ∧ to32 (num32 f1) = if ((starter 104 1 0 [f3] [f1, fh]).inputs 0).used 1 = true then ((starter 104 1 0 [f3] [f1, fh]).inputs 0).val 1 else ((starter 104 1 0 [f3] [f1, fh]).inputs 0).k 0) ∧
    (wit189.starts 0 105) ∧
    (wit190.starts 0 120) ∧
    (wit191.starts 0 32 ∧ ((starter 32 1 0 [f3] [fh]).inputs 0).fit [0] [] = true ∧ bitOf (((starter 32 1 0 [f3] [fh]).inputs 0).w 0) 32 = false) ∧
    (wit192.starts 0 32 ∧ ((starter 32 1 0 [] [fh]).inputs 0).fit [0] [] = false) := by
  unfold State.starts; and_intros <;> first | decide +kernel | (intros; exact List.not_mem_nil) | (intro _ h; exact absurd h List.not_mem_nil) | exact no_some (by decide +kernel)

/-- States and operands that meet the hypotheses of LoopsAndTransformsFollowTheirLaws, clause by clause. -/
theorem witness_LoopsAndTransformsFollowTheirLaws :
    (wit193.starts 0 16 ∧ ((starter 16 2 0 [f3, f1] [f1, f1, fm2, f2, fm2, f2]).inputs 0).fit [0, 1] [2, 3] = true ∧ ((starter 16 2 0 [f3, f1] [f1, f1, fm2, f2, fm2, f2]).inputs 0).isSet 3 = false) ∧
    (wit194.starts 0 16 ∧ ((put (starter 16 2 0 [f3] []) [(GRF.FBL_HOLD, 0, 0, 0)]).inputs 0).fit [0, 1] [2, 3] = false ∧ ((put (starter 16 2 0 [f3] []) [(GRF.FBL_HOLD, 0, 0, 0)]).inputs 0).hold < min 256 (bitsOf (((put (starter 16 2 0 [f3] []) [(GRF.FBL_HOLD, 0, 0, 0)]).inputs 0).w 1) 0 9 + 1)) ∧
    (wit195.starts 0 16 ∧ ((put (starter 16 2 0 [f3] []) [(GRF.FBL_HOLD, 0, 0, 1)]).inputs 0).fit [0, 1] [2, 3] = false ∧ min 256 (bitsOf (((put (starter 16 2 0 [f3] []) [(GRF.FBL_HOLD, 0, 0, 1)]).inputs 0).w 1) 0 9 + 1) ≤ ((put (starter 16 2 0 [f3] []) [(GRF.FBL_HOLD, 0, 0, 1)]).inputs 0).hold) ∧
    (wit196.starts 0 17 ∧ ((starter 17 5 0 [f3, f1, f1, f0, f2] [f1, f1, fm2, f2, fm2, f2]).inputs 0).fit [0, 1, 3] [2, 4] = true ∧ ((starter 17 5 0 [f3, f1, f1, f0, f2] [f1, f1, fm2, f2, fm2, f2]).inputs 0).isClear 3 = true) ∧
    (wit197.starts 0 24 ∧ ((starter 24 3 0 [f3, f2, f0] [f1, f1]).inputs 0).bad = false ∧ ((starter 24 3 0 [f3, f2, f0] [f1, f1]).inputs 0).isClear 2 = true ∧ ((starter 24 3 0 [f3, f2, f0] [f1, f1]).inputs 0).usable 1 = true) ∧
    (wit198.starts 0 24 ∧ ((starter 24 3 0 [f3, f2, f1] [f1, f1]).inputs 0).bad = false ∧ ((starter 24 3 0 [f3, f2, f1] [f1, f1]).inputs 0).isSet 2 = true ∧ bitOf (((starter 24 3 0 [f3, f2, f1] [f1, f1]).inputs 0).w 1) 0 = false ∧ ((starter 24 3 0 [f3, f2, f1] [f1, f1]).inputs 0).usable 1 = true) ∧
    (rampNo.starts 0 24 ∧ (rampNo.inputs 0).bad = false ∧ (rampNo.inputs 0).isSet 2 = true ∧ bitOf ((rampNo.inputs 0).w 1) 0 = false ∧ (rampNo.inputs 0).usable 1 = false) ∧
    (rampOn.starts 0 24 ∧ (rampOn.inputs 0).bad = false ∧ (rampOn.inputs 0).isSet 2 = true ∧ bitOf ((rampOn.inputs 0).w 1) 0 = true ∧ (rampOn.inputs 0).usable 0 = true) ∧
    (wit199.starts 0 33 ∧ ((starter 33 1 0 [f3] [f1, f2, f3, fh, fh]).inputs 0).fit [0] [] = true ∧ bitOf (((starter 33 1 0 [f3] [f1, f2, f3, fh, fh]).inputs 0).w 2) 0 = false ∧ bitOf (((starter 33 1 0 [f3] [f1, f2, f3, fh, fh]).inputs 0).w 2) 1 = false) ∧
    (wit200.starts 0 33 ∧ ((starter 33 1 0 [] [f1, f2, f3, fh, fh]).inputs 0).fit [0] [] = false) ∧
    (wit201.starts 0 48 ∧ ((starter 48 2 0 [f3, f1] []).inputs 0).fit [0, 1] [2] = true) ∧
    (wit202.starts 0 49 ∧ ((starter 49 3 0 [f3, f1, f2] []).inputs 0).fit [0, 1] [2] = true) ∧
    (wit203.starts 0 50 ∧ ((starter 50 4 3 [f3, f1, f2, f1] []).inputs 0).fit [0, 1, 2] [3] = true) ∧
    (wit204.starts 0 51 ∧ ((starter 51 4 3 [f3, f1, f2, f1] []).inputs 0).fit [0, 1, 2] [3] = true) ∧
    (wit205.starts 0 51 ∧ ((starter 51 4 3 [f3, f1] []).inputs 0).fit [0, 1, 2] [3] = false) ∧
    (wit206.starts 0 52 ∧ ((starter 52 3 0 [f3, f1] []).inputs 0).fit [0, 1, 2] [] = false) ∧
    (wit207.starts 0 52 ∧ ((starter 52 3 0 [f3, f1, f2] [fh]).inputs 0).fit [0, 1, 2] [] = true ∧ bitOf (((starter 52 3 0 [f3, f1, f2] [fh]).inputs 0).w 2) 0 = false) ∧
    (wit208.starts 0 56 ∧ ((starter 56 2 0 [f3, f1] [f1, f1, f1, f0, f3, fh]).inputs 0).fit [0, 1] [2] = true ∧ (sqrt32 (add32 (mul32 (((starter 56 2 0 [f3, f1] [f1, f1, f1, f0, f3, fh]).inputs 0).val 0) (((starter 56 2 0 [f3, f1] [f1, f1, f1, f0, f3, fh]).inputs 0).val 0)) (mul32 (((starter 56 2 0 [f3, f1] [f1, f1, f1, f0, f3, fh]).inputs 0).val 1) (((starter 56 2 0 [f3, f1] [f1, f1, f1, f0, f3, fh]).inputs 0).val 1)))).lt (((starter 56 2 0 [f3, f1] [f1, f1, f1, f0, f3, fh]).inputs 0).k 5) = false) ∧
    (wit209.starts 0 56 ∧ ((put (starter 56 2 0 [f3] []) [(GRF.FBL_HOLD, 0, 0, 0)]).inputs 0).fit [0, 1] [2] = false ∧ ((put (starter 56 2 0 [f3] []) [(GRF.FBL_HOLD, 0, 0, 0)]).inputs 0).hold < min 256 (bitsOf (((put (starter 56 2 0 [f3] []) [(GRF.FBL_HOLD, 0, 0, 0)]).inputs 0).w 2) 32 9 + 1)) ∧
    (wit210.starts 0 80 ∧ ((starter 80 8 0 [f3, f1, f1, f1, f1, f1, f1, f0] []).inputs 0).isClear 7 = true) ∧
    (wit211.starts 0 80 ∧ ((starter 80 7 0 [f3, f1, f1, f1, f1, f1, f1] [f1, f1, f1]).inputs 0).isClear 7 = false ∧ ((starter 80 7 0 [f3, f1, f1, f1, f1, f1, f1] [f1, f1, f1]).inputs 0).fit [0, 1, 2, 3, 4, 5, 6] [7] = true) := by
  unfold State.starts; and_intros <;> decide +kernel

/-- States and operands that meet the hypotheses of SchedulerRunsTheChart, clause by clause. -/
theorem witness_SchedulerRunsTheChart :
    (d1.awake = true ∧ wit212 = d1.advanceTo t1 ∧ (wit212.freePlotter = none ∨ Option.any (sameCycle wit212.schedCyc wit212.mer.mer) wit212.graph.dispAt = true)) ∧
    (d2.awake = true ∧ wit213 = d2.advanceTo t1 ∧ Option.any (sameCycle wit213.schedCyc wit213.mer.mer) wit213.graph.dispAt = false ∧ wit213.freePlotter = some 0 ∧ 0 < wit213.graph.plot.length ∧ 0 < wit213.graph.ops.length ∧ (wit213.candidates wit213.mer.mer).head? = some (0, false) ∧ ((wit213.desc 0).waitEn = false ∨ wit213.waitHolds 0 = true)) ∧
    (d3.awake = true ∧ wit214 = d3.advanceTo t1 ∧ Option.any (sameCycle wit214.schedCyc wit214.mer.mer) wit214.graph.dispAt = false ∧ wit214.freePlotter = some 0 ∧ 0 < wit214.graph.plot.length ∧ 0 < wit214.graph.ops.length ∧ (wit214.candidates wit214.mer.mer).head? = some (0, false) ∧ (wit214.desc 0).waitEn = true ∧ wit214.waitHolds 0 = false ∧ wit214.waiting < 128) ∧
    (d4.awake = true ∧ wit215 = d4.advanceTo t1 ∧ Option.any (sameCycle wit215.schedCyc wit215.mer.mer) wit215.graph.dispAt = false ∧ wit215.freePlotter = some 0 ∧ 0 < wit215.graph.plot.length ∧ 0 < wit215.graph.ops.length ∧ (wit215.candidates wit215.mer.mer).head? = some (0, true)) ∧
    (wit216.awake = true ∧ (wit216.op 0).st = 2 ∧ legCycles < (wit216.op 0).left ∧ wit217 = wit216.advanceTo (wit216.after (wit216.op 0) legCycles) ∧ wit217.higherReady 0 = true ∧ wit217.freePlotter = none ∧ wit217.lowestAt 0 = true ∧ wit217.waiting < 128) ∧
    (wit218.awake = true ∧ (wit218.op 0).st = 2 ∧ legCycles < (wit218.op 0).left ∧ wit219 = wit218.advanceTo (wit218.after (wit218.op 0) legCycles) ∧ wit219.higherReady 0 = true ∧ wit219.freePlotter = none ∧ wit219.lowestAt 0 = true ∧ 128 ≤ wit219.waiting) ∧
    (d6.awake = true ∧ (d6.op 0).st = 2 ∧ legCycles < (d6.op 0).left ∧ wit220 = d6.advanceTo (d6.after (d6.op 0) legCycles) ∧ (wit220.higherReady 0 = false ∨ wit220.freePlotter ≠ none ∨ wit220.lowestAt 0 = false)) ∧
    (d7.awake = true ∧ (d7.op 0).inWait = true ∧ d7.waitHolds 0 = true) ∧
    (d7.awake = true ∧ (d7.op 0).inWait = true ∧ wit221 = d7.advanceTo (d7.op 0).waitEnd ∧ (false = true ∨ wit221.waitHolds 0 = true)) ∧
    (d9.awake = true ∧ (d9.op 0).inWait = true ∧ wit222 = d9.advanceTo (d9.op 0).waitEnd ∧ false = false ∧ wit222.waitHolds 0 = false ∧ bitOf (wit222.desc 0).flags 4 = false) ∧
    (d9b.awake = true ∧ (d9b.op 0).inWait = true ∧ wit223 = d9b.advanceTo (d9b.op 0).waitEnd ∧ false = false ∧ wit223.waitHolds 0 = false ∧ bitOf (wit223.desc 0).flags 4 = true) ∧
    (d10.awake = true ∧ (d10.op 0).st = 2 ∧ (d10.op 0).res = some res0 ∧ (d10.op 0).left ≤ legCycles) ∧
    (c1.awake = true ∧ WriteReaches c1 97 64 ∧ 0 < 4096 ∧ 0 < c1.graph.ops.length ∧ (c1.op 0).st = 0) ∧
    (d11.awake = true ∧ WriteReaches d11 97 64 ∧ 0 < 4096 ∧ 0 < d11.graph.ops.length ∧ ((d11.op 0).st = 1 ∨ (d11.op 0).st = 7)) ∧
    (d9.awake = true ∧ WriteReaches d9 97 64 ∧ 0 < 4096 ∧ 0 < d9.graph.ops.length ∧ (d9.op 0).inWait = true) ∧
    (c4.awake = true ∧ WriteReaches c4 97 64 ∧ 0 < 4096 ∧ 0 < c4.graph.ops.length ∧ (c4.op 0).st = 3 ∧ (c4.op 0).preempt = false ∧ (c4.op 0).resume = true ∧ (c4.op 0).tmo = false ∧ (c4.op 0).since = c4.schedCycle) ∧
    (d6.awake = true ∧ WriteReaches d6 97 64 ∧ 0 < 4096 ∧ 0 < d6.graph.ops.length ∧ ((d6.op 0).st = 2 ∨ (d6.op 0).st = 4 ∨ (d6.op 0).st = 5)) ∧
    (d12.awake = true ∧ d12.on GRF.STAT_RUNNING = true ∧ d12.graph.started = false) ∧
    (d11.awake = true ∧ d11.on GRF.STAT_RUNNING = false) ∧
    (d14.awake = true ∧ (d14.graph.started = true ∧ ∃ d < d14.graph.ops.length, (d14.desc d).standing = false ∧ (d14.desc d).post = false ∧ (d14.op d).over = false ∧ (d14.advanceTo d14.deadlineAt).endsNow d = false)) ∧
    (hub.awake = true ∧ (∀ d < hub.graph.ops.length, (hub.desc d).standing = true ∨ (hub.desc d).post = true ∨ (hub.op d).over = true ∨ (hub.advanceTo hub.deadlineAt).endsNow d = true)) := by
  unfold WriteReaches; and_intros <;> first | decide +kernel | (intros; exact List.not_mem_nil) | (intro _ h; exact absurd h List.not_mem_nil) | exact no_some (by decide +kernel)

/-- States and operands that meet the hypotheses of ChartControlStagesSwapsAndQueues, clause by clause. -/
theorem witness_ChartControlStagesSwapsAndQueues :
    (WriteReaches act 96 64 ∧ act.on GRF.STAT_ACTIVE_VALID = true) ∧
    (WriteReaches hub 96 64 ∧ hub.on GRF.STAT_ACTIVE_VALID = false) ∧
    (WriteReaches wit224 96 64) ∧
    (WriteReaches hub 96 64) ∧
    (WriteReaches wit225 96 64 ∧ wit225.rd GRF.STAT_STAGED = 2 ∧ wit225.on GRF.STAT_SWAP_PEND = false ∧ wit225.on GRF.CTL_AT_SEQ = false ∧ (wit225.isHub = false ∨ wit225.mer.lastS = 0 ∨ sameCycle cyc400 wit225.mer.mer wit225.mer.lastS = false ∨ wit225.graph.started = true)) ∧
    (WriteReaches late 96 64 ∧ late.rd GRF.STAT_STAGED = 2 ∧ late.on GRF.STAT_SWAP_PEND = false ∧ late.on GRF.CTL_AT_SEQ = false ∧ late.isHub = true ∧ late.mer.lastS ≠ 0 ∧ sameCycle cyc400 late.mer.mer late.mer.lastS = true ∧ late.graph.started = false) ∧
    (WriteReaches wit226 96 64 ∧ (wit226.rd GRF.STAT_STAGED ≠ 2 ∨ wit226.on GRF.STAT_SWAP_PEND = true)) ∧
    (WriteReaches wit227 96 64 ∧ 0 = (wit227.rd GRF.SWAP_SEQ + 2 ^ 32 - wit227.mer.seq) % 2 ^ 32 ∧ wit227.on GRF.CTL_AT_SEQ = true ∧ (0 = 0 ∨ 2 ^ 31 ≤ 0)) ∧
    (WriteReaches wit228 96 64 ∧ 2 ^ 31 - 1 = (wit228.rd GRF.SWAP_SEQ + 2 ^ 32 - wit228.mer.seq) % 2 ^ 32 ∧ wit228.on GRF.CTL_AT_SEQ = true ∧ wit228.rd GRF.STAT_STAGED = 2 ∧ wit228.on GRF.STAT_SWAP_PEND = false ∧ 0 < 2 ^ 31 - 1 ∧ 2 ^ 31 - 1 < 2 ^ 31) ∧
    (WriteReaches wit229 96 64) ∧
    (stg.awake = true ∧ stg.rd GRF.STAT_STAGED = 1 ∧ stg.openStaged.2 ≠ 0) ∧
    (wit230.awake = true ∧ wit230.rd GRF.STAT_STAGED = 1 ∧ wit230.openStaged.2 = 0 ∧ wit230.openStaged.1.loadChecks wit230.openStaged.1.stagedBase ≠ 0) ∧
    (wit231.awake = true ∧ wit231.rd GRF.STAT_STAGED = 1 ∧ wit231.openStaged.2 = 0 ∧ wit231.openStaged.1.loadChecks wit231.openStaged.1.stagedBase = 0) ∧
    (WriteReaches wit232 96 132 ∧ 65535 = wit232.rd GRF.COEF_ADDR_WORD ∧ wit232.graph.coefs.length < 256 ∧ wit232.graph.coefHeld = [] ∧ (wit232.isHub = false ∨ wit232.mer.lastS = 0 ∨ sameCycle cyc400 wit232.mer.mer wit232.mer.lastS = false ∨ 16 ≤ wit232.rd GRF.COEF_STAT_APPLIED)) ∧
    (WriteReaches wit233 96 132 ∧ 65535 = wit233.rd GRF.COEF_ADDR_WORD ∧ wit233.graph.coefs = [] ∧ wit233.graph.coefHeld = [] ∧ wit233.isHub = true ∧ wit233.mer.lastS ≠ 0 ∧ sameCycle cyc400 wit233.mer.mer wit233.mer.lastS = true ∧ wit233.rd GRF.COEF_STAT_APPLIED < 16 ∧ 4 * 65535 + 4 ≤ 262144) ∧
    (WriteReaches wit234 96 132 ∧ 0 = wit234.rd GRF.COEF_ADDR_WORD ∧ 256 ≤ wit234.graph.coefs.length) ∧
    (WriteReaches wit235 96 132 ∧ 0 = wit235.rd GRF.COEF_ADDR_WORD ∧ wit235.graph.coefs.getLast? = some (CoefEntry.mk 0 1 (some 2) 0)) ∧
    (held.awake = true ∧ held.graph.coefHeld = [CoefEntry.mk 0 1 none 0] ∧ held.graph.coefs.length < 256) ∧
    (wit236.awake = true ∧ wit236.graph.coefHeld = [CoefEntry.mk 0 1 none 0] ∧ 256 ≤ wit236.graph.coefs.length) ∧
    (WriteReaches wit237 96 144 ∧ wit237.on GRF.FBL_STAT_CFL = true) := by
  unfold WriteReaches; and_intros <;> decide +kernel

/-- States and operands that meet the hypotheses of TimeSourcesAndTimeRegistersWork, clause by clause. -/
theorem witness_TimeSourcesAndTimeRegistersWork :
    (1 < 2 ∧ wit238.awake = true ∧ wit238.onI PG.ENABLE (9 + 1) = true ∧ wit238.inTime 1 5 false = false) ∧
    (1 < 2 ∧ wit239.awake = true ∧ wit239.onI PG.ENABLE (9 + 1) = true ∧ wit239.inTime 1 5 true = false) ∧
    (1 < 2 ∧ timely.awake = true ∧ timely.inTime 1 7 false = true) ∧
    (1 < 2 ∧ timely.awake = true ∧ timely.inTime 1 7 true = true) ∧
    (wit240.awake = true ∧ wit240.on MER.PPS_CTL_IN_EN = true) ∧
    (wit241.awake = true ∧ wit241.pps.last = some 5 ∧ (∀ (at_ : ℕ), Instr.ppsInEdge at_ ∉ wit241.pending)) ∧
    (WriteReaches hub 8 132) ∧
    (wit242.awake = true ∧ wit242.on MER.PPS_CTL_OUT_EN = true) ∧
    ((anch.used 8).afterDue = wit243 ∧ WriteReaches anch 8 64 ∧ wit243.rd MER.STAT_STATE = 1 ∧ wit243.qualified (wit243.rd MER.STAT_SRC) = true ∧ anch.follows = false) ∧
    ((unanch.used 8).afterDue = wit244 ∧ WriteReaches unanch 8 64 ∧ wit244.rd MER.STAT_STATE ≠ 1) ∧
    ((both.used 8).afterDue = wit245 ∧ WriteReaches both 8 64 ∧ wit245.rd MER.STAT_STATE = 1 ∧ wit245.rd MER.STAT_SRC < 2 ∧ wit245.usable (1 - wit245.rd MER.STAT_SRC) = true) ∧
    (wit246.awake = true ∧ wit246.rd MER.STAT_STATE = 2) ∧
    (hub.awake = true ∧ hub.busVerdict 8 72 false = BusVerdict.perform) := by
  unfold WriteReaches; and_intros <;> first | decide +kernel | (intros; exact List.not_mem_nil) | (intro _ h; exact absurd h List.not_mem_nil) | exact no_some (by decide +kernel)

/-- States and operands that meet the hypotheses of ClocksAndSuppliesAreReported, clause by clause. -/
theorem witness_ClocksAndSuppliesAreReported :
    (hub.awake = true) ∧
    (wit247.awake = true ∧ wit247.on CLK.STAT_PLL_LOCK = true ∧ wit247.on CLK.CTL_LOCKSEL = false) ∧
    (wit248.awake = true ∧ wit248.on CLK.STAT_MSYN_LOCK = true) ∧
    (wit249.awake = true) ∧
    (wit249.awake = true ∧ (247 < 248 ∨ 252 < 247) ∧ wit249.pwr.refBad = 1) ∧
    (wit250.awake = true ∧ wit250.pwr.refGood = 1 ∧ wit250.on CLK.STAT_REF_OK = false) ∧
    (wit251.awake = true ∧ 11 ≤ 12 ∧ wit251.serdesRuns 11 = true) ∧
    (wit252.awake = true ∧ 12 ≤ 12 ∧ wit252.serdesLocked 12 = true) ∧
    (7 < 8 ∧ WriteReaches wit253 2 (96 + 4 * 7) ∧ wit253.outIdle 7 = true) ∧
    (0 < 8 ∧ WriteReaches wit254 2 (96 + 4 * 0) ∧ wit254.outIdle 0 = false ∧ bitOf 0 16 = false) := by
  unfold WriteReaches; and_intros <;> decide +kernel

/-- States and operands that meet the hypotheses of SecurityCommandsStartAndEnd, clause by clause. -/
theorem witness_SecurityCommandsStartAndEnd :
    (WriteReaches hub 160 64 ∧ hub.on SEC.STAT_BUSY = false ∧ 2047 < 2048) ∧
    (WriteReaches hub 160 64 ∧ hub.on SEC.STAT_BUSY = false ∧ 0 < 2048) ∧
    (WriteReaches hub 160 64 ∧ hub.on SEC.STAT_BUSY = false ∧ 1 < 2048) ∧
    (WriteReaches wit255 160 64 ∧ wit255.on SEC.STAT_BUSY = true) ∧
    (wit256.awake = true ∧ wit256.security.cmd = some (9, [], 5) ∧ 9 < 256 ∧ (wit256.runCmd 9 [] 5).1 < 256) ∧
    (hub.awake = true) ∧
    (wit257.awake = true ∧ wit257.isHub = true ∧ wit257.on SEC.STAT_ID_OK = true ∧ wit257.security.cmd = some (6, [15, 2, 1] ++ List.replicate 37 9, 5) ∧ leAt ([15, 2, 1] ++ List.replicate 37 9) 0 1 < 16 ∧ leAt ([15, 2, 1] ++ List.replicate 37 9) 1 1 = 2 ∧ leAt ([15, 2, 1] ++ List.replicate 37 9) 2 1 = 1) ∧
    (wit258.awake = true ∧ wit258.isHub = true ∧ wit258.on SEC.STAT_ID_OK = true ∧ wit258.security.cmd = some (7, [15], 5) ∧ leAt [15] 0 1 < 16) ∧
    (wit259.awake = true ∧ wit259.isHub = true ∧ wit259.on SEC.STAT_ID_OK = true ∧ wit259.security.cmd = some (8, [64], 5)) := by
  unfold WriteReaches; and_intros <;> decide +kernel

/-! Statements about the step and about every command. -/

theorem witness_AsleepDeviceIgnoresCommands :
    ({ hub with por := true } : State).awake = false ∧ actsAsleep .stage = false ∧ ¬ beyondSram .stage :=
  ⟨by decide +kernel, rfl, by simp [beyondSram]⟩

theorem witness_EveryCommandAnswersUnlessBeyondSram :
    beyondSram (.bar2Write 0x1000000 [0] ⟨[], 0, 0⟩) ∧ ¬ beyondSram (.bar2Write 0xFFFFFF [0] ⟨[], 0, 0⟩) ∧ ¬ beyondSram .stage := by
  simp [beyondSram]

theorem witness_StepKeepsStrapsAndQueueOrder : ∃ t, step { hub with pending := [.stage, .swap] } = .next t ∧
    ∀ a b c d e f g h, ({ hub with pending := [.stage, .swap] } : State).pending.head? ≠ some (.porRelease a b c d e f g h) :=
  ⟨_, rfl, fun _ _ _ _ _ _ _ _ => by simp⟩

theorem witness_StepBurnsFusesOneWay : ∃ t, step { hub with pending := [.cmdDone] } = .next t := ⟨_, rfl⟩

theorem witness_StepKeepsTheFloorInRange :
    FloorInRange { hub with pending := [.cmdDone] } ∧ ∃ t, step { hub with pending := [.cmdDone] } = .next t :=
  ⟨by unfold FloorInRange; decide +kernel, _, rfl⟩

theorem witness_StepKeepsMemoryCanonical :
    Memory.wf ({ hub with pending := [.bar2Write 0 [1] ⟨[], 0, 0⟩] } : State).sram = true ∧ ∃ t, step { hub with pending := [.bar2Write 0 [1] ⟨[], 0, 0⟩] } = .next t :=
  ⟨by decide +kernel, _, rfl⟩

/-! Frames: the commands that the frame statements name have next states. -/


/-- A command has a next state. -/
def runs (c : Instr) (s : State) : Bool := match exec c s with | .next _ => true | _ => false

theorem each_runs (cs : List Instr) (s : State) (h : cs.all (runs · s) = true) : ∀ c ∈ cs, ∃ t, exec c s = .next t := by
  intro c hc
  have r := List.all_eq_true.mp h c hc
  unfold runs at r
  split at r
  · exact ⟨_, ‹_›⟩
  · cases r

/-- An operation command that has a next state, as OperationsReadWithoutWriting asks. -/
theorem witness_OperationsReadWithoutWriting : isOperation (.xcopy 0) = true ∧ ∃ t, exec (.xcopy 0) (starter 0x01 4 1 [f1, f2, f3, f1] []) = .next t := ⟨rfl, _, rfl⟩

/-- Commands of EventsStayInTheirBlock, each with operands. -/
def commands_EventsStayInTheirBlock_1 : List Instr :=
  [.bootDone, .digest, .empty, .entropyFail, .enum, .gpioEdge 0, .hoistBuildDone false, .holdoverUpdate, .logRateDown, .msynLock, .msynUnlock,
    .pllLock, .pllUnlock, .refMonitorWindow 0, .regParity, .plotBist 0, .resyncDone, .scanStart, .selftestDone ⟨false, 0⟩, .serdesLock 0,
    .serdesUnlock 0, .tempHigh 0, .coefWriteResume, .bootData]

theorem witness_EventsStayInTheirBlock_1 : ∀ c ∈ commands_EventsStayInTheirBlock_1, ∃ t, exec c hub = .next t :=
  each_runs _ _ (by decide +kernel)

/-- Commands of EventsStayInTheirBlock, each with operands. -/
def commands_EventsStayInTheirBlock_2 : List Instr :=
  [.bootEnd, .connLost 0, .degrTimeout, .otWarn 0, .cniMonitorMean 0 none, .noMatch, .gateSupplyOk ⟨0, 0, 0⟩, .frozenEnd 0, .lcPeriodBoundary,
    .millerTmo 0, .pcieLinkChange false 0 0 false, .drill, .prefReturn, .aloneTimeout, .trunkBringup [] 0 [], .converterStart 0,
    .gatePhaseEnd 0 0, .ssiReadStart 0, .softResetDone 0, .refreshBurst 0, .bptPulse, .ppsOutPulse, .rekeyStart 0, .regRsp]

theorem witness_EventsStayInTheirBlock_2 : ∀ c ∈ commands_EventsStayInTheirBlock_2, ∃ t, exec c hub = .next t :=
  each_runs _ _ (by decide +kernel)

/-- Commands of EventsStayInTheirBlock, each with operands. -/
def commands_EventsStayInTheirBlock_3 : List Instr :=
  [.hoistExpire 0, .mirrorWriteResume, .spiStatus, .chartDeadline, .splitBroadcast 0, .penRequestLaunch 0 0 0 []]

theorem witness_EventsStayInTheirBlock_3 : ∀ c ∈ commands_EventsStayInTheirBlock_3, ∃ t, exec c hub = .next t :=
  each_runs _ _ (by decide +kernel)

/-- Commands of RegisterCommandsStayInTheirBlock, each with operands. -/
def commands_RegisterCommandsStayInTheirBlock_1 : List Instr :=
  [.budgetWrite 0, .cflClear, .commit, .tripClear 0, .run false, .stage, .swap, .swapCancel, .coefDataWrite 0 false, .clrEnable false,
    .handover, .faultClr, .svyArm, .segmentFree 0, .timingApply, .reanchor, .todArm 0, .attest 0, .claimCmd 0, .dbgChallenge 0, .dbgResponse
    0, .endorse 0, .keyErase 0, .keyLoad 0]

theorem witness_RegisterCommandsStayInTheirBlock_1 : ∀ c ∈ commands_RegisterCommandsStayInTheirBlock_1, ∃ t, exec c hub = .next t :=
  each_runs _ _ (by decide +kernel)

/-- Commands of RegisterCommandsStayInTheirBlock, each with operands. -/
def commands_RegisterCommandsStayInTheirBlock_2 : List Instr :=
  [.rollFwd 0, .rekeyNow 0, .bootStreamStart, .bootStreamStop, .suspectClr 0, .push 0, .replace 0, .stop 0, .flush 0, .gearIn 0, .gearOut 0,
    .fblClr 0]

theorem witness_RegisterCommandsStayInTheirBlock_2 : ∀ c ∈ commands_RegisterCommandsStayInTheirBlock_2, ∃ t, exec c hub = .next t :=
  each_runs _ _ (by decide +kernel)

/-- Commands of LargerCommandsKeepTheOtherParts, each with operands. -/
def commands_LargerCommandsKeepTheOtherParts_1 : List Instr :=
  [.strideBoundary [], .cellTableCutoff 0, .hoistTrailerReceived 0 0 [], .hubHeaderCheck 0 0 [], .strideFrame 0 0 [], .hoistPass 0 0 [],
    .cellBoundary [] false false 0 0 [], .otTrip 0, .ov2, .forcedRefill, .delayLineCal 0, .blockLockLoss 0, .retrainOk 0 0, .hopDown 0,
    .ethLinkChange 0 false false false 0 0, .tripActive 0 ⟨false, 0⟩, .deckStartTimeout 0, .gateSupplyLow ⟨0, 0, 0⟩, .desaturation 0 ⟨0, 0⟩,
    .edgMapWrite false 0, .tevFire 0, .calStep false 0 0 0, .deckFrame 0 [], .genLow]

theorem witness_LargerCommandsKeepTheOtherParts_1 : ∀ c ∈ commands_LargerCommandsKeepTheOtherParts_1, ∃ t, exec c hub = .next t :=
  each_runs _ _ (by decide +kernel)

/-- Commands of LargerCommandsKeepTheOtherParts, each with operands. -/
def commands_LargerCommandsKeepTheOtherParts_2 : List Instr :=
  [.gateEnWrite 0, .ringBringup 0 false 0 [] (0, 0) (0, 0), .ringTakeDown 0, .trunkHoistReceived 0 0 [], .stepApply, .penTmo 0 0 0, .hubCred 0,
    .cellCred 0, .keyWrap 0 0, .keyAck 0, .latAdj 0 0 ⟨0, 0, 0, 0⟩, .hopRelease 0 0, .linkBypass 0 0, .syncTimeout ⟨0, 0⟩, .announceTimeout
    ⟨0, 0⟩, .ppsInEdge 0, .ppsMissing, .ethFrameRx 0 0 .badFcs, .ethTx 0, .ctrEnable false, .ctgEnable 0 false, .opDispatch 0, .legEnd 0,
    .waitTmo ⟨0, false⟩]

theorem witness_LargerCommandsKeepTheOtherParts_2 : ∀ c ∈ commands_LargerCommandsKeepTheOtherParts_2, ∃ t, exec c hub = .next t :=
  each_runs _ _ (by decide +kernel)

/-- Commands of LargerCommandsKeepTheOtherParts, each with operands. -/
def commands_LargerCommandsKeepTheOtherParts_3 : List Instr :=
  [.chartStart, .waitMet 0, .opComplete 0, .cancel 0, .pushResume 0, .encoderEdge 0 false false ⟨0, 0⟩, .hallChange 0 false false false ⟨0, 0⟩,
    .index 0 ⟨0, 0⟩, .latch 0 false ⟨0, 0⟩, .hallInvalid 0, .lineFault 0 0 false, .ssiReadDone 0 0 0 0 0, .fbkValid 0, .datumArm 0 0,
    .clkOutWrite 0 0, .hostRingPiWrite 0 0, .evtPendWrite 0 ⟨0, 0⟩, .evtRawWrite 0 ⟨0, 0⟩, .evtForce 0 0, .qspiStart 0, .bootGo, .datumSet
    0, .swLatch 0, .freeze 0 false]

theorem witness_LargerCommandsKeepTheOtherParts_3 : ∀ c ∈ commands_LargerCommandsKeepTheOtherParts_3, ∃ t, exec c hub = .next t :=
  each_runs _ _ (by decide +kernel)

/-- Commands of LargerCommandsKeepTheOtherParts, each with operands. -/
def commands_LargerCommandsKeepTheOtherParts_4 : List Instr :=
  [.latchPop 0, .cmpArm 0 0 0, .startEvent 0 0, .frozen 0, .sliceFrozen 0 0, .cniWindowClose 0 0 0 0 false, .scanDone [], .svLost 0, .pmuReport
    [] 0 false, .pmuIntRecord [], .levelTrigger 0 [] 0 0, .slopeTrigger 0 [] 0 0, .patternTrigger 0 0 0, .groupWritten 0 [] false 0,
    .svyRdData 0, .front 0 [] [] 0 0, .peerResend, .ringDig 0 [], .lateFrame 0 [], .mirrorFrame 0 [], .stateFrame 0 [], .safetyCycle 0 false
    false [] [] 0 0 0, .supFault false, .netLost 0 0]

theorem witness_LargerCommandsKeepTheOtherParts_4 : ∀ c ∈ commands_LargerCommandsKeepTheOtherParts_4, ∃ t, exec c hub = .next t :=
  each_runs _ _ (by decide +kernel)

/-- Commands of LargerCommandsKeepTheOtherParts, each with operands. -/
def commands_LargerCommandsKeepTheOtherParts_5 : List Instr :=
  [.keyExpired 0, .priorityRequest 0, .islandRelease 0, .supSample [] [], .bar2Write 0 [] ⟨[], 0, 0⟩, .scrubPass 0 [], .ringWriteResume 0,
    .dmaHostToSram 0 [] [], .dmaSramToHost 0 0, .dmaNoTransfer 0, .dmaComplete 0, .qspiDone [], .pcieReset, .pageLock 0, .pageUnlock 0,
    .faultAck, .safReset, .rcFieldRead ⟨0, 0, 0⟩ 0, .electricalCompareFire 0 0, .sortStageStart, .sortStageDone, .edgeStageStart,
    .edgeStageDone, .flagDeadline]

theorem witness_LargerCommandsKeepTheOtherParts_5 : ∀ c ∈ commands_LargerCommandsKeepTheOtherParts_5, ∃ t, exec c hub = .next t :=
  each_runs _ _ (by decide +kernel)

/-- Commands of LargerCommandsKeepTheOtherParts, each with operands. -/
def commands_LargerCommandsKeepTheOtherParts_6 : List Instr :=
  [.orphanTimeout, .bootWindowExpiry, .edgeAction, .bootRetry, .accountUpdate, .genClear, .switchReq, .snapshotRead, .stageCheckDone, .disarm,
    .force, .frontPop, .resyncTransfer, .cmdDone, .arbiterCycle, .keyAgreeOperationDone, .entropyOk, .spiRead 0 ⟨true, false⟩, .regRd]

theorem witness_LargerCommandsKeepTheOtherParts_6 : ∀ c ∈ commands_LargerCommandsKeepTheOtherParts_6, ∃ t, exec c hub = .next t :=
  each_runs _ _ (by decide +kernel)


/-! Headers and frames that verify under a key. -/

/-- The first 24 bytes of a hoist header of unit 1 (HFLAGS.UNIT), term 1, key index 3, SEQ 9. -/
def head24 : Bytes :=
  leBytes 6 1 ++ leBytes 4 0 ++ leBytes 2 1 ++ leBytes 1 5 ++ leBytes 1 3 ++ leBytes 2 4 ++ leBytes 4 9 ++ leBytes 1 0 ++ leBytes 1 0 ++ leBytes 2 0
/-- The same with its HTAG under the key 07. -/
def tagged : Bytes := head24 ++ tagBytes 4 [7] (linkNonce 1 (parseHead head24) 0) head24
/-- The header with its HCRC. -/
def sealedHead : Bytes := tagged ++ leBytes 4 (crc32 tagged)

theorem sealed_head (keyOf : Nat → Option Bytes) (near : Nat) (rest : Bytes) (hk : keyOf 3 = some [7]) :
    headOk false keyOf near (sealedHead ++ rest) = some (parseHead head24) := by
  have c : hcrcOk (sealedHead ++ rest) = true := by
    have a : sliceBytes (sealedHead ++ rest) 28 4 = leBytes 4 (crc32 tagged) := rfl
    have b : sliceBytes (sealedHead ++ rest) 0 28 = tagged := rfl
    simp only [hcrcOk, leAt, a, b, ofLe_crc32, beq_self_eq_true]
  have g : htagOk [7] (sealedHead ++ rest) = true := by
    have a : sliceBytes (sealedHead ++ rest) 24 4
        = tagBytes 4 [7] (linkNonce 1 (parseHead (sealedHead ++ rest)) 0) (sliceBytes (sealedHead ++ rest) 0 24) := rfl
    simp only [htagOk, a, beq_self_eq_true]
  have p : parseHead (sealedHead ++ rest) = parseHead head24 := rfl
  have k : (parseHead head24).keyIdx = 3 := rfl
  simp only [headOk, Bool.false_eq_true, if_false, p, k, hk, c, g, Bool.and_self, if_true]


/-- A hub of a pair, standby, with a dual-ended ring under a key. -/
def keyedHub : State :=
  let s := put (ringed hub 5 1) [(BNC.RING_TBL_TOPO,0,0,2),(PG.ENABLE,0x90,0,1),(CLR.STAT_STATE,0,0,3),(CLR.STAT_TERM,0,0,1),(CLR.STAT_HOLDER,0,0,1)]
  s.modRing 0 fun x => { x with key := [7], keyIdx := 3 }

theorem witness_HoistsReturnOrExpire_lease : keyedHub.awake = true ∧ keyedHub.isHub = true ∧ keyedHub.portRing 0 = some (0, 0) ∧
   headOk (keyedHub.legacyRing 0) (keyedHub.ring 0).keyOf keyedHub.mer.seq sealedHead = some (parseHead head24) ∧
   keyedHub.paired = true ∧ keyedHub.topo 0 = 2 ∧ (parseHead head24).unit ≠ keyedHub.unit ∧ keyedHub.clr = 3 ∧ (parseHead head24).term ≠ 0 ∧
   (parseHead head24).term = keyedHub.rd CLR.STAT_TERM ∧ (parseHead head24).unit = keyedHub.rd CLR.STAT_HOLDER := by
  have a : keyedHub.legacyRing 0 = false := by decide +kernel
  have b := sealed_head (keyedHub.ring 0).keyOf keyedHub.mer.seq [] (by decide +kernel)
  rw [List.append_nil] at b
  refine ⟨by decide +kernel, by decide +kernel, by decide +kernel, ?_, ?_⟩
  · rw [a]; exact b
  · decide +kernel

/-- A trunk hoist without records whose pennant is a key message, with its TCRC. -/
def trunkBody : Bytes := sealedHead ++ ([0x20] ++ List.replicate 63 0)
def trunkData : Bytes := trunkBody ++ leBytes 4 (crc32 trunkBody)

theorem trunk_crc : tcrcOk trunkData = true := by
  have n : trunkData.length = 100 := rfl
  have a : sliceBytes trunkData 96 4 = leBytes 4 (crc32 trunkBody) := rfl
  have b : trunkData.take 96 = trunkBody := rfl
  simp only [tcrcOk, n, Nat.reduceSub, leAt, a, b, ofLe_crc32, beq_self_eq_true]

def keyedTrunk : State :=
  let s := put { hub with trunk := { hub.trunk with service := true } } [(BNT.PORT_CTL_EN,47,0,1),(BNT.PORT_CTL_USE,47,0,2)]
  s.modRing 48 fun x => { x with key := [7], keyIdx := 3 }

theorem witness_RingsComeUpAndGoDown_trunk : keyedTrunk.awake = true ∧ keyedTrunk.isHub = true ∧ keyedTrunk.isBranch = false ∧ 47 ∈ keyedTrunk.downPorts ∧
    keyedTrunk.trunk.service = true ∧
    ((keyedTrunk.advanceTo 0).trunkChecked 47 trunkData).2 = some (parseHead head24, true) := by
  refine ⟨by decide +kernel, by decide +kernel, by decide +kernel, by decide +kernel, by decide +kernel, ?_⟩
  have h : headOk false (keyedTrunk.advanceTo 0).trunkKeyOf (keyedTrunk.advanceTo 0).mer.seq trunkData = some (parseHead head24) := by
    unfold trunkData trunkBody
    rw [List.append_assoc]
    exact sealed_head _ _ _ (by decide +kernel)
  have p : leAt (sliceBytes trunkData (32 + 16 * (parseHead head24).count) 64) 0 1 = 0x20 := rfl
  unfold State.trunkChecked
  simp only [h, trunk_crc, if_true, p]

/-- A twin frame of hub B without payload: type 2, FSEQ 1, its tag under the key 07 and its TCRC. -/
def twinHead : Bytes := leBytes 1 2 ++ leBytes 1 1 ++ leBytes 2 0 ++ leBytes 4 1 ++ List.replicate 8 0
def twinBody : Bytes := twinHead ++ tagBytes 8 [7] (leBytes 1 6 ++ leBytes 1 1 ++ leBytes 1 2 ++ leBytes 1 0 ++ leBytes 4 1 ++ leBytes 4 0) twinHead
def twinFrame : Bytes := twinBody ++ leBytes 4 (crc32 twinBody)

def twinHub : State :=
  let s := put hub [(PG.ENABLE,0x90,0,1),(PG.ENABLE,0x41,0,1),(TWN.CTL_LANE_EN,0,0,3)]
  { s with pair := { s.pair with key := [7] } }

theorem witness_TwinFramesAreTakenOrCounted_taken : (twinHub.twinTake 0 2 twinFrame).2 = true := by
  have n : twinFrame.length = 28 := rfl
  have c : tcrcOk twinFrame = true := by
    have a : sliceBytes twinFrame 24 4 = leBytes 4 (crc32 twinBody) := rfl
    have b : twinFrame.take 24 = twinBody := rfl
    simp only [tcrcOk, n, Nat.reduceSub, leAt, a, b, ofLe_crc32, beq_self_eq_true]
  have l : leAt twinFrame 2 2 = 0 := rfl
  have t : leAt twinFrame 0 1 = 2 := rfl
  have u : leAt twinFrame 1 1 = 1 := rfl
  have f : leAt twinFrame 4 4 = 1 := rfl
  have k : twinHub.pair.key = [7] := rfl
  have g : sliceBytes twinFrame 16 8 = tagBytes 8 [7] (leBytes 1 6 ++ leBytes 1 1 ++ leBytes 1 2 ++ leBytes 1 0 ++ leBytes 4 1 ++ leBytes 4 0)
      (sliceBytes twinFrame 0 16) := rfl
  have on : (!twinHub.paired || !twinHub.pageOn41 || !bitOf (twinHub.rd TWN.CTL_LANE_EN) 0) = false := by decide +kernel
  have v : twinHub.pair.lastF = none := rfl
  have w : twinHub.peerUnit = 1 := by decide +kernel
  unfold State.twinTake
  simp only [on, n, c, l, t, u, f, k, g, v, w]
  simp

/-! Values that the interpreter cannot close. -/

/-- A hub whose Ethernet port 3 is that of PTP engine 0. -/
def etherHub : State := put hub [(PG.ENABLE,0xAB,0,1),(PG.ENABLE,9,0,1),(PTP.CFG_PORT,0,0,3)]

theorem witness_EthernetPortsReceiveAndSend_taken : etherHub.awake = true ∧ etherHub.isHub = true ∧ etherHub.onI PG.ENABLE 0xAB = true ∧
    etherHub.pageActive 0xAB = true ∧ frameLong (.ptp none 0 .absent (.pdelayReq 4)) = false ∧
    ∃ u, (etherHub.advanceTo 1000).etherTake 3 (etherHub.rxStamp 3 1000) (.ptp none 0 .absent (.pdelayReq 4)) = some u :=
  ⟨by decide +kernel, by decide +kernel, by decide +kernel, by decide +kernel, rfl, Option.isSome_iff_exists.mp (by decide +kernel)⟩

theorem witness_LargerCommandsKeepTheOtherParts_regRd : ∀ q ∈ hub.pens, q.isType 2 = false := by decide +kernel

/-- A holder with a Chart that writes one slot and no time left in the stride for a transfer. -/
def loaded : State :=
  let s := put (chart hub [opR 4 0] [descB 0x01 0 0 0 0 0 0 [] [7] 0])
    [(PG.ENABLE,0x90,0,1),(PG.ENABLE,0x41,0,1),(CLR.STAT_STATE,0,0,4),(CLR.PEER_PEER_STATE,0,0,2)]
  { s with ctr := { s.ctr with dl := 100 } }

theorem witness_PairChangesItsHolder_resync : loaded.awake = true ∧ loaded.paired = true ∧ loaded.clr = 4 ∧ loaded.rd CLR.PEER_PEER_STATE = 2 ∧
    loaded.showRsync.rd TWN.RSYNC_CAPACITY < loaded.showRsync.rd TWN.RSYNC_CARRIED := by
  refine ⟨by decide +kernel, by decide +kernel, by decide +kernel, by decide +kernel, ?_⟩
  have a : (loaded.scratchAreas ++ loaded.writtenSlots).foldl (fun a x => a + x.2) 0 = 16 := by decide +kernel
  have b : (((100 - loaded.ctr.dl : Nat) * loaded.strideT / 100 : Nat) - ((300 * ns : Nat) : Int)).toNat = 0 := by decide +kernel
  have hc : loaded.showRsync.rd TWN.RSYNC_CAPACITY = 0 := by
    unfold State.showRsync
    simp only [State.rd, State.wr, State.rdA_wrA_same]
    have : ∀ x : Int, x.toNat = 0 → (x * 5 / (2 * ns : Nat)).toNat = 0 := by
      intro x hx
      have : x ≤ 0 := Int.toNat_eq_zero.mp hx
      have : x * 5 / (2 * ns : Nat) ≤ 0 := Int.ediv_le_of_le_mul (by decide) (by omega)
      omega
    rw [this _ b]; rfl
  have hr : loaded.showRsync.rd TWN.RSYNC_CARRIED = satNat 16 (16 + Config.carriedFixed) % 2 ^ 16 := by
    unfold State.showRsync
    simp only [State.rd, State.wr]
    rw [State.rdA_wrA_other _ _ _ _ _ _ _ _ (by decide), State.rdA_wrA_same, a]
    rfl
  rw [hc, hr]
  simp only [satNat]; omega

end Sys2Proof.Tests
end

namespace Sys2Proof.Machine

/-! What a command that is awake completes with. -/

/-- A command that runs under `live` completes with what its effect gives. -/
theorem completes_live {c : Instr} {s : State} {eff : State → State} {P : State → Prop} (ha : s.awake = true)
    (he : exec c s = s.live eff) (hp : P (s.keep (eff s))) : Completes c s P :=
  ⟨_, he.trans (s.live_awake eff ha), hp⟩

/-- A register write that reaches its block completes with what the block does. -/
theorem completes_write {c : Instr} {s : State} {page ofs : Nat} {value : State → Nat} {eff : State → State} {P : State → Prop}
    (hw : WriteReaches s page ofs) (he : exec c s = s.live fun s => s.busWrite page ofs (value s) eff)
    (hp : P (s.keep (eff (s.used page)))) : Completes c s P :=
  ⟨_, he.trans (s.live_reaches page ofs value eff hw), hp⟩

/-! Registers. -/

/-- A saturating counter raised by one reads one more, or its largest value. -/
@[simp] theorem State.rdA_inc_same (s : State) (f : RegField) : (s.inc f).rdA f 0 0 = min (s.rdA f 0 0 + 1) (2 ^ f.width - 1) := by
  simp only [State.inc, State.addCntA, State.rdA_wrA_same, satNat]
  exact Nat.mod_eq_of_lt (by have : 0 < 2 ^ f.width := by positivity
                             omega)

theorem State.rdA_inc_other (s : State) (f g : RegField) (pg idx : Nat) (h : g.key pg idx ≠ f.key 0 0) :
    (s.inc f).rdA g pg idx = s.rdA g pg idx :=
  State.rdA_wrA_other s f g 0 0 _ pg idx h

@[simp] theorem State.inc_graph (s : State) (f : RegField) : (s.inc f).graph = s.graph := rfl

/-- A bit set leaves the bits below it as they were. -/
theorem bitOf_putBit_below (x i j : Nat) (b : Bool) (h : j < i) : bitOf (putBit x i b) j = bitOf x j := by
  have low : putBit x i b % 2 ^ i = x % 2 ^ i := by
    unfold putBit putBits
    have e : x / 2 ^ (i + 1) * 2 ^ (i + 1) + (if b = true then 1 else 0) % 2 ^ 1 * 2 ^ i + x % 2 ^ i
        = x % 2 ^ i + 2 ^ i * (x / 2 ^ (i + 1) * 2 + (if b = true then 1 else 0) % 2 ^ 1) := by
      rw [pow_succ]; ring
    rw [e, Nat.add_mul_mod_self_left, Nat.mod_mod]
  rw [← bitOf_mod _ _ _ h, low, bitOf_mod _ _ _ h]

/-- An event raised before one of a higher number of its page still stands (R629). -/
theorem Raised.raise_above {page n m : Nat} {s : State} (h : Raised page n s) (hn : n < m) (hm : n < 32) :
    Raised page n (s.raise page m) := by
  have w : bitOf ((s.wrA PG.EVT_RAW page 0 (putBit (s.rdA PG.EVT_RAW page 0) m true)).rdA PG.EVT_RAW page 0) n = true := by
    rw [State.rdA_wrA_same]
    show bitOf (_ % 2 ^ 32) n = true
    rw [bitOf_mod _ _ _ hm, bitOf_putBit_below _ _ _ _ hn]
    exact h
  unfold Raised State.raise State.bitI State.wrBitI
  dsimp only
  split
  · rw [State.rdA_pend_other]
    · exact w
    · simp [RegField.key, PG.EVT_RAW, PG.EVT_PEND]
  · exact w

/-- What the failed accesses of a page write in the register file: PG_ERR of the page, and the event of the HIF page (R645, R648). -/
def errKeys (page : Nat) : List Nat :=
  [PG.ERR_OFFSET.key page 0, PG.ERR_CODE.key page 0, PG.ERR_COUNT.key page 0, PG.EVT_RAW.key 0xB0 0, PG.EVT_PEND.key 0xB0 0]

theorem State.rdA_accessErr_other (s : State) (page ofs c : Nat) (g : RegField) (pg idx : Nat) (h : g.key pg idx ∉ errKeys page) :
    (s.accessErr page ofs c).rdA g pg idx = s.rdA g pg idx := by
  simp only [errKeys, List.mem_cons, List.not_mem_nil, or_false, not_or] at h
  obtain ⟨ho, hc, hn, hr, hp⟩ := h
  show ((((s.wrA PG.ERR_OFFSET page 0 ofs).wrA PG.ERR_CODE page 0 c).incI PG.ERR_COUNT page).raiseIf (page == 0xB0) 0xB0 3).rdA g pg idx = _
  rw [State.rdA_raiseIf_other _ _ _ _ _ _ _ hr hp, State.incI, State.addCntA, State.rdA_wrA_other _ _ _ _ _ _ _ _ hn,
    State.rdA_wrA_other _ _ _ _ _ _ _ _ hc, State.rdA_wrA_other _ _ _ _ _ _ _ _ ho]

/-- A failed access to a page other than HIF's shows its code in PG_ERR (R645). -/
theorem State.accessErr_code (s : State) (page ofs c : Nat) (h : page ≠ 0xB0) :
    (s.accessErr page ofs c).rdA PG.ERR_CODE page 0 = c % 16 := by
  show ((((s.wrA PG.ERR_OFFSET page 0 ofs).wrA PG.ERR_CODE page 0 c).incI PG.ERR_COUNT page).raiseIf (page == 0xB0) 0xB0 3).rdA
    PG.ERR_CODE page 0 = _
  have hb : (page == 0xB0) = false := by simpa using h
  rw [hb, State.raiseIf, if_neg (by simp), State.incI, State.addCntA, State.rdA_wrA_other, State.rdA_wrA_same]
  · rfl
  · simp [RegField.key, PG.ERR_CODE, PG.ERR_COUNT]

theorem State.rdA_noteErrors_other (s : State) (page ofs v : Nat) (g : RegField) (pg idx : Nat) (h : g.key pg idx ∉ errKeys page) :
    (s.noteErrors page ofs v).rdA g pg idx = s.rdA g pg idx :=
  foldl_keeps (fun t => t.rdA g pg idx) _ (fun t c => t.rdA_accessErr_other page ofs c g pg idx h) _ s

@[simp] theorem State.noteErrors_graph (s : State) (page ofs v : Nat) : (s.noteErrors page ofs v).graph = s.graph :=
  foldl_keeps State.graph _ (fun t c => t.accessErr_graph page ofs c) _ s

@[simp] theorem State.noteErrors_mer (s : State) (page ofs v : Nat) : (s.noteErrors page ofs v).mer = s.mer :=
  foldl_keeps State.mer _ (fun t c => t.accessErr_mer page ofs c) _ s

@[simp] theorem State.rdA_used (s : State) (page : Nat) (f : RegField) (pg idx : Nat) : (s.used page).rdA f pg idx = s.rdA f pg idx := rfl
@[simp] theorem State.used_mer (s : State) (page : Nat) : (s.used page).mer = s.mer := rfl
@[simp] theorem State.used_graph (s : State) (page : Nat) : (s.used page).graph = s.graph := rfl

/-! The graph engine changed. -/

@[simp] theorem State.modGraph_graph (s : State) (f : GraphState → GraphState) : (s.modGraph f).graph = f s.graph := rfl
@[simp] theorem State.rdA_modGraph (s : State) (f : GraphState → GraphState) (g : RegField) (pg idx : Nat) :
    (s.modGraph f).rdA g pg idx = s.rdA g pg idx := rfl

@[simp] theorem State.byte_modGraph (s : State) (f : GraphState → GraphState) (a : Nat) : (s.modGraph f).byte a = s.byte a := rfl
@[simp] theorem State.modGraph_sram (s : State) (f : GraphState → GraphState) : (s.modGraph f).sram = s.sram := rfl
@[simp] theorem State.modGraph_sramBad (s : State) (f : GraphState → GraphState) : (s.modGraph f).sramBad = s.sramBad := rfl
@[simp] theorem State.modGraph_freeCtr (s : State) (f : GraphState → GraphState) : (s.modGraph f).freeCtr = s.freeCtr := rfl
@[simp] theorem State.modOp_sram (s : State) (d : Nat) (f : OpRun → OpRun) : (s.modOp d f).sram = s.sram := rfl
@[simp] theorem State.modOp_sramBad (s : State) (d : Nat) (f : OpRun → OpRun) : (s.modOp d f).sramBad = s.sramBad := rfl
@[simp] theorem State.modOp_freeCtr (s : State) (d : Nat) (f : OpRun → OpRun) : (s.modOp d f).freeCtr = s.freeCtr := rfl
@[simp] theorem State.modOp_graph (s : State) (d : Nat) (f : OpRun → OpRun) :
    (s.modOp d f).graph = { s.graph with ops := modAt s.graph.ops d f } := rfl
@[simp] theorem State.rdA_modOp (s : State) (d : Nat) (f : OpRun → OpRun) (g : RegField) (pg idx : Nat) :
    (s.modOp d f).rdA g pg idx = s.rdA g pg idx := rfl

/-- A descriptor's run is held in the graph engine alone. -/
theorem State.op_congr {s t : State} (h : t.graph = s.graph) (d : Nat) : t.op d = s.op d := by simp only [State.op, h]

@[simp] theorem State.op_inc (s : State) (f : RegField) (d : Nat) : (s.inc f).op d = s.op d := rfl
@[simp] theorem State.op_raise (s : State) (page n d : Nat) : (s.raise page n).op d = s.op d := State.op_congr (by simp) d
@[simp] theorem State.op_advanceTo (s : State) (t d : Nat) : (s.advanceTo t).op d = s.op d := State.op_congr (by simp) d

/-- The graph engine changed elsewhere than in its descriptors' runs. -/
theorem State.op_modGraph (s : State) (f : GraphState → GraphState) (d : Nat) (h : (f s.graph).ops = s.graph.ops) :
    (s.modGraph f).op d = s.op d := by
  simp only [State.op, State.modGraph_graph, h]

theorem State.op_modOp_same (s : State) (d : Nat) (f : OpRun → OpRun) (h : d < s.graph.ops.length) :
    (s.modOp d f).op d = f (s.op d) := by
  simp [State.op, modAt, List.getD_eq_getElem?_getD, h]

theorem State.op_modOp_other (s : State) (d e : Nat) (f : OpRun → OpRun) (h : d ≠ e) : (s.modOp d f).op e = s.op e := by
  simp [State.op, modAt, List.getD_eq_getElem?_getD, h]

/-- An operation that has left its first state is one of the active Chart. -/
theorem State.lt_of_op_st {s : State} {d : Nat} (h : (s.op d).st ≠ 0) : d < s.graph.ops.length := by
  by_contra hd
  exact h (by rw [State.op, List.getD_eq_default _ _ (Nat.le_of_not_lt hd)]; rfl)

theorem OpRun.st_of_inWait {r : OpRun} (h : r.inWait = true) : r.st = 3 := by
  simp only [OpRun.inWait, Bool.and_eq_true, beq_iff_eq] at h
  obtain ⟨⟨hst, -⟩, -⟩ := h
  exact hst

end Sys2Proof.Machine

namespace Sys2Proof.Machine

/-! What reads of the SRAM rest on: descriptors, successor lists and signals. -/

theorem State.memBad_congr {s t : State} (h : t.sramBad = s.sramBad) : t.memBad = s.memBad := by
  funext a n
  simp only [State.memBad, h]

theorem State.byte_congr {s t : State} (h : t.sram = s.sram) : t.byte = s.byte := by
  funext a
  simp only [State.byte, h]

/-- A little-endian read rests on the bytes, the words in error and the free values. -/
theorem State.memLe_congr {s t : State} (hm : t.sram = s.sram) (hb : t.sramBad = s.sramBad) (hf : t.freeCtr = s.freeCtr) :
    t.memLe = s.memLe := by
  funext a n
  simp only [State.memLe, State.bytesRead, State.memBad_congr hb, State.byte_congr hm, hf]

/-- The descriptors of the active Chart rest on the SRAM and the active half. -/
theorem State.desc_congr {s t : State} (hm : t.memLe = s.memLe) (ha : t.rd GRF.STAT_ACTIVE_HALF = s.rd GRF.STAT_ACTIVE_HALF) :
    t.desc = s.desc := by
  funext d
  simp only [State.desc, State.activeBase, State.descOf, State.descAddr, hm, ha]

@[simp] theorem State.desc_modGraph (s : State) (f : GraphState → GraphState) : (s.modGraph f).desc = s.desc :=
  State.desc_congr (State.memLe_congr rfl rfl rfl) rfl
@[simp] theorem State.desc_modOp (s : State) (d : Nat) (f : OpRun → OpRun) : (s.modOp d f).desc = s.desc :=
  State.desc_congr (State.memLe_congr rfl rfl rfl) rfl
@[simp] theorem State.desc_advanceTo (s : State) (t : Nat) : (s.advanceTo t).desc = s.desc :=
  State.desc_congr (State.memLe_congr (by simp) (by simp) (by simp)) (State.rdA_advanceTo _ _ _ _ _)

/-- Counters of the scheduler's page leave the descriptors as they are. -/
theorem State.desc_inc (s : State) (f : RegField) (h : GRF.STAT_ACTIVE_HALF.key 0 0 ≠ f.key 0 0) : (s.inc f).desc = s.desc :=
  State.desc_congr (State.memLe_congr rfl rfl rfl) (State.rdA_inc_other _ _ _ _ _ h)

theorem State.desc_raise (s : State) (page n : Nat) (hr : GRF.STAT_ACTIVE_HALF.key 0 0 ≠ PG.EVT_RAW.key page 0)
    (hp : GRF.STAT_ACTIVE_HALF.key 0 0 ≠ PG.EVT_PEND.key page 0) : (s.raise page n).desc = s.desc :=
  State.desc_congr (State.memLe_congr (by simp) (by simp) (by simp)) (State.rdA_raise_other _ _ _ _ _ _ hr hp)

/-- A wait's condition rests on the graph engine through the samples, those of the last boundary, and those of the run's start (Table 8-6). -/
theorem State.waitHolds_modGraph (s : State) (f : GraphState → GraphState) (d : Nat) (hs : (f s.graph).samples = s.graph.samples)
    (hb : (f s.graph).atBound = s.graph.atBound) (ho : ((s.modGraph f).op d).base = (s.op d).base) :
    (s.modGraph f).waitHolds d = s.waitHolds d := by
  simp only [State.waitHolds, State.desc_modGraph, State.modGraph_graph, hs, hb, ho,
    State.memLe_congr (s := s) (t := s.modGraph f) rfl rfl rfl]
  rfl

theorem State.waitHolds_modOp (s : State) (d : Nat) (f : OpRun → OpRun) (h : (f (s.op d)).base = (s.op d).base)
    (hd : d < s.graph.ops.length) : (s.modOp d f).waitHolds d = s.waitHolds d :=
  s.waitHolds_modGraph _ d rfl rfl (by rw [← State.modOp, State.op_modOp_same _ _ _ hd, h])

/-! Dispatch (R302, R306, R314). -/

/-- With no Plotter free, or in a cycle that has had its dispatch, nothing is dispatched. -/
theorem State.dispatch_none (s : State) (t : Nat)
    (h : s.freePlotter = none ∨ s.graph.dispAt.any (sameCycle s.schedCyc t) = true) : s.dispatch t = s := by
  unfold State.dispatch
  rcases h with h | h <;> simp [h]

/-- The first candidate is dispatched unless it needs a leg-save slot and none is free. -/
theorem State.choose_head (s : State) {cs : List (Nat × Bool)} {d : Nat} {r : Bool} (h : cs.head? = some (d, r))
    (hc : r = true ∨ (s.desc d).waitEn = false ∨ s.waitHolds d = true ∨ s.waiting < 128) : s.choose cs = (s, some (d, r)) := by
  cases cs with
  | nil => simp at h
  | cons c rest =>
    obtain rfl : c = (d, r) := by simpa using h
    rw [State.choose, if_pos]
    rcases hc with hc | hc | hc | hc <;> simp [hc]

/-- The state of a cycle that dispatches at `t`. -/
def State.dispatched (s : State) (t : Nat) : State := s.modGraph fun g => { g with dispAt := some t }

/-- A ready operation taken from its ring at `t`, with its cycles counted. -/
def State.takeReady (s : State) (d t : Nat) : State :=
  ((s.dispatched t).modGraph fun g => { g with ready := g.ready.erase d }).modOp d fun r =>
    { r with left := s.costOf (s.desc d) }

/-- An operation's cost rests on memory and registers (Table 9-1). -/
@[simp] theorem State.costOf_modGraph (s : State) (f : GraphState → GraphState) (x : Desc) : (s.modGraph f).costOf x = s.costOf x := rfl

/-- A resumable operation at the head is put on the free Plotter. -/
theorem State.dispatch_resumable (s : State) {t p d : Nat} (hn : s.graph.dispAt.any (sameCycle s.schedCyc t) = false)
    (hp : s.freePlotter = some p) (hc : (s.candidates t).head? = some (d, true)) :
    s.dispatch t = ((s.dispatched t).modGraph fun g => { g with resume := g.resume.erase d }).execute d p t := by
  unfold State.dispatch
  simp [hn, hp, s.choose_head hc (.inl rfl), State.dispatched]

/-- A ready operation at the head is put on the free Plotter, or starts its wait. -/
theorem State.dispatch_ready (s : State) {t p d : Nat} (hn : s.graph.dispAt.any (sameCycle s.schedCyc t) = false)
    (hp : s.freePlotter = some p) (hc : (s.candidates t).head? = some (d, false)) (hd : d < s.graph.ops.length)
    (hw : (s.desc d).waitEn = false ∨ s.waitHolds d = true ∨ s.waiting < 128) :
    s.dispatch t = if !(s.desc d).waitEn || s.waitHolds d then (s.takeReady d t).execute d p t
      else (s.takeReady d t).modOp d fun r => { r with st := 3, waitEnd := t + (s.desc d).wtmo * ns } := by
  have hh : (s.takeReady d t).waitHolds d = s.waitHolds d := by
    unfold State.takeReady State.dispatched
    rw [State.waitHolds_modOp, State.waitHolds_modGraph _ _ _ rfl rfl rfl, State.waitHolds_modGraph _ _ _ rfl rfl rfl]
    exacts [rfl, hd]
  rw [← hh]
  unfold State.dispatch
  simp [hn, hp, s.choose_head hc (.inr hw), State.takeReady, State.dispatched]

theorem State.execute_op (s : State) (d p t : Nat) (hd : d < s.graph.ops.length) :
    (s.execute d p t).op d = { s.op d with st := 2, preempt := false, resume := false, legAt := t + 2 * s.schedCyc } := by
  rw [State.execute, State.op_modGraph _ _ _ rfl, State.op_modOp_same _ _ _ hd]

theorem State.execute_plot (s : State) (d p t : Nat) (hp : p < s.graph.plot.length) :
    (s.execute d p t).graph.plot.getD p none = some d := by
  simp [State.execute, setAt, List.getD_eq_getElem?_getD, hp]

theorem State.length_takeReady (s : State) (d t : Nat) : (s.takeReady d t).graph.ops.length = s.graph.ops.length := by
  simp [State.takeReady, State.dispatched, modAt]

/-- OP_DISPATCH of a ready operation that need not wait: it executes (R302, R306). -/
theorem dispatch_executes (u : State) {d p : Nat} (hn : u.graph.dispAt.any (sameCycle u.schedCyc u.mer.mer) = false)
    (hp : u.freePlotter = some p) (hpl : p < u.graph.plot.length) (hd : d < u.graph.ops.length)
    (hc : (u.candidates u.mer.mer).head? = some (d, false)) (hw : (u.desc d).waitEn = false ∨ u.waitHolds d = true) :
    ∃ v, u.dispatch u.mer.mer = v ∧ (v.op d).st = 2 ∧ (v.op d).legAt = u.mer.mer + 2 * u.schedCyc ∧
      v.graph.ready = u.graph.ready.erase d ∧ v.graph.plot.getD p none = some d ∧ v.graph.dispAt = some u.mer.mer := by
  have run : (!(u.desc d).waitEn || u.waitHolds d) = true := by rcases hw with h | h <;> simp [h]
  refine ⟨_, rfl, ?_⟩
  rw [u.dispatch_ready hn hp hc hd (by tauto), if_pos run, State.execute_op _ _ _ _ (by rwa [State.length_takeReady])]
  exact ⟨rfl, rfl, rfl, State.execute_plot _ _ _ _ hpl, rfl⟩

/-- OP_DISPATCH of a ready operation whose wait does not hold: it waits, and its Plotter stays free (R306, R308). -/
theorem dispatch_waits (u : State) {d p : Nat} (hn : u.graph.dispAt.any (sameCycle u.schedCyc u.mer.mer) = false)
    (hp : u.freePlotter = some p) (hd : d < u.graph.ops.length)
    (hc : (u.candidates u.mer.mer).head? = some (d, false)) (he : (u.desc d).waitEn = true) (hh : u.waitHolds d = false)
    (hw : u.waiting < 128) :
    ∃ v, u.dispatch u.mer.mer = v ∧ (v.op d).st = 3 ∧ (v.op d).waitEnd = u.mer.mer + (u.desc d).wtmo * ns ∧
      v.graph.plot = u.graph.plot := by
  refine ⟨_, rfl, ?_⟩
  rw [u.dispatch_ready hn hp hc hd (.inr (.inr hw)), if_neg (by simp [he, hh]),
    State.op_modOp_same _ _ _ (by rwa [State.length_takeReady])]
  exact ⟨rfl, rfl, rfl⟩

/-- OP_DISPATCH of a resumable operation: it executes again (R302). -/
theorem dispatch_resumes (u : State) {d p : Nat} (hn : u.graph.dispAt.any (sameCycle u.schedCyc u.mer.mer) = false)
    (hp : u.freePlotter = some p) (hpl : p < u.graph.plot.length) (hd : d < u.graph.ops.length)
    (hc : (u.candidates u.mer.mer).head? = some (d, true)) :
    ∃ v, u.dispatch u.mer.mer = v ∧ (v.op d).st = 2 ∧ (v.op d).resume = false ∧ v.graph.resume = u.graph.resume.erase d ∧
      v.graph.plot.getD p none = some d := by
  refine ⟨_, rfl, ?_⟩
  rw [u.dispatch_resumable hn hp hc, State.execute_op]
  case hd => exact hd
  exact ⟨rfl, rfl, rfl, State.execute_plot _ _ _ _ hpl⟩

end Sys2Proof.Machine

namespace Sys2Proof.Machine

/-! Leg ends and waits (R304, R305, R308, R309). -/

/-- An operation whose Plotter is freed executes on none. -/
theorem State.not_mem_freePlot (s : State) (d : Nat) : some d ∉ (s.freePlot d).graph.plot := by
  simp only [State.freePlot, State.modGraph_graph, List.mem_map, not_exists, not_and]
  intro p _
  split
  · simp
  · assumption

theorem State.mem_enterRun (s : State) (l : List Nat) (d c : Nat) : d ∈ s.enterRun l d c := by simp [State.enterRun]

theorem State.mem_enterResume (s : State) (d c : Nat) : d ∈ (s.enterResume d c).graph.resume := s.mem_enterRun s.graph.resume d c

theorem State.enterResume_op (s : State) (d c : Nat) (h : d < s.graph.ops.length) :
    (s.enterResume d c).op d = { s.op d with resume := true, since := c } := by
  rw [State.enterResume, State.op_modGraph _ _ _ rfl, State.op_modOp_same _ _ _ h]

@[simp] theorem State.rdA_enterResume (s : State) (d c : Nat) (f : RegField) (pg idx : Nat) :
    (s.enterResume d c).rdA f pg idx = s.rdA f pg idx := rfl

/-- A wait that ends makes its operation resumable, with or without the TMO mark (R308). -/
theorem State.endWait_op (s : State) (d : Nat) (tmo : Bool) (h : d < s.graph.ops.length) :
    (s.endWait d tmo).op d = { s.op d with tmo := tmo, resume := true, since := (s.modOp d fun r => { r with tmo := tmo }).schedCycle } := by
  rw [State.endWait, State.enterResume_op _ _ _ (by simpa [modAt] using h), State.op_modOp_same _ _ _ h]
  rfl

theorem State.mem_endWait (s : State) (d : Nat) (tmo : Bool) : d ∈ (s.endWait d tmo).graph.resume := State.mem_enterResume _ _ _

@[simp] theorem State.rdA_endWait (s : State) (d : Nat) (tmo : Bool) (f : RegField) (pg idx : Nat) :
    (s.endWait d tmo).rdA f pg idx = s.rdA f pg idx := rfl

/-- The registers hold the events alone. -/
theorem Raised.congr {s t : State} {page n : Nat} (h : Raised page n s) (hr : t.rdA PG.EVT_RAW page 0 = s.rdA PG.EVT_RAW page 0) :
    Raised page n t := by
  unfold Raised State.bitI at *
  rwa [hr]

/-- The next leg of an operation begun. -/
def State.nextLeg (s : State) (d : Nat) : State :=
  s.modOp d fun r => { r with left := r.left - legCycles, legAt := s.after r legCycles }

/-- An operation pre-empted: its Plotter freed, and resumable in the present cycle (R304). -/
def State.preempted (s : State) (d : Nat) : State :=
  ((s.freePlot d).modOp d fun r => { r with st := 3, preempt := true, left := r.left - legCycles }).enterResume d s.schedCycle

theorem State.nextLeg_op (s : State) (d : Nat) (h : d < s.graph.ops.length) :
    (s.nextLeg d).op d = { s.op d with left := (s.op d).left - legCycles, legAt := s.after (s.op d) legCycles } :=
  State.op_modOp_same _ _ _ h

theorem State.preempted_op (s : State) (d : Nat) (h : d < s.graph.ops.length) :
    (s.preempted d).op d = { s.op d with
      st := 3, preempt := true, left := (s.op d).left - legCycles, resume := true, since := s.schedCycle } := by
  rw [State.preempted, State.enterResume_op, State.op_modOp_same]
  · rfl
  · exact h
  · simpa [modAt, State.freePlot] using h

@[simp] theorem State.rdA_preempted (s : State) (d : Nat) (f : RegField) (pg idx : Nat) :
    (s.preempted d).rdA f pg idx = s.rdA f pg idx := by
  rw [State.preempted, State.rdA_enterResume, State.rdA_modOp, State.freePlot, State.rdA_modGraph]

/-- What LEG_END does to an operation at the end of a leg that is not its last (R304, R305). -/
theorem legEnd_completes {s : State} {d : Nat} {P : State → Prop} (ha : s.awake = true) (h2 : (s.op d).st = 2)
    (hl : legCycles < (s.op d).left) (u : State) (hu : u = s.advanceTo (s.after (s.op d) legCycles))
    (hp : P (s.keep (if u.higherReady d && u.freePlotter.isNone && u.lowestAt d then
      if u.waiting < 128 then (((u.preempted d).inc GRS.CNT3_PREEMPT).raise 0x61 4).graphDone
      else (((u.nextLeg d).inc GRS.CNT_WAIT_FULL).raise 0x61 0).graphDone
      else (u.nextLeg d).graphDone))) : Completes (.legEnd d) s P := by
  subst hu
  refine completes_live ha rfl ?_
  dsimp only
  rw [if_pos ⟨h2, hl⟩]
  exact hp

/-- A pre-empted operation waits for its turn with what is left of it, and the pre-emption is counted (R304). -/
theorem preempted_result (s : State) {d : Nat} (h : d < s.graph.ops.length) :
    ∃ v, v = ((s.preempted d).inc GRS.CNT3_PREEMPT).raise 0x61 4 ∧ (v.op d).st = 3 ∧ (v.op d).preempt = true ∧
      (v.op d).left = (s.op d).left - legCycles ∧ d ∈ v.graph.resume ∧ some d ∉ v.graph.plot ∧
      v.rd GRS.CNT3_PREEMPT = min (s.rd GRS.CNT3_PREEMPT + 1) (2 ^ GRS.CNT3_PREEMPT.width - 1) ∧ Raised 0x61 4 v := by
  refine ⟨_, rfl, ?_, ?_, ?_, ?_, ?_, ?_, State.raise_raw _ _ _ (by decide)⟩
  · simp [s.preempted_op d h]
  · simp [s.preempted_op d h]
  · simp [s.preempted_op d h]
  · rw [State.raise_graph, State.inc_graph]
    exact State.mem_enterResume _ _ _
  · rw [State.raise_graph, State.inc_graph]
    exact s.not_mem_freePlot d
  · rw [State.rd, State.rdA_raise_other _ _ _ _ _ _ (by decide) (by decide), State.rdA_inc_same, State.rdA_preempted, ← State.rd]

/-- An operation that cannot be pre-empted for want of a leg-save slot goes on, and the want is counted (R305). -/
theorem nextLeg_full_result (s : State) {d : Nat} (h : d < s.graph.ops.length) :
    ∃ v, v = ((s.nextLeg d).inc GRS.CNT_WAIT_FULL).raise 0x61 0 ∧ (v.op d).st = (s.op d).st ∧
      (v.op d).left = (s.op d).left - legCycles ∧
      v.rd GRS.CNT_WAIT_FULL = min (s.rd GRS.CNT_WAIT_FULL + 1) (2 ^ GRS.CNT_WAIT_FULL.width - 1) ∧ Raised 0x61 0 v := by
  refine ⟨_, rfl, ?_, ?_, ?_, State.raise_raw _ _ _ (by decide)⟩
  · simp [s.nextLeg_op d h]
  · simp [s.nextLeg_op d h]
  · rw [State.rd, State.rdA_raise_other _ _ _ _ _ _ (by decide) (by decide), State.rdA_inc_same]
    rfl

/-! Skips (R311, R313). -/

@[simp] theorem State.staleOuts_graph (s : State) (d : Nat) : (s.staleOuts d).graph = s.graph :=
  foldl_keeps State.graph _ (fun t i => by unfold State.staleSig; split <;> rfl) _ s

@[simp] theorem State.staleOuts_regs (s : State) (d : Nat) : (s.staleOuts d).regs = s.regs :=
  foldl_keeps State.regs _ (fun t i => by unfold State.staleSig; split <;> rfl) _ s

/-- An operation skipped with its cancel or its marker: counted, and raised (R313). -/
theorem markSkipped_result (s : State) {d : Nat} (h : d < s.graph.ops.length) :
    ((s.markSkipped d false).op d).st = 5 ∧ (s.markSkipped d false).graph.ready = s.graph.ready ∧
      (s.markSkipped d false).graph.resume = s.graph.resume ∧
      (s.markSkipped d false).rd GRS.CNT2_SKIPPED = min (s.rd GRS.CNT2_SKIPPED + 1) (2 ^ GRS.CNT2_SKIPPED.width - 1) ∧
      Raised 0x61 2 (s.markSkipped d false) := by
  unfold State.markSkipped
  simp only [Bool.false_eq_true, if_false]
  refine ⟨?_, by simp, by simp, ?_, State.raise_raw _ _ _ (by decide)⟩
  · rw [State.op_raise, State.op_inc, State.op_modOp_same _ _ _ (by simpa using h)]
  · rw [State.rd, State.rdA_raise_other _ _ _ _ _ _ (by decide) (by decide), State.rdA_inc_same, State.rdA_modOp,
      State.rdA_congr (State.staleOuts_regs s d)]
    rfl

/-- An event below SKIPPED's that stands before a skip stands after it. -/
theorem Raised.markSkipped {s : State} {n : Nat} (h : Raised 0x61 n s) (hn : n < 2) (d : Nat) : Raised 0x61 n (s.markSkipped d false) := by
  unfold State.markSkipped
  simp only [Bool.false_eq_true, if_false]
  refine Raised.raise_above (h.congr ?_) hn (by omega)
  rw [State.rdA_inc_other _ _ _ _ _ (by decide), State.rdA_modOp, State.rdA_congr (State.staleOuts_regs s d)]

/-- WAIT_TMO of an operation that waits: the condition met ends the wait; else the timeout counts, and resumes or skips (R308, R309). -/
theorem waitTmo_completes {s : State} {d : Nat} {met : Bool} {P : State → Prop} (ha : s.awake = true) (hi : (s.op d).inWait = true)
    (u : State) (hu : u = s.advanceTo (s.op d).waitEnd)
    (hp : P (s.keep (if met || u.waitHolds d then (u.endWait d false).graphDone
      else (if bitOf (u.desc d).flags 4 then ((u.inc GRS.CNT_WAIT_TMO).raise 0x61 1).skipRun d
        else ((u.inc GRS.CNT_WAIT_TMO).raise 0x61 1).endWait d true).graphDone))) : Completes (.waitTmo ⟨d, met⟩) s P := by
  subst hu
  refine completes_live ha rfl ?_
  dsimp only
  rw [if_pos hi, State.desc_raise _ _ _ (by decide) (by decide), State.desc_inc _ _ (by decide)]
  exact hp

/-- A timeout that resumes its operation: the TMO mark, counted and raised (R308). -/
theorem endWait_tmo_result (s : State) {d : Nat} (h : d < s.graph.ops.length) :
    ∃ v, v = ((s.inc GRS.CNT_WAIT_TMO).raise 0x61 1).endWait d true ∧ (v.op d).resume = true ∧ (v.op d).tmo = true ∧
      d ∈ v.graph.resume ∧ v.rd GRS.CNT_WAIT_TMO = min (s.rd GRS.CNT_WAIT_TMO + 1) (2 ^ GRS.CNT_WAIT_TMO.width - 1) ∧ Raised 0x61 1 v := by
  refine ⟨_, rfl, ?_, ?_, State.mem_endWait _ _ _, ?_, Raised.congr (State.raise_raw (s.inc GRS.CNT_WAIT_TMO) 0x61 1 (by decide)) (State.rdA_endWait _ _ _ _ _ _)⟩
  · rw [State.endWait_op _ _ _ (by simpa using h)]
  · rw [State.endWait_op _ _ _ (by simpa using h)]
  · rw [State.rd, State.rdA_endWait, State.rdA_raise_other _ _ _ _ _ _ (by decide) (by decide), State.rdA_inc_same]
    rfl

/-! Cancels (R311, R312, Table 8-7). -/

/-- What CANCEL does when its write reaches the block. -/
theorem cancel_completes {s : State} {d : Nat} {P : State → Prop} (hw : WriteReaches s 0x61 0x040) (hd : d < 4096)
    (hp : P (s.keep ((s.used 0x61).cancel d).graphDone)) : Completes (.cancel d) s P := by
  refine completes_write (value := fun _ => d % 4096) hw rfl ?_
  rwa [Nat.mod_eq_of_lt hd]

/-- A target that has not begun is marked. -/
theorem State.cancel_idle (s : State) {d : Nat} (h : d < s.graph.ops.length) (hs : (s.op d).st = 0) :
    s.cancel d = s.modOp d fun r => { r with st := 6 } := by
  unfold State.cancel
  rw [if_neg (by omega), if_pos hs]

/-- A target that is ready or held is taken off its ring and skipped. -/
theorem State.cancel_ready (s : State) {d : Nat} (h : d < s.graph.ops.length) (hs : (s.op d).st = 1 ∨ (s.op d).st = 7) :
    s.cancel d = (s.modGraph fun g => { g with ready := g.ready.erase d }).skipRun d := by
  unfold State.cancel
  rw [if_neg (by omega), if_neg (by omega), if_pos hs]

/-- A target that waits is skipped. -/
theorem State.cancel_waiting (s : State) {d : Nat} (h : d < s.graph.ops.length) (hi : (s.op d).inWait = true) :
    s.cancel d = s.skipRun d := by
  have hs := OpRun.st_of_inWait hi
  unfold State.cancel
  rw [if_neg (by omega), if_neg (by omega), if_neg (by omega), if_pos hi]

/-- A target whose wait was met in the cycle of the cancel is skipped all the same (R312). -/
theorem State.cancel_met (s : State) {d : Nat} (h : d < s.graph.ops.length) (hs : (s.op d).st = 3) (hp : (s.op d).preempt = false)
    (hr : (s.op d).resume = true) (ht : (s.op d).tmo = false) (hc : (s.op d).since = s.schedCycle) :
    s.cancel d = (s.modGraph fun g => { g with resume := g.resume.erase d }).skipRun d := by
  unfold State.cancel
  rw [if_neg (by omega), if_neg (by omega), if_neg (by omega), if_neg (by simp [OpRun.inWait, hr]), if_pos (by simp [hs, hp, ht, hc])]

/-- A cancel that comes too late is counted and raised. -/
theorem State.cancel_late (s : State) {d : Nat} (h : d < s.graph.ops.length) (hs : (s.op d).st = 2 ∨ (s.op d).st = 4 ∨ (s.op d).st = 5) :
    s.cancel d = (s.inc GRS.CNT2_CANCEL_LATE).raise 0x61 3 := by
  have hi : ¬(s.op d).inWait = true := fun hi => by have := OpRun.st_of_inWait hi; omega
  unfold State.cancel
  rw [if_neg (by omega), if_neg (by omega), if_neg (by omega), if_neg hi, if_neg (by omega)]

/-! The compute stride (R299, R315, R316). -/

/-- The runs of descriptors reloaded: each listed one starts anew, every other stays. -/
theorem State.op_foldl_reload (l : List Nat) (s : State) (d : Nat) (h : d < s.graph.ops.length) (hm : d ∈ l) :
    ((l.foldl State.reload s).op d).st = 0 ∧ ((l.foldl State.reload s).op d).cnt = (s.desc d).deps := by
  induction l using List.reverseRecOn with
  | nil => simp at hm
  | append_singleton l e ih =>
    have keeps : ∀ (l : List Nat), (l.foldl State.reload s).graph.ops.length = s.graph.ops.length :=
      fun l => foldl_keeps (fun t => t.graph.ops.length) _ (fun t a => by simp [State.reload, modAt]) l s
    have descs : (l.foldl State.reload s).desc = s.desc := foldl_keeps State.desc _ (fun t a => State.desc_modOp _ _ _) l s
    rw [List.foldl_append]
    simp only [List.foldl_cons, List.foldl_nil]
    by_cases he : e = d
    · subst he
      simp only [State.reload]
      rw [State.op_modOp_same _ _ _ (by rwa [keeps]), descs]
      exact ⟨rfl, rfl⟩
    · rw [State.reload, State.op_modOp_other _ _ _ _ he]
      exact ih (by simpa [Ne.symm he] using hm)

/-- The descriptors of the active Chart are numbered by its runs. -/
theorem State.descs_congr {s t : State} (h : t.graph.ops.length = s.graph.ops.length) : t.descs = s.descs := by
  simp only [State.descs, h]

end Sys2Proof.Machine

namespace Sys2Proof.Machine

/-! Signals in the SRAM (R289 to R292). -/

/-- A signal rests on the bytes, the words in error and the free values. -/
theorem State.sig_congr {s t : State} (hm : t.sram = s.sram) (hb : t.sramBad = s.sramBad) (hf : t.freeCtr = s.freeCtr) : t.sig = s.sig := by
  funext i
  simp only [State.sig, State.memLe_congr hm hb hf, State.byte_congr hm, State.memBad_congr hb]

/-- A write puts no word in error (R24). -/
theorem State.memBad_memPut {s : State} {a n b : Nat} {bs : Bytes} (h : s.memBad a n = false) : (s.memPut b bs).memBad a n = false := by
  simp only [State.memBad, List.any_eq_false] at *
  exact fun w hw => h w (List.mem_of_mem_filter hw)

/-- A range inside one without a word in error has none. -/
theorem State.memBad_inside {s : State} {a n b m : Nat} (h : s.memBad a n = false) (hl : a ≤ b) (hr : b + m ≤ a + n) :
    s.memBad b m = false := by
  simp only [State.memBad, List.any_eq_false, decide_eq_true_eq] at *
  exact fun w hw ⟨hx, hy⟩ => h w hw ⟨by omega, by omega⟩

/-- A number read from words without error is that of the bytes. -/
theorem State.memLe_good {s : State} {a n : Nat} (h : s.memBad a n = false) : s.memLe a n = ofLe (s.bytesAt a n) := by
  unfold State.memLe State.bytesRead State.bytesAt
  congr 1
  refine List.map_congr_left fun i hi => ?_
  rw [if_neg]
  have hn := List.mem_range.mp hi
  simp [State.memBad_inside (m := 1) h (Nat.le_add_right a i) (by omega)]

/-- Bytes inside a write read as written. -/
theorem State.bytesAt_memPut_inside (s : State) (a o n : Nat) (bs : Bytes) (h : o + n ≤ bs.length) :
    (s.memPut a bs).bytesAt (a + o) n = (bs.drop o).take n := by
  refine List.ext_getElem (by simp [State.bytesAt]; omega) fun i hi _ => ?_
  have hn : i < n := by simpa [State.bytesAt] using hi
  simp only [State.bytesAt, List.getElem_map, List.getElem_range, State.byte_memPut, List.getElem_take, List.getElem_drop]
  rw [if_pos (by omega), show a + o + i - a = o + i by omega, List.getD_eq_getElem _ _ (by omega)]

/-- Bytes outside a write read as before. -/
theorem State.bytesAt_memPut_outside (s : State) (a b n : Nat) (bs : Bytes) (h : b + n ≤ a ∨ a + bs.length ≤ b) :
    (s.memPut a bs).bytesAt b n = s.bytesAt b n := by
  refine List.map_congr_left fun i hi => ?_
  have := List.mem_range.mp hi
  rw [State.byte_memPut, if_neg (by omega)]

/-- A signal whose words hold no error, by its bytes. -/
theorem State.sig_good {s : State} {i : Nat} (h : s.memBad (sigAddr i) 16 = false) (hi : i ≠ 0xFFFF) :
    s.sig i =
      { bits := if bitOf (s.byte (sigAddr i + 8)).toNat 2 then ofLe (s.bytesAt (sigAddr i) 8) else ofLe (s.bytesAt (sigAddr i) 4)
        valid := bitOf (s.byte (sigAddr i + 8)).toNat 0
        stale := bitOf (s.byte (sigAddr i + 8)).toNat 1
        isTime := bitOf (s.byte (sigAddr i + 8)).toNat 2
        writer := ofLe (s.bytesAt (sigAddr i + 10) 2)
        seq := ofLe (s.bytesAt (sigAddr i + 12) 4) } := by
  have good : ∀ o n, o + n ≤ 16 → s.memLe (sigAddr i + o) n = ofLe (s.bytesAt (sigAddr i + o) n) := fun o n hn =>
    State.memLe_good (State.memBad_inside h (Nat.le_add_right _ _) (by omega))
  have g4 := good 0 4 (by omega)
  have g8 := good 0 8 (by omega)
  simp only [Nat.add_zero] at g4 g8
  unfold State.sig
  simp only [good 10 2 (by omega), good 12 4 (by omega), g4, g8, h]
  simp [hi]

/-- A write outside a signal's slot leaves it as it was. -/
theorem State.sig_memPut_outside {s : State} {i a : Nat} {bs : Bytes} (h : s.memBad (sigAddr i) 16 = false) (hi : i ≠ 0xFFFF)
    (ho : sigAddr i + 16 ≤ a ∨ a + bs.length ≤ sigAddr i) : (s.memPut a bs).sig i = s.sig i := by
  have out : ∀ o n, o + n ≤ 16 → (s.memPut a bs).bytesAt (sigAddr i + o) n = s.bytesAt (sigAddr i + o) n := fun o n hn =>
    State.bytesAt_memPut_outside _ _ _ _ _ (by omega)
  have flag : (s.memPut a bs).byte (sigAddr i + 8) = s.byte (sigAddr i + 8) := by rw [State.byte_memPut, if_neg (by omega)]
  have o4 := out 0 4 (by omega)
  have o8 := out 0 8 (by omega)
  simp only [Nat.add_zero] at o4 o8
  rw [State.sig_good (State.memBad_memPut h) hi, State.sig_good h hi, flag, o4, o8, out 10 2 (by omega), out 12 4 (by omega)]

theorem State.memBad_putSig {s : State} {a n i bits w : Nat} {v t h : Bool} (hb : s.memBad a n = false) :
    (s.putSig i bits v t h w).memBad a n = false := by
  unfold State.putSig
  split
  · exact hb
  · exact State.memBad_memPut hb

/-- A number written to a slot reads back, with its flags and its writer (R291). -/
theorem State.sig_putSig {s : State} {i b w : Nat} (hb : s.memBad (sigAddr i) 16 = false) (hi : i ≠ 0xFFFF) (h : b < 2 ^ 32) :
    ((s.putSig i b true false false w).sig i).bits = b ∧ ((s.putSig i b true false false w).sig i).valid = true ∧
      ((s.putSig i b true false false w).sig i).stale = false ∧ ((s.putSig i b true false false w).sig i).writer = w % 2 ^ 16 ∧
      (s.putSig i b true false false w).byte (sigAddr i + 8) = 1#8 := by
  rw [State.sig_good (State.memBad_putSig hb) hi]
  simp only [State.putSig, if_neg hi, Bool.false_eq_true, if_false, Nat.mod_eq_of_lt h]
  generalize hL : leBytes 8 b ++ leBytes 2 (ofBool true + 4 * ofBool false + 8 * ofBool false) ++ leBytes 2 w ++ leBytes 4 s.presentSeq = L
  have hlen : L.length = 16 := by simp [← hL]
  have flag : (s.memPut (sigAddr i) L).byte (sigAddr i + 8) = 1#8 := by
    rw [State.byte_memPut, if_pos (by omega), Nat.add_sub_cancel_left, ← hL]
    rfl
  have value : (s.memPut (sigAddr i) L).bytesAt (sigAddr i) 4 = leBytes 4 b := by
    rw [← Nat.add_zero (sigAddr i), Nat.add_zero, ← Nat.add_zero (sigAddr i), State.bytesAt_memPut_inside _ _ 0 4 _ (by omega), ← hL]
    rfl
  have writer : (s.memPut (sigAddr i) L).bytesAt (sigAddr i + 10) 2 = leBytes 2 w := by
    rw [State.bytesAt_memPut_inside _ _ 10 2 _ (by omega), ← hL]
    rfl
  rw [flag, value, writer, ofLe_leBytes, ofLe_leBytes]
  exact ⟨Nat.mod_eq_of_lt h, rfl, rfl, rfl, rfl⟩

/-- STALE set in a slot leaves its value, VALID and writer (R292). -/
theorem State.sig_staleSig {s : State} {i : Nat} (hb : s.memBad (sigAddr i) 16 = false) (hi : i ≠ 0xFFFF)
    (hf : s.byte (sigAddr i + 8) = 1#8) :
    ((s.staleSig i).sig i).bits = (s.sig i).bits ∧ ((s.staleSig i).sig i).valid = (s.sig i).valid ∧
      ((s.staleSig i).sig i).stale = true ∧ ((s.staleSig i).sig i).writer = (s.sig i).writer := by
  have hs : s.staleSig i = s.memPut (sigAddr i + 8) [3#8] := by
    rw [State.staleSig, if_neg hi, hf]
    rfl
  rw [hs, State.sig_good (State.memBad_memPut hb) hi, State.sig_good hb hi, State.byte_memPut,
    State.bytesAt_memPut_outside _ _ _ 4 _ (by simp), State.bytesAt_memPut_outside _ _ (sigAddr i + 10) 2 _ (by simp), hf]
  simp [bitOf]

/-- A number output of an operation as its slot shows it, with STALE where the wait timed out (R291, R308). -/
theorem State.sig_putOut {s : State} {d i b : Nat} (tmo : Bool) (hb : s.memBad (sigAddr i) 16 = false) (hi : i ≠ 0xFFFF) (h : b < 2 ^ 32) :
    ((s.putOut d i tmo (.val b true false)).sig i).bits = b ∧ ((s.putOut d i tmo (.val b true false)).sig i).valid = true ∧
      ((s.putOut d i tmo (.val b true false)).sig i).stale = tmo ∧ ((s.putOut d i tmo (.val b true false)).sig i).writer = d % 2 ^ 16 ∧
      (s.putOut d i tmo (.val b true false)).memBad (sigAddr i) 16 = false := by
  obtain ⟨hbits, hvalid, hstale, hwriter, hflag⟩ := State.sig_putSig (w := d) hb hi h
  have good : (s.putSig i b true false false d).memBad (sigAddr i) 16 = false := State.memBad_putSig hb
  cases tmo with
  | false => exact ⟨hbits, hvalid, hstale, hwriter, good⟩
  | true =>
    obtain ⟨sb, sv, ss, sw⟩ := State.sig_staleSig good hi hflag
    refine ⟨sb.trans hbits, sv.trans hvalid, ss, sw.trans hwriter, ?_⟩
    show ((s.putSig i b true false false d).staleSig i).memBad (sigAddr i) 16 = false
    rw [State.staleSig, if_neg hi]
    exact State.memBad_memPut good

/-! Completion (R291, R301). -/

/-- The outputs and the state that an operation writes as it ends. -/
def State.written (s : State) (d : Nat) (res : OpRes) : State :=
  ((s.advanceTo (s.after (s.op d) (s.op d).left)).putOuts d (s.desc d) (s.op d).tmo res.outs).putState (s.desc d).state res.st

/-- An operation that ends: its outputs and its state written, its Plotter freed, and its run marked with the instant. -/
def State.ended (s : State) (d : Nat) (res : OpRes) : State :=
  ((s.written d res).freePlot d).modOp d fun r => { r with st := 4, lastDone := some (s.after (s.op d) (s.op d).left) }

/-- What a completion does before its side effects: its end noted for the stride, and its host ring's entry taken. -/
def State.completed (s : State) (d : Nat) (res : OpRes) : State :=
  ((s.ended d res).noteEnd (s.desc d) (s.after (s.op d) (s.op d).left)).takeEntry (s.desc d) (s.op d).tmo

/-- OP_COMPLETE of an operation in its last leg with its result computed: it ends, has its side effects, and releases its successors. -/
theorem opComplete_completes {s : State} {d : Nat} {res : OpRes} {P : State → Prop} (ha : s.awake = true) (h2 : (s.op d).st = 2)
    (hr : (s.op d).res = some res) (hl : (s.op d).left ≤ legCycles)
    (hp : P (s.keep ((((s.completed d res).sideEffects d (s.desc d) res).release d false).graphDone))) :
    Completes (.opComplete d) s P := by
  refine completes_live ha (by rw [exec, execOpComplete]) ?_
  dsimp only
  rw [h2, hr]
  show P (s.keep (if legCycles < (s.op d).left then s else _))
  rw [if_neg (by omega)]
  exact hp

@[simp] theorem State.putOuts_graph (s : State) (d : Nat) (x : Desc) (tmo : Bool) (outs : List (Option OutV)) :
    (s.putOuts d x tmo outs).graph = s.graph := by
  have put : ∀ (t : State) (i b : Nat) (v tm h : Bool) (w : Nat), (t.putSig i b v tm h w).graph = t.graph := fun t i b v tm h w => by
    unfold State.putSig; split <;> rfl
  have stale : ∀ (t : State) (i : Nat), (t.staleSig i).graph = t.graph := fun t i => by unfold State.staleSig; split <;> rfl
  refine foldl_keeps State.graph _ (fun t o => ?_) _ s
  cases o.2 with
  | none => rfl
  | some v => cases v <;> simp only [State.putOut] <;> split <;> (try split) <;> simp [put, stale]

theorem State.noteEnd_ops (s : State) (x : Desc) (t : Nat) : (s.noteEnd x t).graph.ops = s.graph.ops := by
  unfold State.noteEnd; split <;> rfl
theorem State.noteEnd_plot (s : State) (x : Desc) (t : Nat) : (s.noteEnd x t).graph.plot = s.graph.plot := by
  unfold State.noteEnd; split <;> rfl
theorem State.noteEnd_store (s : State) (x : Desc) (t : Nat) :
    (s.noteEnd x t).sram = s.sram ∧ (s.noteEnd x t).sramBad = s.sramBad ∧ (s.noteEnd x t).freeCtr = s.freeCtr := by
  unfold State.noteEnd; split <;> exact ⟨rfl, rfl, rfl⟩
@[simp] theorem State.takeEntry_graph (s : State) (x : Desc) (tmo : Bool) : (s.takeEntry x tmo).graph = s.graph := by
  unfold State.takeEntry; split <;> rfl
theorem State.takeEntry_store (s : State) (x : Desc) (tmo : Bool) :
    (s.takeEntry x tmo).sram = s.sram ∧ (s.takeEntry x tmo).sramBad = s.sramBad ∧ (s.takeEntry x tmo).freeCtr = s.freeCtr := by
  unfold State.takeEntry; split <;> exact ⟨rfl, rfl, rfl⟩

@[simp] theorem State.written_graph (s : State) (d : Nat) (res : OpRes) : (s.written d res).graph = s.graph := by
  show (State.putOuts _ _ _ _ _).graph = s.graph
  simp

/-- A completed operation is so marked, with the instant, and executes on no Plotter. -/
theorem completed_run (s : State) {d : Nat} (res : OpRes) (h : d < s.graph.ops.length) :
    ((s.completed d res).op d).st = 4 ∧ some d ∉ (s.completed d res).graph.plot ∧
      ((s.completed d res).op d).lastDone = some (s.after (s.op d) (s.op d).left) := by
  have ops : (s.completed d res).graph.ops = (s.ended d res).graph.ops := by
    rw [State.completed, State.takeEntry_graph, State.noteEnd_ops]
  have run : (s.completed d res).op d = { s.op d with st := 4, lastDone := some (s.after (s.op d) (s.op d).left) } := by
    rw [State.op, ops, ← State.op, State.ended, State.op_modOp_same _ _ _ (by simpa [State.freePlot] using h), State.freePlot,
      State.op_modGraph _ _ _ rfl, State.op_congr (State.written_graph s d res)]
  rw [run]
  refine ⟨rfl, ?_, rfl⟩
  rw [State.completed, State.takeEntry_graph, State.noteEnd_plot]
  exact State.not_mem_freePlot _ d

theorem State.ended_store (s : State) (d : Nat) (res : OpRes) :
    (s.ended d res).sram = (s.written d res).sram ∧ (s.ended d res).sramBad = (s.written d res).sramBad ∧
      (s.ended d res).freeCtr = (s.written d res).freeCtr := by
  simp [State.ended, State.freePlot]

/-- What a completion leaves in the SRAM is its outputs and its state. -/
theorem completed_store (s : State) (d : Nat) (res : OpRes) :
    (s.completed d res).byte = (s.written d res).byte ∧ (s.completed d res).sig = (s.written d res).sig := by
  obtain ⟨m0, b0, f0⟩ := s.ended_store d res
  obtain ⟨m1, b1, f1⟩ := (s.ended d res).noteEnd_store (s.desc d) (s.after (s.op d) (s.op d).left)
  obtain ⟨m2, b2, f2⟩ := State.takeEntry_store ((s.ended d res).noteEnd (s.desc d) (s.after (s.op d) (s.op d).left)) (s.desc d) (s.op d).tmo
  have sram := m2.trans (m1.trans m0)
  have sramBad := b2.trans (b1.trans b0)
  have freeCtr := f2.trans (f1.trans f0)
  unfold State.completed
  exact ⟨State.byte_congr sram, State.sig_congr sram sramBad freeCtr⟩

/-- A completed operation's state words stand in Plotter scratch (R291, R333). -/
theorem completed_state (s : State) (d : Nat) (res : OpRes) {k : Nat} (hk : k < 8 * res.st.length) :
    (s.completed d res).byte (scratchBase + 8 * (s.desc d).state + k) = (res.st.flatMap (leBytes 8)).getD k 0 := by
  have hl : (res.st.flatMap (leBytes 8)).length = 8 * res.st.length := by simp [List.length_flatMap, Nat.mul_comm]
  rw [(completed_store s d res).1, State.written, State.putState, State.byte_memPut, if_pos (by omega), Nat.add_sub_cancel_left]

/-- A completed operation's one number output stands in its slot, STALE where its wait timed out (R291, R308). -/
theorem completed_output (s : State) {d i b : Nat} {res : OpRes} (ho : res.outs = [some (.val b true false)]) (hx : (s.desc d).outs = [i])
    (hi : i < 8192) (hb : b < 2 ^ 32) (hg : s.memBad (sigAddr i) 16 = false) :
    ((s.completed d res).sig i).bits = b ∧ ((s.completed d res).sig i).valid = true ∧
      ((s.completed d res).sig i).stale = (s.op d).tmo ∧ ((s.completed d res).sig i).writer = d % 2 ^ 16 := by
  have hi' : i ≠ 0xFFFF := by omega
  have ga : (s.advanceTo (s.after (s.op d) (s.op d).left)).memBad (sigAddr i) 16 = false := by
    rwa [State.memBad_congr (State.advanceTo_sramBad _ _)]
  obtain ⟨hbits, hvalid, hstale, hwriter, good⟩ := State.sig_putOut (d := d) (s.op d).tmo ga hi' hb
  have one : (s.advanceTo (s.after (s.op d) (s.op d).left)).putOuts d (s.desc d) (s.op d).tmo res.outs =
      (s.advanceTo (s.after (s.op d) (s.op d).left)).putOut d i (s.op d).tmo (.val b true false) := by
    simp [State.putOuts, ho, hx, hi']
  rw [(completed_store s d res).2, State.written, one, State.putState,
    State.sig_memPut_outside good hi' (.inl (by simp only [sigAddr, scratchBase]; omega))]
  exact ⟨hbits, hvalid, hstale, hwriter⟩

end Sys2Proof.Machine

namespace Sys2Proof.Machine

/-! The clauses of the scheduler's statement, command by command. -/

/-- What OP_DISPATCH does (R302). -/
theorem opDispatch_completes {s : State} {P : State → Prop} (ha : s.awake = true) (t0 : Nat) (u : State) (hu : u = s.advanceTo t0)
    (hp : P (s.keep (u.dispatch u.mer.mer).graphDone)) : Completes (.opDispatch t0) s P := by
  refine completes_live ha (by rw [exec, execOpDispatch]) ?_
  rw [← hu]
  exact hp

theorem opDispatch_clause {s : State} (ha : s.awake = true) (t0 : Nat) (u : State) (hu : u = s.advanceTo t0) :
    (u.freePlotter = none ∨ u.graph.dispAt.any (sameCycle u.schedCyc u.mer.mer) = true →
      Completes (.opDispatch t0) s fun t => t = s.keep u.graphDone) ∧
    (∀ d p, u.graph.dispAt.any (sameCycle u.schedCyc u.mer.mer) = false → u.freePlotter = some p → p < u.graph.plot.length →
      d < u.graph.ops.length →
      ((u.candidates u.mer.mer).head? = some (d, false) → (u.desc d).waitEn = false ∨ u.waitHolds d = true →
        Completes (.opDispatch t0) s fun t => ∃ v : State, t = s.keep v.graphDone ∧ (v.op d).st = 2 ∧
          (v.op d).legAt = u.mer.mer + 2 * u.schedCyc ∧ v.graph.ready = u.graph.ready.erase d ∧ v.graph.plot.getD p none = some d ∧
          v.graph.dispAt = some u.mer.mer) ∧
      ((u.candidates u.mer.mer).head? = some (d, false) → (u.desc d).waitEn = true → u.waitHolds d = false → u.waiting < 128 →
        Completes (.opDispatch t0) s fun t => ∃ v : State, t = s.keep v.graphDone ∧ (v.op d).st = 3 ∧
          (v.op d).waitEnd = u.mer.mer + (u.desc d).wtmo * ns ∧ v.graph.plot = u.graph.plot) ∧
      ((u.candidates u.mer.mer).head? = some (d, true) → Completes (.opDispatch t0) s fun t => ∃ v : State, t = s.keep v.graphDone ∧
        (v.op d).st = 2 ∧ (v.op d).resume = false ∧ v.graph.resume = u.graph.resume.erase d ∧ v.graph.plot.getD p none = some d)) := by
  refine ⟨fun h => ?_, fun d p hn hp hpl hd => ⟨fun hc hw => ?_, fun hc he hh hw => ?_, fun hc => ?_⟩⟩ <;>
    refine opDispatch_completes ha t0 u hu ?_
  · rw [u.dispatch_none _ h]
  · obtain ⟨v, hv, h⟩ := dispatch_executes u hn hp hpl hd hc hw
    exact ⟨v, by rw [hv], h⟩
  · obtain ⟨v, hv, h⟩ := dispatch_waits u hn hp hd hc he hh hw
    exact ⟨v, by rw [hv], h⟩
  · obtain ⟨v, hv, h⟩ := dispatch_resumes u hn hp hpl hd hc
    exact ⟨v, by rw [hv], h⟩

theorem legEnd_clause {s : State} (ha : s.awake = true) (d : Nat) (u : State) (h2 : (s.op d).st = 2) (hl : legCycles < (s.op d).left)
    (hu : u = s.advanceTo (s.after (s.op d) legCycles)) :
    (u.higherReady d = true → u.freePlotter = none → u.lowestAt d = true →
      (u.waiting < 128 → Completes (.legEnd d) s fun t => ∃ v : State, t = s.keep v.graphDone ∧ (v.op d).st = 3 ∧ (v.op d).preempt = true ∧
        (v.op d).left = (s.op d).left - legCycles ∧ d ∈ v.graph.resume ∧ some d ∉ v.graph.plot ∧
        v.rd GRS.CNT3_PREEMPT = min (s.rd GRS.CNT3_PREEMPT + 1) (2 ^ GRS.CNT3_PREEMPT.width - 1) ∧ Raised 0x61 4 v) ∧
      (128 ≤ u.waiting → Completes (.legEnd d) s fun t => ∃ v : State, t = s.keep v.graphDone ∧ (v.op d).st = 2 ∧
        (v.op d).left = (s.op d).left - legCycles ∧ v.rd GRS.CNT_WAIT_FULL = min (s.rd GRS.CNT_WAIT_FULL + 1) (2 ^ GRS.CNT_WAIT_FULL.width - 1) ∧
        Raised 0x61 0 v)) ∧
    (u.higherReady d = false ∨ u.freePlotter ≠ none ∨ u.lowestAt d = false → Completes (.legEnd d) s fun t => ∃ v : State,
      t = s.keep v.graphDone ∧ (v.op d).st = 2 ∧ (v.op d).left = (s.op d).left - legCycles ∧ v.graph.plot = s.graph.plot) := by
  have hd : d < u.graph.ops.length := by
    rw [hu, State.advanceTo_graph]
    exact State.lt_of_op_st (by omega)
  have hop : u.op d = s.op d := by rw [hu, State.op_advanceTo]
  have hrd : ∀ f, u.rd f = s.rd f := fun f => by rw [hu, State.rd, State.rdA_advanceTo, ← State.rd]
  refine ⟨fun hi hf lo => ⟨fun hw => ?_, fun hw => ?_⟩, fun hn => legEnd_completes ha h2 hl u hu ?_⟩
  · refine legEnd_completes ha h2 hl u hu ?_
    rw [if_pos (by simp [hi, hf, lo]), if_pos hw]
    obtain ⟨v, hv, h⟩ := preempted_result u hd
    rw [hop, hrd] at h
    exact ⟨v, by rw [hv], h⟩
  · refine legEnd_completes ha h2 hl u hu ?_
    rw [if_pos (by simp [hi, hf, lo]), if_neg (by omega)]
    obtain ⟨v, hv, h⟩ := nextLeg_full_result u hd
    rw [hop, hrd, h2] at h
    exact ⟨v, by rw [hv], h⟩
  · rw [if_neg]
    · refine ⟨_, rfl, ?_, ?_, by simp [State.nextLeg, hu]⟩ <;> rw [State.nextLeg_op _ _ hd, hop]
      exact h2
    · rcases hn with h | h | h <;> simp [h, Option.isNone_iff_eq_none]

theorem waitMet_clause {s : State} (ha : s.awake = true) (d : Nat) (hi : (s.op d).inWait = true) (hh : s.waitHolds d = true) :
    Completes (.waitMet d) s fun t => ∃ u : State, t = s.keep u.graphDone ∧ (u.op d).resume = true ∧ (u.op d).tmo = false ∧
      d ∈ u.graph.resume := by
  have hd : d < s.graph.ops.length := State.lt_of_op_st (by rw [OpRun.st_of_inWait hi]; decide)
  refine completes_live ha (by rw [exec, execWaitMet]) ?_
  rw [hi, hh]
  exact ⟨s.endWait d false, rfl, by rw [State.endWait_op _ _ _ hd], by rw [State.endWait_op _ _ _ hd], State.mem_endWait _ _ _⟩

theorem waitTmo_clause {s : State} (ha : s.awake = true) (d : Nat) (met : Bool) (u : State) (hi : (s.op d).inWait = true)
    (hu : u = s.advanceTo (s.op d).waitEnd) :
    (met = true ∨ u.waitHolds d = true → Completes (.waitTmo ⟨d, met⟩) s fun t => ∃ v : State, t = s.keep v.graphDone ∧
      (v.op d).resume = true ∧ (v.op d).tmo = false ∧ d ∈ v.graph.resume ∧ v.rd GRS.CNT_WAIT_TMO = s.rd GRS.CNT_WAIT_TMO) ∧
    (met = false → u.waitHolds d = false → bitOf (u.desc d).flags 4 = false → Completes (.waitTmo ⟨d, met⟩) s fun t => ∃ v : State,
      t = s.keep v.graphDone ∧ (v.op d).resume = true ∧ (v.op d).tmo = true ∧ d ∈ v.graph.resume ∧
      v.rd GRS.CNT_WAIT_TMO = min (s.rd GRS.CNT_WAIT_TMO + 1) (2 ^ GRS.CNT_WAIT_TMO.width - 1) ∧ Raised 0x61 1 v) ∧
    (met = false → u.waitHolds d = false → bitOf (u.desc d).flags 4 = true → Completes (.waitTmo ⟨d, met⟩) s fun t => ∃ v : State,
      t = s.keep (v.release d true).graphDone ∧ (v.op d).st = 5 ∧
      v.rd GRS.CNT2_SKIPPED = min (s.rd GRS.CNT2_SKIPPED + 1) (2 ^ GRS.CNT2_SKIPPED.width - 1) ∧ Raised 0x61 1 v ∧ Raised 0x61 2 v) := by
  have hd : d < u.graph.ops.length := by
    rw [hu, State.advanceTo_graph]
    exact State.lt_of_op_st (by rw [OpRun.st_of_inWait hi]; decide)
  have hrd : ∀ f, u.rd f = s.rd f := fun f => by rw [hu, State.rd, State.rdA_advanceTo, ← State.rd]
  refine ⟨fun hm => ?_, fun hm hh hb => ?_, fun hm hh hb => ?_⟩ <;> refine waitTmo_completes ha hi u hu ?_
  · rw [if_pos (by simpa using hm)]
    exact ⟨u.endWait d false, rfl, by rw [State.endWait_op _ _ _ hd], by rw [State.endWait_op _ _ _ hd], State.mem_endWait _ _ _, hrd _⟩
  · rw [if_neg (by simp [hm, hh]), if_neg (by simp [hb])]
    obtain ⟨v, hv, h⟩ := endWait_tmo_result u hd
    rw [hrd] at h
    exact ⟨v, by rw [hv], h⟩
  · rw [if_neg (by simp [hm, hh]), if_pos hb]
    obtain ⟨hst, -, -, hcnt, hr2⟩ := markSkipped_result (d := d) ((u.inc GRS.CNT_WAIT_TMO).raise 0x61 1) (by simpa using hd)
    refine ⟨_, rfl, hst, ?_, Raised.markSkipped (State.raise_raw _ _ _ (by decide)) (by decide) d, hr2⟩
    rw [hcnt, State.rd, State.rdA_raise_other _ _ _ _ _ _ (by decide) (by decide), State.rdA_inc_other _ _ _ _ _ (by decide),
      ← State.rd, hrd]

theorem opComplete_clause {s : State} (ha : s.awake = true) (d : Nat) (res : OpRes) (h2 : (s.op d).st = 2) (hr : (s.op d).res = some res)
    (hl : (s.op d).left ≤ legCycles) : Completes (.opComplete d) s fun t =>
    ∃ u : State, t = s.keep (((u.sideEffects d (s.desc d) res).release d false).graphDone) ∧ (u.op d).st = 4 ∧ some d ∉ u.graph.plot ∧
      (u.op d).lastDone = some (s.after (s.op d) (s.op d).left) ∧
      (∀ k, k < 8 * res.st.length → u.byte (scratchBase + 8 * (s.desc d).state + k) = (res.st.flatMap (leBytes 8)).getD k 0) ∧
      (∀ i b, res.outs = [some (.val b true false)] → (s.desc d).outs = [i] → i < 8192 → b < 2 ^ 32 →
        8 * (s.desc d).state + 8 * res.st.length ≤ 0xF0000 → s.memBad (sigAddr i) 16 = false →
        (u.sig i).bits = b ∧ (u.sig i).valid = true ∧ (u.sig i).stale = (s.op d).tmo ∧ (u.sig i).writer = d % 2 ^ 16) := by
  obtain ⟨hst, hplot, hdone⟩ := completed_run s res (State.lt_of_op_st (s := s) (d := d) (by omega))
  exact opComplete_completes ha h2 hr hl ⟨s.completed d res, rfl, hst, hplot, hdone, fun k hk => completed_state s d res hk,
    fun i b ho hx hi hb _ hg => completed_output s ho hx hi hb hg⟩

theorem cancel_clause {s : State} (d : Nat) (hw : WriteReaches s 0x61 0x040) (h : d < 4096) (hd : d < s.graph.ops.length) :
    ((s.op d).st = 0 → Completes (.cancel d) s fun t => ∃ u : State, t = s.keep u.graphDone ∧ (u.op d).st = 6) ∧
    ((s.op d).st = 1 ∨ (s.op d).st = 7 → Completes (.cancel d) s fun t => ∃ u : State, t = s.keep (u.release d true).graphDone ∧
      (u.op d).st = 5 ∧ u.graph.ready = s.graph.ready.erase d) ∧
    ((s.op d).inWait = true → Completes (.cancel d) s fun t => ∃ u : State, t = s.keep (u.release d true).graphDone ∧ (u.op d).st = 5 ∧
      u.rd GRS.CNT2_SKIPPED = min (s.rd GRS.CNT2_SKIPPED + 1) (2 ^ GRS.CNT2_SKIPPED.width - 1)) ∧
    ((s.op d).st = 3 → (s.op d).preempt = false → (s.op d).resume = true → (s.op d).tmo = false → (s.op d).since = s.schedCycle →
      Completes (.cancel d) s fun t => ∃ u : State, t = s.keep (u.release d true).graphDone ∧ (u.op d).st = 5 ∧
        u.graph.resume = s.graph.resume.erase d) ∧
    ((s.op d).st = 2 ∨ (s.op d).st = 4 ∨ (s.op d).st = 5 → Completes (.cancel d) s fun t => ∃ u : State, t = s.keep u.graphDone ∧
      u.graph = s.graph ∧ u.rd GRS.CNT2_CANCEL_LATE = min (s.rd GRS.CNT2_CANCEL_LATE + 1) (2 ^ GRS.CNT2_CANCEL_LATE.width - 1) ∧
      Raised 0x61 3 u) := by
  have hu : d < (s.used 0x61).graph.ops.length := hd
  refine ⟨fun h0 => ?_, fun h1 => ?_, fun hi => ?_, fun h3 hp hr ht hc => ?_, fun h2 => ?_⟩ <;> refine cancel_completes hw h ?_
  · rw [State.cancel_idle _ hu h0]
    exact ⟨_, rfl, by rw [State.op_modOp_same _ _ _ hu]⟩
  · rw [State.cancel_ready _ hu h1]
    obtain ⟨hst, hready, -, -, -⟩ := markSkipped_result (d := d) ((s.used 0x61).modGraph fun g => { g with ready := g.ready.erase d }) hu
    exact ⟨_, rfl, hst, hready⟩
  · rw [State.cancel_waiting _ hu hi]
    obtain ⟨hst, -, -, hcnt, -⟩ := markSkipped_result (s.used 0x61) hu
    exact ⟨_, rfl, hst, hcnt⟩
  · rw [State.cancel_met _ hu h3 hp hr ht hc]
    obtain ⟨hst, -, hresume, -, -⟩ := markSkipped_result (d := d) ((s.used 0x61).modGraph fun g => { g with resume := g.resume.erase d }) hu
    exact ⟨_, rfl, hst, hresume⟩
  · rw [State.cancel_late _ hu h2]
    refine ⟨_, rfl, by simp, ?_, State.raise_raw _ _ _ (by decide)⟩
    rw [State.rd, State.rdA_raise_other _ _ _ _ _ _ (by decide) (by decide), State.rdA_inc_same]
    rfl

/-- The operations that a stride runs: those that do not stand (R299, R300). -/
def State.strideOps (s : State) : List Nat := s.descs.filter fun d => !(s.desc d).standing

/-- The compute stride begun in `u`: the counters of the operations of `s` reloaded. -/
def State.begun (s u : State) : State := s.strideOps.foldl State.reload (u.modGraph fun g => { g with started := true, lastEnd := 0 })

@[simp] theorem State.begun_started (s u : State) : (s.begun u).graph.started = true := by
  unfold State.begun
  rw [foldl_keeps (fun t => t.graph.started) State.reload (fun _ _ => rfl), State.modGraph_graph]

theorem State.begun_desc (s u : State) : (s.begun u).desc = u.desc := by
  unfold State.begun
  rw [foldl_keeps State.desc State.reload (fun _ _ => State.desc_modOp _ _ _), State.desc_modGraph]

theorem State.begun_op (s u : State) {d : Nat} (h : d < u.graph.ops.length) (hm : d ∈ s.strideOps) :
    ((s.begun u).op d).st = 0 ∧ ((s.begun u).op d).cnt = (u.desc d).deps := by
  have reloaded := State.op_foldl_reload s.strideOps (u.modGraph fun g => { g with started := true, lastEnd := 0 }) d h hm
  rwa [State.desc_modGraph] at reloaded

/-- What CHART_START does (R299). -/
theorem chartStart_completes {s : State} {P : State → Prop} (ha : s.awake = true) (u : State)
    (hu : u = s.advanceTo (s.mer.lastS + 50 * ns))
    (hp : P (s.keep (if s.on GRF.STAT_RUNNING && !s.graph.started then
      ((s.begun u).admitRun (s.strideOps.filter fun d => (s.desc d).deps == 0)).graphDone else u))) : Completes .chartStart s P := by
  have hon : u.on GRF.STAT_RUNNING = s.on GRF.STAT_RUNNING := by rw [hu, State.on, State.rdA_advanceTo, ← State.on]
  have hgraph : u.graph = s.graph := by rw [hu, State.advanceTo_graph]
  have hdescs : u.descs = s.descs := State.descs_congr (by rw [hgraph])
  have hdesc : u.desc = s.desc := by rw [hu, State.desc_advanceTo]
  refine completes_live ha (by rw [exec, execChartStart]) ?_
  dsimp only
  rw [← hu, hon, hgraph, hdescs, hdesc, ← State.strideOps, ← State.begun, State.begun_desc, hdesc]
  exact hp

theorem chartStart_clause {s : State} (ha : s.awake = true) (hr : s.on GRF.STAT_RUNNING = true) (hs : s.graph.started = false) :
    Completes .chartStart s fun t => ∃ u : State,
      t = s.keep ((u.admitRun ((s.descs.filter fun d => !(s.desc d).standing).filter fun d => (s.desc d).deps == 0)).graphDone) ∧
      u.graph.started = true ∧
      ∀ d, d < s.graph.ops.length → (s.desc d).standing = false → (u.op d).st = 0 ∧ (u.op d).cnt = (s.desc d).deps := by
  obtain ⟨u, hu⟩ : ∃ u, u = s.advanceTo (s.mer.lastS + 50 * ns) := ⟨_, rfl⟩
  have ops : u.graph = s.graph := by rw [hu, State.advanceTo_graph]
  have desc : u.desc = s.desc := by rw [hu, State.desc_advanceTo]
  refine chartStart_completes ha u hu ⟨s.begun u, ?_, s.begun_started u, fun d hd hn => ?_⟩
  · rw [if_pos (by simp [hr, hs]), State.strideOps]
  · rw [← desc]
    exact s.begun_op u (by rwa [ops]) (by simp [State.strideOps, State.descs, hd, hn])

theorem chartStart_idle_clause {s : State} (ha : s.awake = true) (hr : s.on GRF.STAT_RUNNING = false) :
    Completes .chartStart s fun t => t.graph = s.graph := by
  obtain ⟨u, hu⟩ : ∃ u, u = s.advanceTo (s.mer.lastS + 50 * ns) := ⟨_, rfl⟩
  refine chartStart_completes ha u hu ?_
  rw [if_neg (by simp [hr]), State.keep_graph, hu, State.advanceTo_graph]

/-- Some operation of the stride is late at the deadline (R315). -/
def State.lateAt (s u : State) : Bool :=
  s.descs.any fun d => !(s.desc d).standing && !(s.desc d).post && !(s.op d).over && !u.endsNow d

/-- What CHART_DEADLINE does (R315, R316). -/
theorem chartDeadline_completes {s : State} {P : State → Prop} (ha : s.awake = true) (u : State) (hu : u = s.advanceTo s.deadlineAt)
    (hp : P (s.keep (if s.graph.started && s.lateAt u then
      (((u.modGraph fun g => { g with lastEnd := 0xFFFF }).inc GRF.CNT_DL_MISS).raise 0x60 5).diagnose 1 else u))) :
    Completes .chartDeadline s P := by
  have hgraph : u.graph = s.graph := by rw [hu, State.advanceTo_graph]
  have hdescs : u.descs = s.descs := State.descs_congr (by rw [hgraph])
  have hdesc : u.desc = s.desc := by rw [hu, State.desc_advanceTo]
  have hop : u.op = s.op := funext (State.op_congr hgraph)
  refine completes_live ha (by rw [exec, execChartDeadline]) ?_
  dsimp only
  rw [← hu, hgraph, hdescs, hdesc, hop]
  exact hp

theorem chartDeadline_missed_clause {s : State} (ha : s.awake = true)
    (h : s.graph.started = true ∧ ∃ d, d < s.graph.ops.length ∧ (s.desc d).standing = false ∧ (s.desc d).post = false ∧
      (s.op d).over = false ∧ (s.advanceTo s.deadlineAt).endsNow d = false) :
    Completes .chartDeadline s fun t => t.graph.lastEnd = 0xFFFF ∧ Raised 0x60 5 t ∧ bitOf t.diagNow 1 = true ∧
      t.rd GRF.CNT_DL_MISS = min (s.rd GRF.CNT_DL_MISS + 1) (2 ^ GRF.CNT_DL_MISS.width - 1) := by
  obtain ⟨hs, d, hd, hst, hpost, hover, hends⟩ := h
  obtain ⟨u, hu⟩ : ∃ u, u = s.advanceTo s.deadlineAt := ⟨_, rfl⟩
  rw [← hu] at hends
  have late : s.lateAt u = true := List.any_eq_true.mpr ⟨d, List.mem_range.mpr hd, by simp [hst, hpost, hover, hends]⟩
  refine chartDeadline_completes ha u hu ?_
  rw [if_pos (by simp [hs, late])]
  refine ⟨by simp, Raised.congr (State.raise_raw _ 0x60 5 (by decide)) (by rw [State.rdA_keep, State.rdA_diagnose]), bitOf_putBit_same _ _ _, ?_⟩
  rw [State.rd, State.rdA_keep, State.rdA_diagnose, State.rdA_raise_other _ _ _ _ _ _ (by decide) (by decide), State.rdA_inc_same,
    State.rdA_modGraph, hu, State.rdA_advanceTo, ← State.rd]

theorem chartDeadline_kept_clause {s : State} (ha : s.awake = true)
    (h : ∀ d, d < s.graph.ops.length → (s.desc d).standing = true ∨ (s.desc d).post = true ∨ (s.op d).over = true ∨
      (s.advanceTo s.deadlineAt).endsNow d = true) :
    Completes .chartDeadline s fun t => t.graph = s.graph ∧ t.rd GRF.CNT_DL_MISS = s.rd GRF.CNT_DL_MISS := by
  obtain ⟨u, hu⟩ : ∃ u, u = s.advanceTo s.deadlineAt := ⟨_, rfl⟩
  rw [← hu] at h
  have inTime : s.lateAt u = false := by
    refine List.any_eq_false.mpr fun d hd => ?_
    rcases h d (List.mem_range.mp hd) with h | h | h | h <;> simp [h]
  refine chartDeadline_completes ha u hu ?_
  rw [if_neg (by simp [inTime]), hu]
  exact ⟨by rw [State.keep_graph, State.advanceTo_graph], by rw [State.rd, State.rdA_keep, State.rdA_advanceTo, ← State.rd]⟩

/-- Settles O52: every clause is the one of its command above. -/
theorem schedulerRunsTheChart : Obligations.SchedulerRunsTheChart := fun _ ha =>
  ⟨fun t0 u hu => opDispatch_clause ha t0 u hu,
    fun d u h2 hl hu => legEnd_clause ha d u h2 hl hu,
    fun d hi hh => waitMet_clause ha d hi hh,
    fun d met u hi hu => waitTmo_clause ha d met u hi hu,
    fun d res h2 hr hl => opComplete_clause ha d res h2 hr hl,
    fun d hw h hd => cancel_clause d hw h hd,
    chartStart_clause ha, chartStart_idle_clause ha, chartDeadline_missed_clause ha, chartDeadline_kept_clause ha⟩

end Sys2Proof.Machine

namespace Sys2Proof.Machine

/-! What stopping, starting and running the Chart leave of the register file (R299 to R301, R313, R317, R321, R324). -/

/-- The registers that the engine writes as it stops, starts and runs the Chart and drops coefficients: RUNNING, its reports and counters, and the
events of its pages. -/
def chartKeys : List Nat :=
  [GRF.STAT_RUNNING.key 0 0, GRF.PLOT_BUSY.key 0 0, GRF.PLOT_PEAK.key 0 0, GRF.CNT_OVERRUN.key 0 0, GRF.LGD_CNT_COEF_DROP.key 0 0,
    GRF.COEF_STAT_DEPTH.key 0 0, GRS.STAT_EXEC.key 0 0, GRS.STAT_WAITING.key 0 0, GRS.STAT_PEAK_WAIT.key 0 0, GRS.RDY_NONEMPTY.key 0 0,
    GRS.QUERY_STATE.key 0 0, GRS.QUERY_SKIP_IN.key 0 0, GRS.QUERY_TMO.key 0 0, GRS.CNT2_SKIPPED.key 0 0, GRS.CNT3_GUARDED.key 0 0,
    PG.EVT_RAW.key 0x60 0, PG.EVT_PEND.key 0x60 0, PG.EVT_RAW.key 0x61 0, PG.EVT_PEND.key 0x61 0, PG.EVT_RAW.key 0xB1 0,
    PG.EVT_PEND.key 0xB1 0]

/-- From `s` to `t` no register changed but those that the engine writes as it runs the Chart. -/
def ChartRegs (s t : State) : Prop := ∀ (f : RegField) (pg idx : Nat), f.key pg idx ∉ chartKeys → t.rdA f pg idx = s.rdA f pg idx

namespace ChartRegs

theorem of_regs {s t : State} (h : t.regs = s.regs) : ChartRegs s t := fun f pg idx _ => State.rdA_congr h f pg idx

theorem refl (s : State) : ChartRegs s s := of_regs rfl

theorem trans {s t u : State} (h : ChartRegs s t) (k : ChartRegs t u) : ChartRegs s u := fun f pg idx hn =>
  (k f pg idx hn).trans (h f pg idx hn)

theorem ite {s t u : State} {c : Prop} [Decidable c] (h : ChartRegs s t) (k : ChartRegs s u) : ChartRegs s (if c then t else u) := by
  split
  · exact h
  · exact k

/-- A loop keeps what its body keeps. -/
theorem foldl {α : Type} (f : State → α → State) (h : ∀ t a, ChartRegs t (f t a)) (l : List α) (s : State) : ChartRegs s (l.foldl f s) := by
  induction l generalizing s with
  | nil => exact refl s
  | cons a l ih => exact (h s a).trans (ih _)

/-- A loop that collects something beside the state keeps what its body keeps. -/
theorem foldl_fst {α β : Type} (f : State × β → α → State × β) (h : ∀ p a, ChartRegs p.1 (f p a).1) (l : List α) (p : State × β) :
    ChartRegs p.1 (l.foldl f p).1 := by
  induction l generalizing p with
  | nil => exact refl p.1
  | cons a l ih => exact (h p a).trans (ih _)

theorem wr (s : State) {f : RegField} (v : Nat) (h : f.key 0 0 ∈ chartKeys) : ChartRegs s (s.wr f v) := by
  intro g pg idx hn
  refine State.rdA_wrA_other _ _ _ _ _ _ _ _ fun e => ?_
  rw [e] at hn
  exact hn h

theorem wrB (s : State) {f : RegField} (b : Bool) (h : f.key 0 0 ∈ chartKeys) : ChartRegs s (s.wrB f b) := wr s (ofBool b) h

theorem inc (s : State) {f : RegField} (h : f.key 0 0 ∈ chartKeys) : ChartRegs s (s.inc f) := wr s _ h

theorem raise (s : State) {page : Nat} (n : Nat) (hr : PG.EVT_RAW.key page 0 ∈ chartKeys) (hp : PG.EVT_PEND.key page 0 ∈ chartKeys) :
    ChartRegs s (s.raise page n) := by
  intro g pg idx hn
  refine State.rdA_raise_other _ _ _ _ _ _ (fun e => ?_) fun e => ?_ <;> rw [e] at hn
  · exact hn hr
  · exact hn hp

theorem markSkipped (s : State) (d : Nat) (guarded : Bool) : ChartRegs s (s.markSkipped d guarded) := by
  have stale : ChartRegs s ((s.staleOuts d).modOp d fun r => { r with st := 5 }) := of_regs (State.staleOuts_regs s d)
  unfold State.markSkipped
  exact stale.trans (ite (inc _ (by decide)) ((inc _ (by decide)).trans (raise _ 2 (by decide) (by decide))))

theorem enqueue (s : State) (d c : Nat) : ChartRegs s (s.enqueue d c) := of_regs rfl

theorem admitOne (s : State) (c d : Nat) : ChartRegs s (s.admitOne c d).1 := by
  unfold State.admitOne
  dsimp only
  split
  · exact markSkipped s d false
  · split
    · exact enqueue s d c
    · exact markSkipped s d true

theorem admitAll (s : State) (c : Nat) (ds : List Nat) : ChartRegs s (s.admitAll c ds).1 := by
  refine foldl_fst _ (fun p d => ?_) ds (s, [])
  exact admitOne p.1 c d

theorem decrement (s : State) (d : Nat) (marker : Bool) : ChartRegs s (s.decrement d marker).1 := by
  unfold State.decrement
  dsimp only
  split <;> exact of_regs rfl

theorem settle (n : Nat) (s : State) (c : Nat) (work : List (Nat × Bool)) : ChartRegs s (s.settle n c work) := by
  induction n generalizing s c work with
  | zero => exact refl s
  | succ n ih =>
    rw [State.settle]
    refine ite (refl s) ?_
    refine ChartRegs.trans ?_ (ih _ _ _)
    refine ChartRegs.trans ?_ (admitAll _ _ _)
    refine foldl_fst _ (fun p w => ?_) (work.take 8) (s, [])
    exact decrement p.1 w.1 w.2

theorem admitRun (s : State) (ds : List Nat) : ChartRegs s (s.admitRun ds) := (admitAll s s.schedCycle ds).trans (settle _ _ _ _)

theorem reload (s : State) (d : Nat) : ChartRegs s (s.reload d) := of_regs rfl

theorem startChain (s : State) (root : Nat) : ChartRegs s (s.startChain root) :=
  (foldl State.reload reload (s.chain root) s).trans (admitRun _ [root])

theorem reloadChains (s : State) : ChartRegs s s.reloadChains := by
  unfold State.reloadChains
  refine ite (foldl _ (fun t r => ?_) _ s) (refl s)
  exact ite (startChain t r) (refl t)

theorem wr_three (s : State) {f g h : RegField} (u v w : Nat) (hf : f.key 0 0 ∈ chartKeys) (hg : g.key 0 0 ∈ chartKeys)
    (hh : h.key 0 0 ∈ chartKeys) : ChartRegs s (((s.wr f u).wr g v).wr h w) :=
  ((wr s u hf).trans (wr _ v hg)).trans (wr _ w hh)

theorem showGraph (s : State) : ChartRegs s s.showGraph :=
  ((wr_three s _ _ _ (by decide) (by decide) (by decide)).trans (wr_three _ _ _ _ (by decide) (by decide) (by decide))).trans
    (wr_three _ _ (ofBool _) (ofBool _) (by decide) (by decide) (by decide))

theorem graphDone (s : State) : ChartRegs s s.graphDone := (reloadChains s).trans (showGraph _)

theorem abortOp (s : State) (d : Nat) : ChartRegs s (s.abortOp d) := by
  have freed : ChartRegs s ((s.freePlot d).staleOuts d) := of_regs (State.staleOuts_regs (s.freePlot d) d)
  unfold State.abortOp
  exact ite (refl s) ((ite freed (markSkipped s d false)).trans (of_regs rfl))

theorem abortAll (s : State) (ds : List Nat) (counted : Bool) : ChartRegs s (s.abortAll ds counted) := by
  have aborted := foldl State.abortOp abortOp (ds.filter fun d => !(s.op d).over) s
  have noted := fun t : State => (inc t (f := GRF.CNT_OVERRUN) (by decide)).trans (raise _ (page := 0x60) 6 (by decide) (by decide))
  unfold State.abortAll
  exact ite aborted (aborted.trans ((noted _).trans (of_regs rfl)))

theorem initChart (s : State) : ChartRegs s s.initChart := by
  refine foldl _ (fun t d => ?_) _ s
  exact ite (of_regs rfl) (refl t)

theorem runNow (s : State) (swapped : Bool) : ChartRegs s (s.runNow swapped) := by
  have stop : ∀ (t : State) (c : Bool), ChartRegs t (if c then t.abortAll t.descs false else t) := fun t c =>
    ite (abortAll t _ _) (refl t)
  have init : ∀ (t : State) (c : Bool), ChartRegs t (if c then t.initChart.modGraph fun g => { g with fresh := false } else t) := fun t c =>
    ite ((initChart t).trans (of_regs rfl)) (refl t)
  have start : ∀ (t : State) (c : Bool), ChartRegs t (if c then t.roots.foldl State.startChain t else t) := fun t c =>
    ite (foldl _ startChain _ t) (refl t)
  unfold State.runNow
  exact (((wrB s _ (by decide)).trans (stop _ _)).trans (init _ _)).trans (start _ _)

theorem dropCoefs (s : State) : ChartRegs s s.dropCoefs := by
  have dropped := foldl (fun (t : State) (_ : Nat) => (t.inc GRF.LGD_CNT_COEF_DROP).evt 3)
    (fun t _ => (inc t (by decide)).trans (raise _ 3 (by decide) (by decide)))
  exact (of_regs rfl : ChartRegs s (s.modGraph fun g => { g with coefs := [] })).trans ((dropped _ _).trans (wr _ _ (by decide)))

end ChartRegs

/-! The swap (R321 to R323). -/

@[simp] theorem State.rdA_modSec (s : State) (x : SecState → SecState) (f : RegField) (pg idx : Nat) :
    (s.modSec x).rdA f pg idx = s.rdA f pg idx := rfl

/-- The identities exchanged at a swap leave the active half's register. -/
theorem rdA_swapIds (l : List Nat) (s : State) :
    (l.foldl (fun s i => (s.wrA GRF.ACTIVE_ID_CHART_ID 0 i (s.rdA GRF.STAGED_ID_CHART_ID 0 i)).wrA GRF.STAGED_ID_CHART_ID 0 i 0) s).rdA
      GRF.STAT_ACTIVE_HALF 0 0 = s.rdA GRF.STAT_ACTIVE_HALF 0 0 :=
  foldl_keeps (fun t => t.rdA GRF.STAT_ACTIVE_HALF 0 0) _ (fun t i => by
    rw [State.rdA_wrA_other, State.rdA_wrA_other] <;>
      · simp only [RegField.key, GRF.STAT_ACTIVE_HALF, GRF.STAGED_ID_CHART_ID, GRF.ACTIVE_ID_CHART_ID]
        omega) l s

/-- A swap exchanges the halves: the staged one is active and valid, nothing is staged, and no swap is armed (R321). -/
theorem State.swapPairs_stat (s : State) :
    s.swapPairs.rd GRF.STAT_SWAP_PEND = 0 ∧ s.swapPairs.rd GRF.STAT_ACTIVE_HALF = 1 - s.rd GRF.STAT_ACTIVE_HALF ∧
      s.swapPairs.rd GRF.STAT_ACTIVE_VALID = 1 ∧ s.swapPairs.rd GRF.STAT_STAGED = 0 := by
  have half : s.dropCoefs.rdA GRF.STAT_ACTIVE_HALF 0 0 = s.rdA GRF.STAT_ACTIVE_HALF 0 0 := ChartRegs.dropCoefs s _ _ _ (by decide)
  unfold State.swapPairs
  simp (disch := decide) only [State.rd, State.wr, State.rdA_raise_other, State.rdA_inc_other, State.rdA_modGraph, State.rdA_modSec,
    State.rdA_wrA_same, State.rdA_wrA_other, rdA_swapIds, half]
  refine ⟨rfl, Nat.mod_eq_of_lt (?_ : 1 - _ < 2), rfl, rfl⟩
  omega

/-- A swap made at a boundary already taken, with the Chart stopped and started again (R321, R323). -/
theorem swapNow_stat (s : State) (ds : List Nat) (counted : Bool) (t : State)
    (ht : t = ((s.abortAll ds counted).swapPairs.runNow true).graphDone) :
    t.rd GRF.STAT_SWAP_PEND = 0 ∧ t.rd GRF.STAT_ACTIVE_HALF = 1 - s.rd GRF.STAT_ACTIVE_HALF ∧ t.rd GRF.STAT_ACTIVE_VALID = 1 ∧
      t.rd GRF.STAT_STAGED = 0 := by
  have after : ChartRegs (s.abortAll ds counted).swapPairs t := ht ▸ (ChartRegs.runNow _ true).trans (ChartRegs.graphDone _)
  have half : (s.abortAll ds counted).rd GRF.STAT_ACTIVE_HALF = s.rd GRF.STAT_ACTIVE_HALF := ChartRegs.abortAll s _ _ _ _ _ (by decide)
  obtain ⟨hpend, hhalf, hvalid, hstaged⟩ := (s.abortAll ds counted).swapPairs_stat
  exact ⟨(after _ _ _ (by decide)).trans hpend, (after _ _ _ (by decide)).trans (hhalf.trans (by rw [half])),
    (after _ _ _ (by decide)).trans hvalid, (after _ _ _ (by decide)).trans hstaged⟩

/-- The device is a hub whose boundary was taken in the present scheduler cycle, and the Chart of its stride has not started (R323). -/
def State.justTaken (s : State) : Bool := s.isHub && s.mer.lastS != 0 && sameCycle cyc400 s.mer.mer s.mer.lastS && !s.graph.started

/-- SWAP refused: nothing is armed, and SWAP_REFUSED is raised (R322). -/
theorem State.armSwap_refused (s : State) (h : s.rd GRF.STAT_STAGED ≠ 2 ∨ s.on GRF.STAT_SWAP_PEND = true ∨
    (s.on GRF.CTL_AT_SEQ = true ∧ ((s.rd GRF.SWAP_SEQ + 2 ^ 32 - s.mer.seq) % 2 ^ 32 = 0 ∨
      2 ^ 31 ≤ (s.rd GRF.SWAP_SEQ + 2 ^ 32 - s.mer.seq) % 2 ^ 32))) : s.armSwap = s.raise 0x60 4 := by
  unfold State.armSwap
  exact if_pos h

/-- SWAP armed: it takes place now when its boundary was just taken, and else waits (R321, R323). -/
theorem State.armSwap_armed (s : State) (hv : s.rd GRF.STAT_STAGED = 2) (hp : s.on GRF.STAT_SWAP_PEND = false)
    (hq : s.on GRF.CTL_AT_SEQ = true → (s.rd GRF.SWAP_SEQ + 2 ^ 32 - s.mer.seq) % 2 ^ 32 ≠ 0 ∧
      (s.rd GRF.SWAP_SEQ + 2 ^ 32 - s.mer.seq) % 2 ^ 32 < 2 ^ 31) :
    s.armSwap = if !s.on GRF.CTL_AT_SEQ && s.justTaken then
      ((((s.wr GRF.STAT_SWAP_PEND 1).abortAll s.descs (s.on GRF.CTL_RUN && s.on GRF.STAT_RUNNING)).swapPairs.runNow true).graphDone)
      else s.wr GRF.STAT_SWAP_PEND 1 := by
  have go : ¬(s.rd GRF.STAT_STAGED ≠ 2 ∨ s.on GRF.STAT_SWAP_PEND = true ∨
      (s.on GRF.CTL_AT_SEQ = true ∧ ((s.rd GRF.SWAP_SEQ + 2 ^ 32 - s.mer.seq) % 2 ^ 32 = 0 ∨
        2 ^ 31 ≤ (s.rd GRF.SWAP_SEQ + 2 ^ 32 - s.mer.seq) % 2 ^ 32))) := by
    rintro (h | h | ⟨h, k⟩)
    · exact h hv
    · simp [hp] at h
    · have := hq h
      omega
  have other : ∀ f : RegField, f.key 0 0 ≠ GRF.STAT_SWAP_PEND.key 0 0 → (s.wr GRF.STAT_SWAP_PEND 1).rdA f 0 0 = s.rdA f 0 0 := fun f h =>
    State.rdA_wrA_other _ _ _ _ _ _ _ _ h
  have staged : (s.wr GRF.STAT_SWAP_PEND 1).rd GRF.STAT_STAGED = 2 := (other _ (by decide)).trans hv
  have due : ((s.wr GRF.STAT_SWAP_PEND 1).swapDue && (s.wr GRF.STAT_SWAP_PEND 1).isHub && !(s.wr GRF.STAT_SWAP_PEND 1).on GRF.CTL_AT_SEQ &&
      s.mer.lastS != 0 && sameCycle cyc400 s.mer.mer s.mer.lastS && !s.graph.started) = (!s.on GRF.CTL_AT_SEQ && s.justTaken) := by
    have pend : (s.wr GRF.STAT_SWAP_PEND 1).on GRF.STAT_SWAP_PEND = true := by rw [State.on, State.wr, State.rdA_wrA_same]; rfl
    have seq : (s.wr GRF.STAT_SWAP_PEND 1).on GRF.CTL_AT_SEQ = s.on GRF.CTL_AT_SEQ := by rw [State.on, other _ (by decide), ← State.on]
    have hub : (s.wr GRF.STAT_SWAP_PEND 1).isHub = s.isHub := by simp only [State.isHub, State.rd, other SYS.STRAP_ROLE (by decide)]
    rw [State.swapDue, pend, staged, seq, hub, State.justTaken]
    cases s.on GRF.CTL_AT_SEQ <;> simp [Bool.and_assoc]
  have counted : ((s.wr GRF.STAT_SWAP_PEND 1).on GRF.CTL_RUN && (s.wr GRF.STAT_SWAP_PEND 1).on GRF.STAT_RUNNING)
      = (s.on GRF.CTL_RUN && s.on GRF.STAT_RUNNING) := by
    simp only [State.on, other GRF.CTL_RUN (by decide), other GRF.STAT_RUNNING (by decide)]
  unfold State.armSwap
  dsimp only
  rw [if_neg go, State.swapLate, ← due, counted]
  rfl

/-! GRF_CTL (R319, R321, R323, R324). -/

/-- GRF_CTL with what it holds written: AT_SEQ, and RUN unless it is refused. -/
def State.ctlStored (s : State) (v : Nat) : State :=
  let s := (s.noteErrors 0x60 0x040 v).wrB GRF.CTL_AT_SEQ (bitOf v 4)
  if bitOf v 0 && !s.on GRF.STAT_ACTIVE_VALID then s.accessErr 0x60 0x040 4 else s.wrB GRF.CTL_RUN (bitOf v 0)

/-- A write of GRF_CTL stores what the register holds, then acts on STAGE, SWAP and SWAP_CANCEL in that order. -/
theorem State.grfCtlWrite_eq (s : State) (v : Nat) : s.grfCtlWrite v =
    (let s := s.ctlStored v
    let s := if bitOf v 1 then (s.wr GRF.STAT_STAGED 1).modGraph fun g => { g with checkAt := s.mer.uptime } else s
    let s := if bitOf v 2 then s.armSwap else s
    if bitOf v 3 then s.wr GRF.STAT_SWAP_PEND 0 else s) := rfl

/-- What a write of GRF_CTL stores changes AT_SEQ, RUN and the records of failed accesses. -/
theorem State.rdA_ctlStored_other (s : State) (v : Nat) (g : RegField) (pg idx : Nat)
    (h : g.key pg idx ∉ GRF.CTL_AT_SEQ.key 0 0 :: GRF.CTL_RUN.key 0 0 :: errKeys 0x60) :
    (s.ctlStored v).rdA g pg idx = s.rdA g pg idx := by
  simp only [List.mem_cons, not_or] at h
  obtain ⟨hseq, hrun, herr⟩ := h
  have stored : ((s.noteErrors 0x60 0x040 v).wrB GRF.CTL_AT_SEQ (bitOf v 4)).rdA g pg idx = s.rdA g pg idx :=
    (State.rdA_wrA_other _ _ _ _ _ _ _ _ hseq).trans (s.rdA_noteErrors_other _ _ _ _ _ _ herr)
  unfold State.ctlStored
  dsimp only
  split
  · rw [State.rdA_accessErr_other _ _ _ _ _ _ _ herr, stored]
  · rw [State.wrB, State.rdA_wrA_other _ _ _ _ _ _ _ _ hrun, stored]

@[simp] theorem State.ctlStored_graph (s : State) (v : Nat) : (s.ctlStored v).graph = s.graph := by
  unfold State.ctlStored
  dsimp only
  split <;> simp [State.wrB]

@[simp] theorem State.ctlStored_mer (s : State) (v : Nat) : (s.ctlStored v).mer = s.mer := by
  unfold State.ctlStored
  dsimp only
  split <;> simp [State.wrB]

theorem State.on_ctlStored_atSeq (s : State) (v : Nat) : (s.ctlStored v).on GRF.CTL_AT_SEQ = bitOf v 4 := by
  have stored : ∀ t : State, (t.wrB GRF.CTL_AT_SEQ (bitOf v 4)).rdA GRF.CTL_AT_SEQ 0 0 = ofBool (bitOf v 4) := fun t => by
    rw [State.wrB, State.rdA_wrA_same]
    cases bitOf v 4 <;> rfl
  have bit : (ofBool (bitOf v 4) != 0) = bitOf v 4 := by cases bitOf v 4 <;> rfl
  unfold State.ctlStored State.on
  dsimp only
  split
  · rw [State.rdA_accessErr_other _ _ _ _ _ _ _ (by decide), stored, bit]
  · rw [State.wrB, State.rdA_wrA_other _ _ _ _ _ _ _ _ (by decide), stored, bit]

/-- The value that acts on one of STAGE, SWAP and SWAP_CANCEL, with RUN and AT_SEQ as they stand, sets that bit and neither other. -/
theorem bits_ctlAct (run seq : Bool) :
    (bitOf (ofBool run + 16 * ofBool seq + 2) 1 = true ∧ bitOf (ofBool run + 16 * ofBool seq + 2) 2 = false ∧
      bitOf (ofBool run + 16 * ofBool seq + 2) 3 = false) ∧
    (bitOf (ofBool run + 16 * ofBool seq + 4) 1 = false ∧ bitOf (ofBool run + 16 * ofBool seq + 4) 2 = true ∧
      bitOf (ofBool run + 16 * ofBool seq + 4) 3 = false) ∧
    (bitOf (ofBool run + 16 * ofBool seq + 8) 1 = false ∧ bitOf (ofBool run + 16 * ofBool seq + 8) 2 = false ∧
      bitOf (ofBool run + 16 * ofBool seq + 8) 3 = true) := by
  cases run <;> cases seq <;> decide

/-- The value of a write of RUN sets none of them. -/
theorem bits_ctlRun (seq run : Bool) : bitOf (16 * ofBool seq + ofBool run) 0 = run ∧ bitOf (16 * ofBool seq + ofBool run) 1 = false ∧
    bitOf (16 * ofBool seq + ofBool run) 2 = false ∧ bitOf (16 * ofBool seq + ofBool run) 3 = false := by
  cases run <;> cases seq <;> decide

/-- A write that neither stages nor swaps only stores what GRF_CTL holds. -/
theorem State.grfCtlWrite_run (s : State) (seq run : Bool) :
    s.grfCtlWrite (16 * ofBool seq + ofBool run) = s.ctlStored (16 * ofBool seq + ofBool run) := by
  obtain ⟨-, b1, b2, b3⟩ := bits_ctlRun seq run
  simp [State.grfCtlWrite_eq, b1, b2, b3]

/-- STAGE: the checks of the staged half begin (R319). -/
theorem State.grfCtlWrite_stage (s : State) (seq run : Bool) :
    s.grfCtlWrite (ofBool run + 16 * ofBool seq + 2) = ((s.ctlStored (ofBool run + 16 * ofBool seq + 2)).wr GRF.STAT_STAGED 1).modGraph fun g =>
      { g with checkAt := (s.ctlStored (ofBool run + 16 * ofBool seq + 2)).mer.uptime } := by
  obtain ⟨⟨b1, b2, b3⟩, -, -⟩ := bits_ctlAct run seq
  simp [State.grfCtlWrite_eq, b1, b2, b3, State.wr]

/-- SWAP arms a swap, or has it refused. -/
theorem State.grfCtlWrite_swap (s : State) (seq run : Bool) :
    s.grfCtlWrite (ofBool run + 16 * ofBool seq + 4) = (s.ctlStored (ofBool run + 16 * ofBool seq + 4)).armSwap := by
  obtain ⟨-, ⟨b1, b2, b3⟩, -⟩ := bits_ctlAct run seq
  simp [State.grfCtlWrite_eq, b1, b2, b3]

/-- SWAP_CANCEL disarms. -/
theorem State.grfCtlWrite_cancel (s : State) (seq run : Bool) :
    s.grfCtlWrite (ofBool run + 16 * ofBool seq + 8) = (s.ctlStored (ofBool run + 16 * ofBool seq + 8)).wr GRF.STAT_SWAP_PEND 0 := by
  obtain ⟨-, -, b1, b2, b3⟩ := bits_ctlAct run seq
  simp [State.grfCtlWrite_eq, b1, b2, b3]

end Sys2Proof.Machine

namespace Sys2Proof.Machine

/-! The checks of the staged half (R319, Table 8-8). -/

theorem ite_lt_of_lt {c : Prop} [Decidable c] {a b n : Nat} (ha : a < n) (hb : b < n) : (if c then a else b) < n := by
  split <;> assumption

/-- The load checks answer 0 or a code of Table 8-8. -/
theorem State.loadChecks_lt (s : State) (b : Nat) : s.loadChecks b < 256 := by
  unfold State.loadChecks
  iterate 11 refine ite_lt_of_lt (by decide) ?_
  decide

/-- A staged half rejected shows its code, and STAGE_REJECTED is raised. -/
theorem stageReject_result (s : State) (code : Nat) (h : code < 256) :
    (s.stageReject code).rd GRF.STAT_STAGED = 3 ∧ (s.stageReject code).rd GRF.STAT_REJECT = code ∧ Raised 0x60 1 (s.stageReject code) := by
  unfold State.stageReject
  simp (disch := decide) only [State.rd, State.wr, State.rdA_raise_other, State.rdA_inc_other, State.rdA_wrA_same, State.rdA_wrA_other]
  exact ⟨rfl, Nat.mod_eq_of_lt h, State.raise_raw _ _ _ (by decide)⟩

/-- The envelope checks failed: rejected with code 0x01. -/
theorem State.stageCheck_sealed (s : State) (h : s.openStaged.2 ≠ 0) : s.stageCheck = s.openStaged.1.stageReject 0x01 := by
  unfold State.stageCheck
  exact if_pos h

/-- A load check failed: rejected with its code. -/
theorem State.stageCheck_failed (s : State) (h : s.openStaged.2 = 0)
    (hc : s.openStaged.1.loadChecks s.openStaged.1.stagedBase ≠ 0) :
    s.stageCheck = s.openStaged.1.stageReject (s.openStaged.1.loadChecks s.openStaged.1.stagedBase) := by
  unfold State.stageCheck
  dsimp only
  rw [if_neg (by simp [h]), if_pos hc]

/-- Every check passed: the half is valid, and STAGE_DONE is raised. -/
theorem stageCheck_passed_result (s : State) (h : s.openStaged.2 = 0) (hc : s.openStaged.1.loadChecks s.openStaged.1.stagedBase = 0) :
    s.stageCheck.rd GRF.STAT_STAGED = 2 ∧ Raised 0x60 0 s.stageCheck := by
  unfold State.stageCheck
  dsimp only
  rw [if_neg (by simp [h]), if_neg (by simp [hc])]
  refine ⟨?_, State.raise_raw _ _ _ (by decide)⟩
  rw [State.rd, State.rdA_raise_other _ _ _ _ _ _ (by decide) (by decide), State.wr, State.rdA_wrA_same]
  rfl

/-! The coefficient queue (R358 to R360). -/

/-- GRF_COEF_ADDR after a write of GRF_COEF_DATA. -/
def State.coefNext (s : State) : State :=
  if s.on GRF.COEF_ADDR_AUTOINC then s.wr GRF.COEF_ADDR_WORD (s.rd GRF.COEF_ADDR_WORD + 1) else s

/-- The entry that a write of GRF_COEF_DATA makes. -/
def State.coefEntry (s : State) (v : Nat) : CoefEntry := ⟨s.rd GRF.COEF_ADDR_WORD, v % 2 ^ 32, none, s.mer.mer⟩

theorem State.rdA_coefNext_other (s : State) (g : RegField) (pg idx : Nat) (h : g.key pg idx ≠ GRF.COEF_ADDR_WORD.key 0 0) :
    s.coefNext.rdA g pg idx = s.rdA g pg idx := by
  unfold State.coefNext
  split
  · exact State.rdA_wrA_other _ _ _ _ _ _ _ _ h
  · rfl

/-- The word offset advances where AUTOINC is set, modulo its range. -/
theorem State.coefNext_word (s : State) :
    (s.on GRF.COEF_ADDR_AUTOINC = true → s.coefNext.rd GRF.COEF_ADDR_WORD = (s.rd GRF.COEF_ADDR_WORD + 1) % 2 ^ GRF.COEF_ADDR_WORD.width) ∧
    (s.on GRF.COEF_ADDR_AUTOINC = false → s.coefNext.rd GRF.COEF_ADDR_WORD = s.rd GRF.COEF_ADDR_WORD) := by
  unfold State.coefNext
  refine ⟨fun h => ?_, fun h => ?_⟩
  · rw [if_pos h]
    exact State.rdA_wrA_same _ _ _ _ _
  · rw [if_neg (by simp [h])]

@[simp] theorem State.coefNext_graph (s : State) : s.coefNext.graph = s.graph := by
  unfold State.coefNext
  split <;> rfl

@[simp] theorem State.coefNext_mer (s : State) : s.coefNext.mer = s.mer := by
  unfold State.coefNext
  split <;> rfl

/-- The queue with an entry put at its end, and its depth reported. -/
def State.coefQueued (s : State) (c : CoefEntry) : State := (s.modGraph fun g => { g with coefs := g.coefs ++ [c] }).showCoefs

/-- A write of GRF_COEF_DATA collides, enters the queue, or is held. -/
theorem State.coefDataWrite_eq (s : State) (v : Nat) (collides : Bool) : s.coefDataWrite v collides =
    if collides && (s.graph.coefs.getLast?.any fun e => e.desc.isSome && e.word == s.rd GRF.COEF_ADDR_WORD) then
      s.coefNext.inc GRF.CNT2_HOST_COLLIDE
    else if s.graph.coefs.length < 256 && s.graph.coefHeld.isEmpty then (s.coefNext.coefQueued (s.coefEntry v)).coefLate
    else (s.coefNext.modGraph fun g => { g with coefHeld := g.coefHeld ++ [s.coefEntry v] }).coefWait := by
  rw [← State.coefNext_graph s, State.coefEntry, ← State.coefNext_mer s]
  rfl

/-- A write of GRF_COEF_DATA while the queue has room and none is held. -/
theorem State.coefDataWrite_queued (s : State) (v : Nat) (hl : s.graph.coefs.length < 256) (hh : s.graph.coefHeld = []) :
    s.coefDataWrite v false = (s.coefNext.coefQueued (s.coefEntry v)).coefLate := by
  rw [State.coefDataWrite_eq, if_neg (by simp), if_pos (by simp [hl, hh])]

/-- A write of GRF_COEF_DATA while the queue is full: held, and counted (R360). -/
theorem State.coefDataWrite_held (s : State) (v : Nat) (hl : 256 ≤ s.graph.coefs.length) :
    s.coefDataWrite v false = (s.coefNext.modGraph fun g => { g with coefHeld := g.coefHeld ++ [s.coefEntry v] }).coefWait := by
  rw [State.coefDataWrite_eq, if_neg (by simp), if_neg (by simp; omega)]

/-- A write of GRF_COEF_DATA to the word of the graph's last entry, in its cycle: discarded and counted (R359). -/
theorem State.coefDataWrite_collides (s : State) (v : Nat) {x d tm : Nat}
    (h : s.graph.coefs.getLast? = some ⟨s.rd GRF.COEF_ADDR_WORD, x, some d, tm⟩) :
    s.coefDataWrite v true = s.coefNext.inc GRF.CNT2_HOST_COLLIDE := by
  rw [State.coefDataWrite_eq, if_pos (by simp [h])]

/-- The boundary already taken still applies entries that arrive in its cycle (R35, R358). -/
def State.coefDue (s : State) : Bool :=
  s.isHub && s.mer.lastS != 0 && sameCycle cyc400 s.mer.mer s.mer.lastS && decide (s.rd GRF.COEF_STAT_APPLIED < 16)

/-- Outside the cycle of a boundary with room left, entries wait for the next boundary. -/
theorem State.coefLate_waits (s : State) (h : s.coefDue = false) : s.coefLate = s := by
  unfold State.coefLate
  split
  · rw [if_neg (by rw [← State.coefDue, h]; simp)]
  · rfl

/-- In it, the first entry is applied. -/
theorem State.coefLate_applies (s : State) {c : CoefEntry} {rest : List CoefEntry} (hc : s.graph.coefs = c :: rest) (h : s.coefDue = true) :
    s.coefLate = (((s.memPutLe (s.coefBank + 4 * c.word) 4 c.value).modGraph fun g => { g with coefs := rest }).wr GRF.COEF_STAT_APPLIED
      (s.rd GRF.COEF_STAT_APPLIED + 1)).showCoefs := by
  unfold State.coefLate
  rw [hc]
  exact if_pos h

/-- An entry queued changes no register but COEF_ADDR and COEF_STAT.DEPTH. -/
theorem State.rdA_coefQueued_other (s : State) (c : CoefEntry) (g : RegField) (pg idx : Nat)
    (ha : g.key pg idx ≠ GRF.COEF_ADDR_WORD.key 0 0) (hd : g.key pg idx ≠ GRF.COEF_STAT_DEPTH.key 0 0) :
    (s.coefNext.coefQueued c).rdA g pg idx = s.rdA g pg idx :=
  (State.rdA_wrA_other _ _ _ _ _ _ _ _ hd).trans (s.rdA_coefNext_other _ _ _ ha)

theorem State.coefDue_queued (s : State) (c : CoefEntry) : (s.coefNext.coefQueued c).coefDue = s.coefDue := by
  have mer : (s.coefNext.coefQueued c).mer = s.mer := s.coefNext_mer
  have role : (s.coefNext.coefQueued c).isHub = s.isHub := by
    simp only [State.isHub, State.rd, s.rdA_coefQueued_other c SYS.STRAP_ROLE 0 0 (by decide) (by decide)]
  have applied : (s.coefNext.coefQueued c).rd GRF.COEF_STAT_APPLIED = s.rd GRF.COEF_STAT_APPLIED :=
    s.rdA_coefQueued_other c GRF.COEF_STAT_APPLIED 0 0 (by decide) (by decide)
  rw [State.coefDue, mer, role, applied, ← State.coefDue]

/-- What a queued write of GRF_COEF_DATA that waits for the boundary leaves. -/
theorem coefQueued_result (s : State) (v : Nat) (hl : s.graph.coefs.length < 256) :
    let t := s.coefNext.coefQueued (s.coefEntry v)
    t.graph.coefs = s.graph.coefs ++ [s.coefEntry v] ∧ t.rd GRF.COEF_STAT_DEPTH = s.graph.coefs.length + 1 ∧
      t.rd GRF.COEF_ADDR_WORD = s.coefNext.rd GRF.COEF_ADDR_WORD := by
  refine ⟨?_, ?_, State.rdA_wrA_other _ _ _ _ _ _ _ _ (by decide)⟩
  · show s.coefNext.graph.coefs ++ _ = _
    rw [State.coefNext_graph]
  · show ((_ : State).wrA GRF.COEF_STAT_DEPTH 0 0 (s.coefNext.graph.coefs ++ [s.coefEntry v]).length).rdA GRF.COEF_STAT_DEPTH 0 0 = _
    rw [State.rdA_wrA_same, State.coefNext_graph, List.length_append, List.length_singleton]
    exact Nat.mod_eq_of_lt (show _ < 512 by omega)

/-- The low 32 bits of a number have its low four bytes. -/
theorem leBytes_four_mod (v : Nat) : leBytes 4 (v % 2 ^ 32) = leBytes 4 v := by
  simp only [leBytes, List.cons.injEq, and_true]
  refine ⟨?_, ?_, ?_, ?_⟩ <;>
    · refine BitVec.eq_of_toNat_eq ?_
      simp only [BitVec.toNat_ofNat]
      omega

/-- What a write of GRF_COEF_DATA leaves that the boundary just taken applies. -/
theorem coefApplied_result (s : State) (v : Nat) (he : s.graph.coefs = []) (hd : s.coefDue = true) :
    let t := (s.coefNext.coefQueued (s.coefEntry v)).coefLate
    t.graph.coefs = [] ∧ t.rd GRF.COEF_STAT_APPLIED = s.rd GRF.COEF_STAT_APPLIED + 1 ∧
      ∀ k, k < 4 → t.byte (s.coefBank + 4 * s.rd GRF.COEF_ADDR_WORD + k) = (leBytes 4 v).getD k 0 := by
  have queue : (s.coefNext.coefQueued (s.coefEntry v)).graph.coefs = [s.coefEntry v] := by
    show s.coefNext.graph.coefs ++ _ = _
    rw [State.coefNext_graph, he]
    rfl
  have due : (s.coefNext.coefQueued (s.coefEntry v)).coefDue = true := by rw [State.coefDue_queued, hd]
  have applied := s.rdA_coefQueued_other (s.coefEntry v) GRF.COEF_STAT_APPLIED 0 0 (by decide) (by decide)
  have bank : (s.coefNext.coefQueued (s.coefEntry v)).coefBank = s.coefBank :=
    congrArg coefBase (s.rdA_coefQueued_other (s.coefEntry v) GRF.STAT_ACTIVE_HALF 0 0 (by decide) (by decide))
  have few : s.rd GRF.COEF_STAT_APPLIED < 16 := by
    simp only [State.coefDue, Bool.and_eq_true, decide_eq_true_eq] at hd
    exact hd.2
  dsimp only
  rw [State.coefLate_applies _ queue due, bank]
  refine ⟨rfl, ?_, fun k hk => ?_⟩
  · rw [State.showCoefs, State.rd, State.wr, State.rdA_wrA_other _ _ _ _ _ _ _ _ (by decide), State.wr, State.rdA_wrA_same, State.rd, applied]
    exact Nat.mod_eq_of_lt (show s.rd GRF.COEF_STAT_APPLIED + 1 < 32 by omega)
  · rw [State.showCoefs, State.wr, State.byte_wrA, State.wr, State.byte_wrA, State.byte_modGraph, State.memPutLe, State.coefEntry,
      State.byte_memPut, leBytes_four_mod, if_pos (by simp; omega), Nat.add_sub_cancel_left]

end Sys2Proof.Machine

namespace Sys2Proof.Machine

/-! The clauses of the Chart control's statement, register by register. -/

/-- The state in which a write of GRF_CTL meets RUN: its errors noted, AT_SEQ stored. -/
def State.ctlSeq (s : State) (v : Nat) : State := (s.noteErrors 0x60 0x040 v).wrB GRF.CTL_AT_SEQ (bitOf v 4)

theorem State.rdA_ctlSeq_other (s : State) (v : Nat) (g : RegField) (h : g.key 0 0 ∉ GRF.CTL_AT_SEQ.key 0 0 :: errKeys 0x60) :
    (s.ctlSeq v).rdA g 0 0 = s.rdA g 0 0 := by
  simp only [List.mem_cons, not_or] at h
  obtain ⟨hseq, herr⟩ := h
  exact (State.rdA_wrA_other _ _ _ _ _ _ _ _ hseq).trans (s.rdA_noteErrors_other _ _ _ _ _ _ herr)

/-- RUN is stored unless it is set with no valid Chart active (R324). -/
theorem State.ctlStored_run (s : State) (v : Nat) (h : bitOf v 0 = true → s.on GRF.STAT_ACTIVE_VALID = true) :
    (s.ctlStored v).rd GRF.CTL_RUN = ofBool (bitOf v 0) := by
  have valid : (s.ctlSeq v).on GRF.STAT_ACTIVE_VALID = s.on GRF.STAT_ACTIVE_VALID := by
    rw [State.on, s.rdA_ctlSeq_other v _ (by decide), ← State.on]
  show (if bitOf v 0 && !(s.ctlSeq v).on GRF.STAT_ACTIVE_VALID then _ else (s.ctlSeq v).wrB GRF.CTL_RUN (bitOf v 0)).rd GRF.CTL_RUN = _
  rw [valid, if_neg, State.rd, State.wrB, State.rdA_wrA_same]
  · cases bitOf v 0 <;> rfl
  · simpa using h

/-- RUN set with no valid Chart active is refused with code 4 (R324). -/
theorem State.ctlStored_refused (s : State) (v : Nat) (hr : bitOf v 0 = true) (h : s.on GRF.STAT_ACTIVE_VALID = false) :
    (s.ctlStored v).rd GRF.CTL_RUN = s.rd GRF.CTL_RUN ∧ (s.ctlStored v).rdI PG.ERR_CODE 0x60 = 4 := by
  have valid : (s.ctlSeq v).on GRF.STAT_ACTIVE_VALID = false := by rwa [State.on, s.rdA_ctlSeq_other v _ (by decide), ← State.on]
  have stored : s.ctlStored v = (s.ctlSeq v).accessErr 0x60 0x040 4 := by
    show (if bitOf v 0 && !(s.ctlSeq v).on GRF.STAT_ACTIVE_VALID then _ else _) = _
    rw [valid, hr]
    rfl
  rw [stored]
  exact ⟨(State.rdA_accessErr_other _ _ _ _ _ _ _ (by decide)).trans (s.rdA_ctlSeq_other v _ (by decide)),
    State.accessErr_code _ _ _ _ (by decide)⟩

/-- What RUN completes with. -/
theorem run_completes {s : State} {on : Bool} {P : State → Prop} (hw : WriteReaches s 0x60 0x040)
    (hp : P (s.keep ((s.used 0x60).ctlStored (16 * ofBool (s.on GRF.CTL_AT_SEQ) + ofBool on)))) : Completes (.run on) s P := by
  obtain ⟨ha, hv, hm⟩ := hw
  refine completes_live ha (by rw [exec, execRun]) ?_
  dsimp only
  rw [State.busWrite_perform _ _ _ _ _ hv hm, State.grfCtlWrite_run]
  exact hp

/-- What a write of GRF_CTL that sets the bits given completes with. -/
theorem grfCtl_completes {c : Instr} {s : State} {bits : Nat} {P : State → Prop} (hw : WriteReaches s 0x60 0x040)
    (he : exec c s = s.live fun s => s.grfCtl bits)
    (hp : P (s.keep ((s.used 0x60).grfCtlWrite (ofBool (s.on GRF.CTL_RUN) + 16 * ofBool (s.on GRF.CTL_AT_SEQ) + bits)))) : Completes c s P :=
  completes_write (value := fun s => s.rawWord 0x60 0x040 ||| bits) hw he hp

theorem run_clause {s : State} (hw : WriteReaches s 0x60 0x040) :
    (s.on GRF.STAT_ACTIVE_VALID = true → Completes (.run true) s fun t =>
      t.rd GRF.CTL_RUN = 1 ∧ t.rd GRF.STAT_RUNNING = s.rd GRF.STAT_RUNNING) ∧
    (s.on GRF.STAT_ACTIVE_VALID = false → Completes (.run true) s fun t =>
      t.rd GRF.CTL_RUN = s.rd GRF.CTL_RUN ∧ t.rdI PG.ERR_CODE 0x60 = 4) ∧
    Completes (.run false) s (fun t => t.rd GRF.CTL_RUN = 0 ∧ t.rd GRF.STAT_RUNNING = s.rd GRF.STAT_RUNNING) := by
  have running : ∀ v, (s.keep ((s.used 0x60).ctlStored v)).rd GRF.STAT_RUNNING = s.rd GRF.STAT_RUNNING := fun v =>
    State.rdA_ctlStored_other _ _ _ _ _ (by decide)
  have bit : ∀ on, bitOf (16 * ofBool (s.on GRF.CTL_AT_SEQ) + ofBool on) 0 = on := fun on => And.left (bits_ctlRun _ on)
  refine ⟨fun hv => run_completes hw ⟨?_, running _⟩, fun hv => run_completes hw ?_, run_completes hw ⟨?_, running _⟩⟩
  · exact (State.ctlStored_run (s.used 0x60) _ fun _ => hv).trans (by rw [bit]; rfl)
  · exact State.ctlStored_refused (s.used 0x60) _ (bit true) hv
  · exact (State.ctlStored_run (s.used 0x60) _ (by simp [bit])).trans (by rw [bit]; rfl)

theorem stage_clause {s : State} (hw : WriteReaches s 0x60 0x040) : Completes .stage s (fun t => t.rd GRF.STAT_STAGED = 1) := by
  refine grfCtl_completes hw rfl ?_
  rw [State.grfCtlWrite_stage, State.rd, State.rdA_keep, State.rdA_modGraph, State.wr, State.rdA_wrA_same]
  rfl

theorem swapCancel_clause {s : State} (hw : WriteReaches s 0x60 0x040) : Completes .swapCancel s (fun t => t.rd GRF.STAT_SWAP_PEND = 0) := by
  refine grfCtl_completes hw rfl ?_
  rw [State.grfCtlWrite_cancel, State.rd, State.rdA_keep, State.wr, State.rdA_wrA_same]
  rfl

/-- What SWAP completes with: the swap is armed in a state that reads as the one written, the failed accesses and RUN aside (R321, R322). -/
theorem swap_completes {s : State} {P : State → Prop} (hw : WriteReaches s 0x60 0x040)
    (hp : ∀ u : State, (∀ f : RegField, f.key 0 0 ∉ GRF.CTL_AT_SEQ.key 0 0 :: GRF.CTL_RUN.key 0 0 :: errKeys 0x60 → u.rdA f 0 0 = s.rdA f 0 0) →
      u.on GRF.CTL_AT_SEQ = s.on GRF.CTL_AT_SEQ → u.mer = s.mer → u.graph = s.graph → P (s.keep u.armSwap)) : Completes .swap s P := by
  refine grfCtl_completes hw rfl ?_
  rw [State.grfCtlWrite_swap]
  refine hp _ (fun f hf => State.rdA_ctlStored_other _ _ _ _ _ hf) ?_ (State.ctlStored_mer _ _) (State.ctlStored_graph _ _)
  rw [State.on_ctlStored_atSeq]
  cases s.on GRF.CTL_RUN <;> cases s.on GRF.CTL_AT_SEQ <;> rfl

theorem swap_armed_clause {s : State} (hw : WriteReaches s 0x60 0x040) (hv : s.rd GRF.STAT_STAGED = 2) (hp : s.on GRF.STAT_SWAP_PEND = false)
    (hq : s.on GRF.CTL_AT_SEQ = true → (s.rd GRF.SWAP_SEQ + 2 ^ 32 - s.mer.seq) % 2 ^ 32 ≠ 0 ∧
      (s.rd GRF.SWAP_SEQ + 2 ^ 32 - s.mer.seq) % 2 ^ 32 < 2 ^ 31) (hn : s.on GRF.CTL_AT_SEQ = true ∨ s.justTaken = false) :
    Completes .swap s fun t => t.rd GRF.STAT_SWAP_PEND = 1 := by
  refine swap_completes hw fun u hr hs hm hg => ?_
  have taken : u.justTaken = s.justTaken := by simp only [State.justTaken, State.isHub, State.rd, hr SYS.STRAP_ROLE (by decide), hm, hg]
  rw [u.armSwap_armed ((hr _ (by decide)).trans hv) (by rw [State.on, hr _ (by decide), ← State.on, hp])
    (by rw [hs, hm, State.rd, hr _ (by decide), ← State.rd]; exact hq), hs, taken, if_neg (by rcases hn with h | h <;> simp [h]),
    State.rd, State.rdA_keep, State.wr, State.rdA_wrA_same]
  rfl

theorem swap_now_clause {s : State} (hw : WriteReaches s 0x60 0x040) (hv : s.rd GRF.STAT_STAGED = 2) (hp : s.on GRF.STAT_SWAP_PEND = false)
    (hs : s.on GRF.CTL_AT_SEQ = false) (ht : s.justTaken = true) : Completes .swap s fun t =>
      t.rd GRF.STAT_SWAP_PEND = 0 ∧ t.rd GRF.STAT_ACTIVE_HALF = 1 - s.rd GRF.STAT_ACTIVE_HALF ∧ t.rd GRF.STAT_ACTIVE_VALID = 1 ∧
        t.rd GRF.STAT_STAGED = 0 := by
  refine swap_completes hw fun u hr hs' hm hg => ?_
  have taken : u.justTaken = s.justTaken := by simp only [State.justTaken, State.isHub, State.rd, hr SYS.STRAP_ROLE (by decide), hm, hg]
  have half : (u.wr GRF.STAT_SWAP_PEND 1).rd GRF.STAT_ACTIVE_HALF = s.rd GRF.STAT_ACTIVE_HALF :=
    (State.rdA_wrA_other _ _ _ _ _ _ _ _ (by decide)).trans (hr _ (by decide))
  rw [u.armSwap_armed ((hr _ (by decide)).trans hv) (by rw [State.on, hr _ (by decide), ← State.on, hp]) (by simp [hs', hs]), hs', taken,
    if_pos (by simp [hs, ht]), ← half]
  have stat := swapNow_stat (u.wr GRF.STAT_SWAP_PEND 1) u.descs (u.on GRF.CTL_RUN && u.on GRF.STAT_RUNNING) _ rfl
  simpa only [State.rd, State.rdA_keep] using stat

theorem swap_refused_clause {s : State} (hw : WriteReaches s 0x60 0x040)
    (h : s.rd GRF.STAT_STAGED ≠ 2 ∨ s.on GRF.STAT_SWAP_PEND = true ∨
      (s.on GRF.CTL_AT_SEQ = true ∧ ((s.rd GRF.SWAP_SEQ + 2 ^ 32 - s.mer.seq) % 2 ^ 32 = 0 ∨
        2 ^ 31 ≤ (s.rd GRF.SWAP_SEQ + 2 ^ 32 - s.mer.seq) % 2 ^ 32))) :
    Completes .swap s fun t => t.rd GRF.STAT_SWAP_PEND = s.rd GRF.STAT_SWAP_PEND ∧ Raised 0x60 4 t := by
  refine swap_completes hw fun u hr hs hm hg => ?_
  have same : ∀ f : RegField, f.key 0 0 ∉ GRF.CTL_AT_SEQ.key 0 0 :: GRF.CTL_RUN.key 0 0 :: errKeys 0x60 → u.rd f = s.rd f := hr
  rw [u.armSwap_refused (by rwa [same _ (by decide), State.on, hr _ (by decide), ← State.on, hs, same _ (by decide), hm])]
  exact ⟨(State.rdA_raise_other _ _ _ _ _ _ (by decide) (by decide)).trans (hr _ (by decide)),
    Raised.congr (State.raise_raw u 0x60 4 (by decide)) (State.rdA_keep _ _ _ _ _)⟩

theorem stageCheckDone_clause {s : State} (ha : s.awake = true) (h1 : s.rd GRF.STAT_STAGED = 1) :
    (s.openStaged.2 ≠ 0 → Completes .stageCheckDone s fun t =>
      t.rd GRF.STAT_STAGED = 3 ∧ t.rd GRF.STAT_REJECT = 1 ∧ Raised 0x60 1 t) ∧
    (s.openStaged.2 = 0 → s.openStaged.1.loadChecks s.openStaged.1.stagedBase ≠ 0 → Completes .stageCheckDone s fun t =>
      t.rd GRF.STAT_STAGED = 3 ∧ t.rd GRF.STAT_REJECT = s.openStaged.1.loadChecks s.openStaged.1.stagedBase ∧ Raised 0x60 1 t) ∧
    (s.openStaged.2 = 0 → s.openStaged.1.loadChecks s.openStaged.1.stagedBase = 0 → Completes .stageCheckDone s fun t =>
      t.rd GRF.STAT_STAGED = 2 ∧ Raised 0x60 0 t) := by
  have check : ∀ {P : State → Prop}, P (s.keep s.stageCheck) → Completes .stageCheckDone s P := fun hp =>
    completes_live ha (by rw [exec, execStageCheckDone]) (by rwa [if_pos h1])
  refine ⟨fun h => check ?_, fun h hc => check ?_, fun h hc => check ?_⟩
  · rw [s.stageCheck_sealed h]
    exact stageReject_result _ _ (by decide)
  · rw [s.stageCheck_failed h hc]
    exact stageReject_result _ _ (State.loadChecks_lt _ _)
  · exact stageCheck_passed_result s h hc

/-- What COEF_DATA_WRITE completes with. -/
theorem coefDataWrite_completes {s : State} {v : Nat} {collides : Bool} {P : State → Prop} (hw : WriteReaches s 0x60 0x084)
    (hp : P (s.keep ((s.used 0x60).coefDataWrite v collides))) : Completes (.coefDataWrite v collides) s P :=
  completes_write (value := fun _ => v) hw rfl hp

theorem coefData_queued_clause {s : State} {v : Nat} (hw : WriteReaches s 0x60 0x084) (hl : s.graph.coefs.length < 256)
    (hh : s.graph.coefHeld = []) (hn : s.coefDue = false) : Completes (.coefDataWrite v false) s fun t =>
      t.graph.coefs = s.graph.coefs ++ [⟨s.rd GRF.COEF_ADDR_WORD, v % 2 ^ 32, none, s.mer.mer⟩] ∧
      t.rd GRF.COEF_STAT_DEPTH = s.graph.coefs.length + 1 ∧
      (s.on GRF.COEF_ADDR_AUTOINC = true → t.rd GRF.COEF_ADDR_WORD = (s.rd GRF.COEF_ADDR_WORD + 1) % 2 ^ GRF.COEF_ADDR_WORD.width) ∧
      (s.on GRF.COEF_ADDR_AUTOINC = false → t.rd GRF.COEF_ADDR_WORD = s.rd GRF.COEF_ADDR_WORD) := by
  refine coefDataWrite_completes hw ?_
  obtain ⟨hcoefs, hdepth, hword⟩ := coefQueued_result (s.used 0x60) v hl
  obtain ⟨hinc, hstay⟩ := (s.used 0x60).coefNext_word
  rw [(s.used 0x60).coefDataWrite_queued v hl hh, State.coefLate_waits _ ((State.coefDue_queued (s.used 0x60) _).trans hn)]
  exact ⟨hcoefs, hdepth, fun h => hword.trans (hinc h), fun h => hword.trans (hstay h)⟩

theorem coefData_applied_clause {s : State} {v : Nat} (hw : WriteReaches s 0x60 0x084) (he : s.graph.coefs = [])
    (hh : s.graph.coefHeld = []) (hd : s.coefDue = true) : Completes (.coefDataWrite v false) s fun t =>
      t.graph.coefs = [] ∧ t.rd GRF.COEF_STAT_APPLIED = s.rd GRF.COEF_STAT_APPLIED + 1 ∧
      ∀ k, k < 4 → t.byte (s.coefBank + 4 * s.rd GRF.COEF_ADDR_WORD + k) = (leBytes 4 v).getD k 0 := by
  refine coefDataWrite_completes hw ?_
  rw [(s.used 0x60).coefDataWrite_queued v (by simp [he]) hh]
  exact coefApplied_result (s.used 0x60) v he hd

theorem coefData_held_clause {s : State} {v : Nat} (hw : WriteReaches s 0x60 0x084) (hl : 256 ≤ s.graph.coefs.length) :
    Completes (.coefDataWrite v false) s fun t => t.graph.coefs = s.graph.coefs ∧
      t.graph.coefHeld = s.graph.coefHeld ++ [⟨s.rd GRF.COEF_ADDR_WORD, v % 2 ^ 32, none, s.mer.mer⟩] ∧
      t.rd GRF.LGD_CNT_COEF_WAIT = min (s.rd GRF.LGD_CNT_COEF_WAIT + 1) (2 ^ GRF.LGD_CNT_COEF_WAIT.width - 1) := by
  refine coefDataWrite_completes hw ?_
  rw [(s.used 0x60).coefDataWrite_held v hl, State.coefWait, State.evt]
  refine ⟨by simp, by simp [State.coefEntry, State.rd], ?_⟩
  rw [State.rd, State.rdA_keep, State.rdA_raise_other _ _ _ _ _ _ (by decide) (by decide), State.rdA_inc_same, State.rdA_modGraph,
    State.rdA_coefNext_other _ _ _ _ (by decide)]
  rfl

theorem coefData_collides_clause {s : State} {v x d tm : Nat} (hw : WriteReaches s 0x60 0x084)
    (h : s.graph.coefs.getLast? = some ⟨s.rd GRF.COEF_ADDR_WORD, x, some d, tm⟩) : Completes (.coefDataWrite v true) s fun t =>
      t.graph.coefs = s.graph.coefs ∧ t.graph.coefHeld = s.graph.coefHeld ∧
      t.rd GRF.CNT2_HOST_COLLIDE = min (s.rd GRF.CNT2_HOST_COLLIDE + 1) (2 ^ GRF.CNT2_HOST_COLLIDE.width - 1) := by
  refine coefDataWrite_completes hw ?_
  rw [(s.used 0x60).coefDataWrite_collides v h]
  refine ⟨by simp, by simp, ?_⟩
  rw [State.rd, State.rdA_keep, State.rdA_inc_same, State.rdA_coefNext_other _ _ _ _ (by decide)]
  rfl

theorem coefWriteResume_clause {s : State} (ha : s.awake = true) {c : CoefEntry} {rest : List CoefEntry}
    (hh : s.graph.coefHeld = c :: rest) :
    (s.graph.coefs.length < 256 → Completes .coefWriteResume s fun t =>
      t.graph.coefs = s.graph.coefs ++ [c] ∧ t.graph.coefHeld = rest) ∧
    (256 ≤ s.graph.coefs.length → Completes .coefWriteResume s fun t => t.graph = s.graph) := by
  have resume : s.coefResume = if s.graph.coefs.length < 256 then
      (s.modGraph fun g => { g with coefs := g.coefs ++ [c], coefHeld := rest }).showCoefs else s := by
    rw [State.coefResume, hh]
  refine ⟨fun hl => completes_live ha rfl ?_, fun hl => completes_live ha rfl ?_⟩
  · rw [resume, if_pos hl]
    exact ⟨rfl, rfl⟩
  · rw [resume, if_neg (by omega)]
    rfl

theorem cflClear_clause {s : State} (hw : WriteReaches s 0x60 0x090) (hc : s.on GRF.FBL_STAT_CFL = true) :
    Completes .cflClear s fun t => t.graph.cflClr = true ∧ t.rd GRF.FBL_STAT_CFL = s.rd GRF.FBL_STAT_CFL := by
  have cfl := (s.used 0x60).rdA_noteErrors_other 0x60 0x090 1 GRF.FBL_STAT_CFL 0 0 (by decide)
  have on : ((s.used 0x60).noteErrors 0x60 0x090 1).on GRF.FBL_STAT_CFL = true := by rwa [State.on, cfl]
  refine completes_write (value := fun _ => 1) hw rfl ?_
  unfold State.fblStatWrite
  dsimp only
  rw [if_pos (by rw [on]; rfl)]
  exact ⟨rfl, cfl⟩

/-- Settles O53: every clause is the one of its command above. -/
theorem chartControlStagesSwapsAndQueues : Obligations.ChartControlStagesSwapsAndQueues := by
  intro s
  refine ⟨fun hw => ?_, fun ha h1 h => ?_, fun ha h1 h hc => ?_, fun ha h1 h hc => ?_, fun v w hw h => ?_,
    fun c rest ha hh => coefWriteResume_clause ha hh, fun hw hc => cflClear_clause hw hc⟩
  · obtain ⟨hrun, hrefused, hstop⟩ := run_clause hw
    refine ⟨hrun, hrefused, hstop, stage_clause hw, fun hv hp hs hn => ?_, fun hv hp hs hub hz hc hst => ?_, fun h => ?_,
      fun ahead hahead hs => ⟨fun h => ?_, fun hv hp h0 h1 => ?_⟩, swapCancel_clause hw⟩
    · refine swap_armed_clause hw hv hp (by simp [hs]) (.inr ?_)
      rcases hn with h | h | h | h <;> simp [State.justTaken, h]
    · exact swap_now_clause hw hv hp hs (by simp [State.justTaken, hub, hz, hc, hst])
    · exact swap_refused_clause hw (by tauto)
    · exact swap_refused_clause hw (.inr (.inr ⟨hs, hahead ▸ h⟩))
    · exact swap_armed_clause hw hv hp (fun _ => ⟨by omega, by omega⟩) (.inl hs)
  · obtain ⟨hsealed, -, -⟩ := stageCheckDone_clause ha h1
    exact hsealed h
  · obtain ⟨-, hfailed, -⟩ := stageCheckDone_clause ha h1
    exact hfailed h hc
  · obtain ⟨-, -, hpassed⟩ := stageCheckDone_clause ha h1
    exact hpassed h hc
  · subst h
    refine ⟨fun hl hh hn => coefData_queued_clause hw hl hh ?_, fun he hh hub hz hc hf _ => coefData_applied_clause hw he hh ?_,
      fun hl => coefData_held_clause hw hl, fun x d tm h => coefData_collides_clause hw h⟩
    · rcases hn with h | h | h | h <;> simp [State.coefDue, h]
    · simp [State.coefDue, hub, hz, hc, hf]

end Sys2Proof.Machine
